-- ==== Sys2Proof/Word.lean ====
section
/-!
DEFINITION. The word types of the Krovale NK960 and the sparse map that every large store of the device is written in.
-/

namespace Sys2Proof

/-- A byte of memory (00 R7). -/
abbrev Byte := BitVec 8

/-- A 64-bit register of a control core (06 R165). -/
abbrev Word := BitVec 64

/-- A condition code, 16 bits wide (00 R12); kept as a number so that "the lowest numbered code" (06 R164) is a minimum. -/
abbrev Code := Nat

/-- A sparse map: the entries that differ from the map's default, keys strictly rising (the canonical form). -/
abbrev Sp (α : Type) := List (Nat × α)

end Sys2Proof
end

