-- ==== Sys2Proof/Syntax.lean ====
section
/-!
DEFINITION. The commands of the block: one constructor per row of spec/opcode_table.json, with the operands that come from
outside the device (which unit acts; what the environment brought: a message, a packet, a measured value, a pin's level).
Everything else a command works on (an engine command's 256 bits, an instruction's 32 bits, an SCU record, a mailbox
request of the host) it takes from the device's own queues and memories (log entry 5).
-/

namespace Sys2Proof

/-- The medium that carries an MCTP message (17 R437). -/
inductive Medium where
  | smbus
  | i3c
  | pcie
deriving DecidableEq, Repr

/-- Where a request of the MCTP control protocol or of SPDM came from: an endpoint on a medium, or the PF's DOE mailbox. -/
inductive Via where
  | mctp (med : Medium) (eid : Nat)
  | doe
deriving DecidableEq, Repr

/-- A mailbox request that is carried out (14 R361): the host's, which SB_DOORBELL.GO latched; or the whole message of the
board management controller or of the fabric manager, header first, as it arrived. -/
inductive Submission where
  | host
  | bmc (med : Medium) (eid : Nat) (msg : List Byte)
  | fm (ident : Nat) (msg : List Byte)
deriving DecidableEq, Repr

/-- A packet of the fabric (11 R283): the header slot's virtual channel, destination, source and flow label, what it carries (`what` and its
other header fields `args`), the offset of its data within its transfer (R294), and its data slots of 64 bytes, of which `poison` lists
those flagged. The places of these fields in the header slot are not given (log entry 94). -/
structure Packet where
  vc : Nat
  dst : Nat
  src : Nat
  flow : Nat
  what : String := ""
  args : List Nat := []
  off : Nat := 0
  data : List Byte := []
  poison : List Nat := []
deriving DecidableEq, Repr

/-- What a collective packet is for: a member's entry into the request, data to be copied, a partial value of a reduction, a value of the
result, or the acknowledgement of a write (11 R303, R307, 10 R277). -/
inductive CollKind where
  | enter
  | data
  | part
  | final
  | ack
deriving DecidableEq, Repr

/-- The header of a packet between the members of a group: its kind, bits [255:0] of the sender's request, the chunk, the level and first rank
of a node of the reduction (of data: `first` is the rank whose block it is), the offset in its transfer, and the conversion events of a value. -/
structure CollHead where
  kind : CollKind
  hdr : BitVec 256 := 0
  chunk : Nat := 0
  level : Nat := 0
  first : Nat := 0
  off : Nat := 0
  ev : BitVec 5 := 0
deriving DecidableEq, Repr

/-- A packet between the members of a group: its header, the data, and the flagged data slots. -/
structure CollPkt extends CollHead where
  data : List Byte := []
  poison : List Nat := []
deriving DecidableEq, Repr

/-- A packet and the port that it came in on. -/
structure Arrived where
  port : Nat
  packet : Packet
deriving DecidableEq, Repr

/-- Who asks for a codeword again (11 R284): the partner, with the lanes that a diagnosis would find bad, or this device's own receiver, which
found the codeword uncorrectable. -/
inductive Replay where
  | partner (bad : BitVec 8)
  | own
deriving DecidableEq, Repr

/-- What a member's formation record is (11 R299): its own record, its answer to this device's record, or a refusal. -/
inductive RecordKind where
  | record
  | answer
  | refusal
deriving DecidableEq, Repr

/-- An atomic that another device asks for (10 R276): the tag that its result carries back, the 256 bits of its record, and their poison. -/
structure AtomAsk where
  tag : Nat
  record : BitVec 256
  poison : Bool := false
deriving DecidableEq, Repr

/-- The old value that the owner of a remote atomic returns (10 R276), and its poison. -/
structure AtomOld where
  old : BitVec 64
  poison : Bool := false
deriving DecidableEq, Repr

/-- What a buddy device sent for one pair of SESS ADOPT (13 R349): none when it holds no copy. -/
structure AdoptCopy where
  held : Bool
  model : BitVec 64
  entry : List Byte
  log : List Nat
deriving DecidableEq, Repr

/-- What the tests of one start find (15 R390 to R395): outcomes of the silicon, so operands (log entry 4). A unit is named
by its kind (0 core, 1 slice, 2 channel, 4 port, 5 stack, 6 quadrant fabric, 7 bridge half, 8 PCIe or always-on domain)
and number. ramOk is false where a read of Ifewin's RAM before its first write reports an error (12 R323). -/
structure StartFindings where
  checkerFailed : List (Nat × Nat)
  testFailed : List (Nat × Nat)
  retrained : List Nat
  ms : Nat
  comparatorOk : Bool
  watchdogsOk : Bool
  poweredStacks : Bool
  bootOnly : Bool := false
  ramOk : Bool := true
deriving DecidableEq, Repr

/-- The commands, in the order of the opcode table. -/
inductive Instr where
  /-- MATMUL (R151). The Matrix Engine multiplies A and B blocks into output tiles, reducing each tile by chunks, segments and the R51 tree. -/
  | matmul (core : Nat)
  /-- ELTWISE (R154). The Vector Engine computes an elementwise operation in FP32 over the points of its loop records and converts each result once. -/
  | eltwise (core : Nat)
  /-- REDUCE (R155). The Vector Engine reduces groups of points by SUM, SUMSQ, DOT, MAX or MIN into FP32 results. -/
  | reduce (core : Nat)
  /-- COMBINE (R135). The Vector Engine joins SCU partial records by the tree of R136 and applies the final step of their kind. -/
  | combine (core : Nat)
  /-- MOVE (R158). The Move Engine copies runs of bytes from source points to destination points, as a gather or scatter when a block-coordinate list is named. -/
  | move (core : Nat)
  /-- DISPATCH (R159). The Move Engine checks and sends a batch of SCU command records with their vector data to the target stacks. -/
  | dispatch (core : Nat)
  /-- DISPATCH_WAIT (R89). A dispatch held at the head of the Move Engine queue by a full SCU resumes sending once the SCU frees space. -/
  | dispatchWait (core : Nat)
  /-- CMO (R160). The Move Engine translates a range and has the shared cache flush, flush-invalidate or invalidate it. -/
  | cmo (core : Nat)
  /-- ATOMIC (R161). The Move Engine issues atomic operations on target elements in point order, returning old values where asked. -/
  | atomic (core : Nat)
  /-- LAYOUT (R162). The Turntable copies one element per point from source to destination, permuting layout. -/
  | layout (core : Nat)
  /-- SCALE_EXPAND (R162). The Turntable reads one scale per source point and writes it as FP32 to REPEAT destination points. -/
  | scaleExpand (core : Nat)
  /-- SYNC (R146). An engine's SYNC command waits, completes and increments without doing work. -/
  | sync (core : Nat) (queue : Nat)
  /-- HALT_NOTICE (R139). A core receives notice that another core of its kernel halted and halts its queues at command boundaries, recording 0x1140. -/
  | haltNotice (core : Nat)
  /-- HALT_COMPLETE (R139). Once every running command and dispatched SCU command of a halting kernel has ended, the state is frozen and the partition goes to Halted. -/
  | haltComplete (part : Nat)
  /-- SB_TIMEOUT (R127). A head command or blocked control core that has waited longer than the image's wait limit halts with 0x1113. -/
  | sbTimeout (core : Nat) (unit : Nat)
  /-- STOP_COUNT (R179). A core that made STOP_N pushes halts with 0x0110 once its engines have drained its queues. -/
  | stopCount (core : Nat)
  /-- BANK_STATE_EFFECT (R80). A core-store bank-state change takes effect after every earlier command has completed, filling a bank returning from Off. -/
  | bankStateEffect (core : Nat)
  /-- PUSH_RESUMES (R119). A control core stalled on a full queue pushes its command when an entry frees. -/
  | pushResumes (core : Nat)
  /-- WAIT_RESUMES (R125). A control core blocked by WAIT resumes within 4 cycles once the counter reaches its target. -/
  | waitResumes (core : Nat)
  /-- ALU (R167). The control core computes a register-register operation selected by FUNC. -/
  | alu (core : Nat)
  /-- ADDI (R166). The control core adds a sign-extended immediate to a register. -/
  | addi (core : Nat)
  /-- ANDI (R166). The control core ANDs a register with a zero-extended immediate. -/
  | andi (core : Nat)
  /-- ORI (R166). The control core ORs a register with a zero-extended immediate. -/
  | ori (core : Nat)
  /-- XORI (R166). The control core XORs a register with a zero-extended immediate. -/
  | xori (core : Nat)
  /-- SHLI (R166). The control core shifts a register left by an immediate amount. -/
  | shli (core : Nat)
  /-- SHRI (R166). The control core shifts a register right logically by an immediate amount. -/
  | shri (core : Nat)
  /-- SARI (R166). The control core shifts a register right arithmetically by an immediate amount. -/
  | sari (core : Nat)
  /-- SLTI (R166). The control core sets a register to 1 when a register is below a signed immediate. -/
  | slti (core : Nat)
  /-- MOVZ (R166). The control core loads a shifted 16-bit immediate into a register, zeroing the rest. -/
  | movz (core : Nat)
  /-- MOVK (R166). The control core inserts a 16-bit immediate into one quarter of a register. -/
  | movk (core : Nat)
  /-- LDC (R166). The control core loads 64 bits from control memory. -/
  | ldc (core : Nat)
  /-- STC (R166). The control core stores 64 bits to control memory. -/
  | stc (core : Nat)
  /-- LDS (R166). The control core loads 64 bits from its core store. -/
  | lds (core : Nat)
  /-- STS (R166). The control core stores 64 bits to its core store. -/
  | sts (core : Nat)
  /-- BEQ (R166). The control core branches when two registers are equal. -/
  | beq (core : Nat)
  /-- BNE (R166). The control core branches when two registers differ. -/
  | bne (core : Nat)
  /-- BLT (R166). The control core branches when one register is below another, signed. -/
  | blt (core : Nat)
  /-- BGE (R166). The control core branches when one register is at or above another, signed. -/
  | bge (core : Nat)
  /-- BLTU (R166). The control core branches when one register is below another, unsigned. -/
  | bltu (core : Nat)
  /-- BGEU (R166). The control core branches when one register is at or above another, unsigned. -/
  | bgeu (core : Nat)
  /-- JAL (R166). The control core jumps relative to the PC and links the return address. -/
  | jal (core : Nat)
  /-- JALR (R166). The control core jumps to a register plus offset and links the return address. -/
  | jalr (core : Nat)
  /-- TPL (R166). The control core loads a command template into the push register. -/
  | tpl (core : Nat)
  /-- PSET (R166). The control core sets one word of the push register. -/
  | pset (core : Nat)
  /-- PINS (R166). The control core inserts a register field into the push register. -/
  | pins (core : Nat)
  /-- PADD (R166). The control core adds a register to a field of the push register modulo its width. -/
  | padd (core : Nat)
  /-- PUSH (R163). The control core checks the command header and pushes the push register into an engine queue. -/
  | push (core : Nat)
  /-- WAIT (R166). The control core blocks until a scoreboard counter reaches a value. -/
  | wait (core : Nat)
  /-- INCR (R166). The control core adds an amount to a local or remote scoreboard counter. -/
  | incr (core : Nat)
  /-- SLOT (R166). The control core reads a queue's completion word into a register. -/
  | slot (core : Nat)
  /-- BANK (R166). The control core requests a state change for a mask of core-store banks. -/
  | bank (core : Nat)
  /-- ID (R168). The control core reads an identity or time value selected by an immediate. -/
  | idSel (core : Nat)
  /-- MAPCH (R166). The control core reads the physical channel bound to a logical channel. -/
  | mapch (core : Nat)
  /-- END (R175). The control core ends this core's part of the kernel once its queues are empty. -/
  | endPart (core : Nat)
  /-- INSN_UNDEF (R169). An instruction with an undefined opcode or FUNC halts the control core with 0x1120. -/
  | insnUndef (core : Nat)
  /-- GEMV (R95). An SCU computes GEMV or batched GEMV over its weight shard and writes FP32 results. -/
  | gemv (chan : Nat)
  /-- ATTN (R98). An SCU computes decode attention over its KV pages and writes per-block records. -/
  | attn (chan : Nat)
  /-- GATHER (R100). An SCU gathers and reduces table rows by bag and writes records. -/
  | gather (chan : Nat)
  /-- SCU_COPY (R101). An SCU copies lines within its channel. -/
  | scuCopy (chan : Nat)
  /-- SCU_FILL (R101). An SCU fills lines with a 64-byte pattern. -/
  | scuFill (chan : Nat)
  /-- SCU_CONVERT (R102). An SCU scales and converts elements or whole KV pages. -/
  | scuConvert (chan : Nat)
  /-- SCU_ELEM (R103). An SCU computes an elementwise operation over two planes. -/
  | scuElem (chan : Nat)
  /-- SCU_STATUS (R104). An SCU writes its status record once and raises its ready bit. -/
  | scuStatus (chan : Nat)
  /-- SCU_FENCE (R104). An SCU completes after every earlier accepted command and then writes its status. -/
  | scuFence (chan : Nat)
  /-- REFRESH (R107). A channel owes a refresh, pauses the sweep and refreshes all banks. -/
  | refresh (chan : Nat)
  /-- STEP_LAUNCH (R250). The Dispatcher builds a step, allocates pages, charges budgets, writes the Timetable and launches the kernel. -/
  | stepLaunch (part : Nat)
  /-- KERNEL_END (R268). A kernel ends once every core reached END, every SCU command and collective completed and every write is performed. -/
  | kernelEnd (part : Nat)
  /-- POINTS_DECIDE (R255). A Points lane decides a token from a logits row, appends it to the log and posts a completion entry. -/
  | pointsDecide (part : Nat)
  /-- EPOCH_REFILL (R249). At each 1 ms epoch every tenant's balance is refilled by RATE up to BURST. -/
  | epochRefill
  /-- TURN (R241). The Dispatcher examines a TURN submission entry and opens a request on the session. -/
  | turn (ring : Nat)
  /-- CANCEL (R241). The Dispatcher examines a CANCEL entry and ends the session's open request at the end of the step. -/
  | cancel (ring : Nat)
  /-- IRQ_TIME (R244). When IRQ_TIME has passed since the first unsignalled entry, the ring's MSI-X message is sent. -/
  | irqTime (ring : Nat)
  /-- STEP_OVERRUN (R342). A step running longer than STEP_LIMIT makes the Dispatcher abort the partition with 0x4122. -/
  | stepOverrun (part : Nat)
  /-- CORE_ISOLATED (R342). A core that has not emptied its queues within the abort bound is switched off and reported Absent. -/
  | coreIsolated (core : Nat)
  /-- SUBMISSION_DOORBELL (R435). A host doorbell write to a submission ring updates the held PRODUCED value, is ignored, or puts the ring in Error. -/
  | submissionDoorbell (fn : Nat) (ring : Nat) (whole : Bool) (v : BitVec 32) (hi : BitVec 32)
  /-- COMPLETION_DOORBELL (R435). A host doorbell write to a completion ring returns entries by advancing CONSUMED, or is ignored or errors. -/
  | completionDoorbell (fn : Nat) (ring : Nat) (whole : Bool) (v : BitVec 32) (hi : BitVec 32)
  /-- HOST_FLUSH (R436). SV_CMO_GO with OP 0 checks the range and starts a FLUSH of it. -/
  | hostFlush (fn : Nat) (tag : BitVec 32) (rsv : BitVec 30)
  /-- HOST_FLUSH_INV (R436). SV_CMO_GO with OP 1 checks the range and starts a FLUSH_INV of it. -/
  | hostFlushInv (fn : Nat) (tag : BitVec 32) (rsv : BitVec 30)
  /-- HOST_INV (R436). SV_CMO_GO with OP 2 checks the range and starts an INV of it. -/
  | hostInv (fn : Nat) (tag : BitVec 32) (rsv : BitVec 30)
  /-- CMO_DONE (R436). A host cache-maintenance operation completes, writes its counts and sets CMO_DONE. -/
  | cmoDone (fn : Nat)
  /-- BAR4_WRITE (R423). A host write through BAR4 is checked and merged into the owning slice. -/
  | bar4Write (fn : Nat) (off : Nat) (data : List Byte) (ep : Bool)
  /-- BAR4_READ (R423). A host read through BAR4 is checked and returns the line from the owning slice or stack. -/
  | bar4Read (fn : Nat) (off : Nat) (len : Nat)
  /-- HI_IMASK_WRITE (R427). A write to HI_IMASK masks or unmasks flags and sends a message for a set flag it unmasks. -/
  | hiImaskWrite (fn : Nat) (v : BitVec 32)
  /-- REGISTER_WRITE (R9). A host write to any other register takes effect under its access code, clearing W1C flags or setting RSV_WRITE. -/
  | registerWrite (fn : Nat) (bar : Nat) (off : Nat) (size : Nat) (v : BitVec 64)
  /-- FLR (R422). A function level reset of a VF errors its rings, cancels its requests and resets its host-facing state. -/
  | flr (fn : Nat)
  /-- VF_ENABLE_CLEAR (R422). Clearing VF Enable acts as a function level reset on every VF. -/
  | vfEnableClear
  /-- OWN_STATUS (R376). Returns the ownership state, the master's flags, POLICY and counters. -/
  | ownStatus (sub : Submission)
  /-- CLAIM (R371). A master claims ownership from the Interlocking. -/
  | claim (sub : Submission)
  /-- RENEW (R373). The owner renews its lease. -/
  | renew (sub : Submission)
  /-- HANDOVER (R371). The owner offers ownership to another master kind or withdraws an offer. -/
  | handover (sub : Submission)
  /-- RELEASE (R371). The owner releases ownership. -/
  | release (sub : Submission)
  /-- OWN_CLEAR (R370). A master clears its own status flags by mask. -/
  | ownClear (sub : Submission)
  /-- POLICY (R372). The owner sets claim priority and fabric-manager rights. -/
  | policy (sub : Submission)
  /-- OWN_RESET (R376). The owner resets the whole device warm or cold, draining first with FORCE. -/
  | ownReset (sub : Submission)
  /-- LEASE_WARN (R369). When 1 s or less of the owner's lease remains, LEASE_WARN is set for it. -/
  | leaseWarn
  /-- LEASE_EXPIRED (R373). The owner's lease runs out and the Interlocking becomes Unowned. -/
  | leaseExpired
  /-- HANDOVER_TIMEOUT (R371). An offer unclaimed for 1 s lapses and the owner keeps ownership. -/
  | handoverTimeout
  /-- PART_CREATE (R377). Creates an Empty partition with the given cores, slices and channels. -/
  | partCreate (sub : Submission)
  /-- PART_UNITS (R377). Changes an Empty or Drained partition's units. -/
  | partUnits (sub : Submission)
  /-- PART_DESTROY (R377). Destroys an Empty partition owning no page. -/
  | partDestroy (sub : Submission)
  /-- PARAM (R378). Sets one serving parameter or area of a partition. -/
  | param (sub : Submission)
  /-- SHARE (R105). Sets a channel's ordinary-traffic share. -/
  | share (sub : Submission)
  /-- ROW_MODE (R64). Changes a frame row between Spread and Pinned and fills it. -/
  | rowMode (sub : Submission)
  /-- PAGES (R377). Takes free pages for a partition or returns owned pages for filling. -/
  | pages (sub : Submission)
  /-- PAGE_FREED (R462). A returned page's drop and zero fill complete and the page becomes free. -/
  | pageFreed (page : Nat)
  /-- MAP (R195). Installs page-table entries for a partition, all or nothing. -/
  | map (sub : Submission)
  /-- UNMAP (R377). Starts removal of page-table entries as a long operation. -/
  | unmap (sub : Submission)
  /-- UNMAP_DONE (R198). Once no kernel runs and every SCU command completed, the entries are removed and translation caches emptied. -/
  | unmapDone (part : Nat)
  /-- KV_POOL (R211). Adds pages to or removes pages from a partition's KV pool. -/
  | kvPool (sub : Submission)
  /-- PART_START (R343). Starts a Drained partition, choosing the largest fitting image. -/
  | partStart (sub : Submission)
  /-- PART_DRAIN (R247). Starts draining a partition in WAIT or CUT mode. -/
  | partDrain (sub : Submission)
  /-- DRAIN_DONE (R247). When no step runs and no SCU command is outstanding, the partition becomes Drained and pending map-outs proceed. -/
  | drainDone (part : Nat)
  /-- PART_RESUME (R141). Returns a Halted partition to Serving. -/
  | partResume (sub : Submission)
  /-- PART_ABORT (R142). Aborts a partition: engines and SCUs stop, queues empty and the partition goes to Halted. -/
  | partAbort (sub : Submission)
  /-- PART_STATUS (R377). Returns a partition summary, halt records or step records. -/
  | partStatus (sub : Submission)
  /-- MODEL_LOAD (R379). Checks KV geometry and starts loading up to four images into an Empty partition. -/
  | modelLoad (sub : Submission)
  /-- MODEL_LOAD_DONE (R174). The images are checked, relocated and bound, and the partition becomes Drained or the load is rejected. -/
  | modelLoadDone (part : Nat) (weights : List Nat)
  /-- MODEL_UNLOAD (R379). Unloads a partition's model when every session is Free. -/
  | modelUnload (sub : Submission)
  /-- RETAIN (R67). Sets or clears the Retained attribute of pages. -/
  | retain (sub : Submission)
  /-- MODEL_MIRROR (R338). Starts pairing or clearing weight-page mirrors as a long operation. -/
  | modelMirror (sub : Submission)
  /-- MIRROR_DONE (R338). The primaries are copied into their mirrors and the pairing completes. -/
  | mirrorDone (part : Nat)
  /-- RELOADED (R339). The host confirms a rewritten weight page and the partition resumes. -/
  | reloaded (sub : Submission)
  /-- MODEL_INFO (R379). Returns a partition's accepted LOAD payload. -/
  | modelInfo (sub : Submission)
  /-- TEN_SET (R249). Sets a tenant's rate, burst, default slack and KV guarantee. -/
  | tenSet (sub : Submission)
  /-- RING_CREATE (R238). Creates or replaces a disabled ring's attributes. -/
  | ringCreate (sub : Submission)
  /-- RING_ENABLE (R380). Enables a ring with its counts at 0. -/
  | ringEnable (sub : Submission)
  /-- RING_DISABLE (R380). Disables a ring. -/
  | ringDisable (sub : Submission)
  /-- RING_DESTROY (R380). Destroys a disabled ring. -/
  | ringDestroy (sub : Submission)
  /-- TEN_STATUS (R380). Returns a tenant's settings and balance, or a ring's attributes and state. -/
  | tenStatus (sub : Submission)
  /-- SESS_OPEN (R381). Opens a Free session, allocating its log, penalty table and directory. -/
  | sessOpen (sub : Submission)
  /-- SETTINGS (R234). Sets a session's sampling and speculation settings. -/
  | settings (sub : Submission)
  /-- SESS_CLOSE (R235). Closes a session and clears its pages. -/
  | sessClose (sub : Submission)
  /-- SESS_READ (R381). Returns a session's entry with COMMITTED and KEEP. -/
  | sessRead (sub : Submission)
  /-- SESS_LOG (R381). Returns entries of a session's token log. -/
  | sessLog (sub : Submission)
  /-- ADOPT (R349). Starts adopting mirrored sessions from a buddy into local Free sessions. -/
  | adopt (sub : Submission)
  /-- ADOPT_DONE (R349). The copies are fetched and written and the adopted sessions become Sided. -/
  | adoptDone (op : Nat) (copies : List AdoptCopy)
  /-- FLOORPLAN (R398). Returns a piece of the floor-plan report. -/
  | floorplan (sub : Submission)
  /-- SENSORS (R417). Returns thermal and power records selected by WHAT. -/
  | sensors (sub : Submission)
  /-- TEL_EVENTS (R382). Returns records from the master's event queue. -/
  | telEvents (sub : Submission)
  /-- POWER_LIMIT (R409). Sets the package power limit for the next tick. -/
  | powerLimit (sub : Submission)
  /-- INT_RECORDS (R383). Returns error records. -/
  | intRecords (sub : Submission)
  /-- CHK_MODE (R324). Sets the checker test mode. -/
  | chkMode (sub : Submission)
  /-- MAPOUT (R383). Starts a map-out of a core, slice or channel. -/
  | mapout (sub : Submission)
  /-- MAPOUT_PROCEED (R83). Once no page homed on the channel is owned and a free Spread row exists, Ifewin re-lays the Spread rows and marks the channel Absent. -/
  | mapoutProceed (chan : Nat)
  /-- SPARES (R383). Returns the spare rows taken in each bank of a channel. -/
  | spares (sub : Submission)
  /-- FW_INFO (R384). Returns running, staged and fallback firmware versions and levels. -/
  | fwInfo (sub : Submission)
  /-- STAGE_WRITE (R384). Writes bytes of a staged Ifewin image. -/
  | stageWrite (sub : Submission)
  /-- STAGE_VERIFY (R440). Starts verification of the staged image's signature. -/
  | stageVerify (sub : Submission)
  /-- STAGE_VERIFY_DONE (R440). The staged image verification ends, setting VERIFIED or giving 0x5212. -/
  | stageVerifyDone
  /-- ACTIVATE (R356). Activates the staged image by a warm start, draining with FORCE. -/
  | activate (sub : Submission)
  /-- FAB_IDENTITY (R290). Assigns the device's fabric identity. -/
  | fabIdentity (sub : Submission)
  /-- ROUTE (R293). Writes routing-table entries, all or nothing. -/
  | route (sub : Submission)
  /-- FAB_TIME (R311). Names the device time master or backup and optionally sets its time. -/
  | fabTime (sub : Submission)
  /-- FAB_PORT (R385). Enables or disables a Junction port. -/
  | fabPort (sub : Submission)
  /-- BUDDY (R346). Sets or clears a partition's buddy device and watches it. -/
  | buddy (sub : Submission)
  /-- GRANT (R346). Grants or releases a mirror region for a partition of another device. -/
  | grant (sub : Submission)
  /-- GROUP_FORM (R299). Accepts a part of a group's member list and starts formation when complete. -/
  | groupForm (sub : Submission)
  /-- GROUP_RELEASE (R300). Releases a group. -/
  | groupRelease (sub : Submission)
  /-- FAB_STATUS (R385). Returns port, group or time status. -/
  | fabStatus (sub : Submission)
  /-- FAB_EVENTS (R385). Returns fabric event records. -/
  | fabEvents (sub : Submission)
  /-- DIAG_LAUNCH (R386). Launches a diagnostic kernel with a stop count in a Drained partition. -/
  | diagLaunch (sub : Submission)
  /-- READ_STORE (R386). Returns bytes of a halted or drained core's store. -/
  | readStore (sub : Submission)
  /-- READ_SCOREBOARD (R386). Returns a core's counters and completion slots. -/
  | readScoreboard (sub : Submission)
  /-- INJECT (R326). Writes data and check bits given separately into a drained unit. -/
  | inject (sub : Submission)
  /-- RAW_READ (R386). Returns raw data, check bits and decoder outcome of a location. -/
  | rawRead (sub : Submission)
  /-- DIAG_DOMAIN (R386). Switches a free unit's power domain under the domain order. -/
  | diagDomain (sub : Submission)
  /-- MGMT_REQUEST_DISCARD (R361). A management-channel request whose packets are not complete within 1 ms is discarded and counted. -/
  | mgmtRequestDiscard (ident : Nat)
  /-- SET_ENDPOINT_ID (R437). MCTP control command setting the endpoint ID. -/
  | setEndpointId (via : Via) (op : Nat) (eid : Nat)
  /-- GET_ENDPOINT_ID (R437). MCTP control command returning the endpoint ID. -/
  | getEndpointId (via : Via)
  /-- GET_ENDPOINT_UUID (R437). MCTP control command returning the endpoint UUID. -/
  | getEndpointUuid (via : Via)
  /-- GET_MCTP_VERSION_SUPPORT (R437). MCTP control command returning supported versions. -/
  | getMctpVersionSupport (via : Via) (msgType : Nat)
  /-- GET_MESSAGE_TYPE_SUPPORT (R437). MCTP control command returning supported message types. -/
  | getMessageTypeSupport (via : Via)
  /-- GET_VENDOR_DEFINED_MESSAGE_SUPPORT (R437). MCTP control command returning vendor-defined message support. -/
  | getVendorDefinedMessageSupport (via : Via) (selector : Nat)
  /-- I3C_DYNAMIC_ADDRESS (R437). An I3C controller assigns a dynamic address and the port enters I3C mode. -/
  | i3cDynamicAddress (entdaa : Bool) (static : Nat) (addr : Nat)
  /-- SMBUS_LINE_TIMEOUT (R442). SCL or SDA held low for more than 35 ms resets the port's protocol state. -/
  | smbusLineTimeout
  /-- GET_VERSION (R439). SPDM request returning supported versions. -/
  | getVersion (via : Via)
  /-- GET_CAPABILITIES (R439). SPDM request returning capabilities. -/
  | getCapabilities (via : Via) (ver : Nat)
  /-- NEGOTIATE_ALGORITHMS (R439). SPDM request negotiating P-384 and SHA-384. -/
  | negotiateAlgorithms (via : Via) (asym : BitVec 32) (hash : BitVec 32)
  /-- GET_DIGESTS (R439). SPDM request returning certificate digests. -/
  | getDigests (via : Via)
  /-- GET_CERTIFICATE (R439). SPDM request returning the slot 0 certificate chain. -/
  | getCertificate (via : Via) (slot : Nat) (off : Nat) (len : Nat)
  /-- CHALLENGE (R439). SPDM challenge answered with a signature. -/
  | challenge (via : Via) (slot : Nat) (nonce : List Byte)
  /-- GET_MEASUREMENTS (R439). SPDM request returning signed measurements. -/
  | getMeasurements (via : Via) (index : Nat) (nonce : List Byte)
  /-- PORT_SIGNAL_DETECT (R286). An enabled port not Up checks for signal every 1 s and trains when it finds one. -/
  | portSignalDetect (port : Nat) (lanes : BitVec 8)
  /-- TRAIN_FAILED (R286). A training step exceeds its bound and the port goes Down with 0x3101. -/
  | trainFailed (port : Nat) (step : Nat)
  /-- LANE_BAD (R289). A bad lane makes the port restripe to a narrower width or go Down. -/
  | laneBad (port : Nat) (lane : Nat)
  /-- LANE_RETRAIN (R289). Every 10 s a narrowed port retrains its bad lanes and widens when enough pass. -/
  | laneRetrain (port : Nat) (pass : BitVec 8)
  /-- CODEWORD_REPLAY (R284). A request for an uncorrectable codeword makes the sender replay from it. -/
  | codewordReplay (port : Nat) (seq : Nat) (ask : Replay)
  /-- LINK_KEEPALIVE (R291). Every 100 µs an Up port sends a link keepalive. -/
  | linkKeepalive (port : Nat)
  /-- PEER_KEEPALIVE (R291). Every 100 µs the device sends each watched peer an end-to-end keepalive. -/
  | peerKeepalive
  /-- PEER_DEAD (R291). A watched peer silent for 64 intervals is declared dead and notices are sent. -/
  | peerDead (peer : Nat)
  /-- PEER_DEAD_NOTICE (R291). A received dead-peer notice breaks shared groups and is forwarded to group neighbours. -/
  | peerDeadNotice (dead : Nat) (src : Nat)
  /-- DEPARTURE_NOTICE (R292). A received departure notice makes its sender departed at once. -/
  | departureNotice (src : Nat)
  /-- ABANDON_NOTICE (R310). A received collective-abandon notice breaks the named groups and ends their requests with 0x3131. -/
  | abandonNotice (src : Nat) (keys : List Nat)
  /-- PACKET_FORWARD (R295). A packet for another device is forwarded by the routing table or NACKed. -/
  | packetForward (pkt : Arrived)
  /-- NACK (R295). A transit NACK returns and the request that sent the packet ends with 0x3110. -/
  | nack (part : Nat) (q : Nat)
  /-- TIME_EXCHANGE (R311). Every 100 µs the ends of a link exchange timestamps and the device corrects its fabric time. -/
  | timeExchange (port : Nat) (stratum : Nat) (ident : Nat) (offset : Int) (delay : Nat)
  /-- HOLDOVER (R312). No exchange from a lower stratum for 10 ms puts the device in Holdover, unless it becomes the master (R311). -/
  | holdover
  /-- GROUP_FORMATION_RECORD (R299). A formation record from a member arrives and the group becomes Formed when all agree. -/
  | groupFormationRecord (group : Nat) (rank : Nat) (key : BitVec 64) (members : List (Nat × Nat)) (ordered : Bool) (levels : BitVec 16) (kind : RecordKind)
  /-- GROUP_TIMEOUT (R299). A group not Formed within its timeout is refused with 0x3122. -/
  | groupTimeout (group : Nat)
  /-- ALL_REDUCE (R306). A collective reducing COUNT elements over all ranks into every rank. -/
  | allReduce (part : Nat)
  /-- REDUCE_SCATTER (R306). A collective reducing and leaving block k at rank k. -/
  | reduceScatter (part : Nat)
  /-- ALL_GATHER (R306). A collective gathering every rank's block into every rank. -/
  | allGather (part : Nat)
  /-- ALL_TO_ALL (R306). A collective exchanging blocks between every pair of ranks. -/
  | allToAll (part : Nat)
  /-- BROADCAST (R306). A collective copying the root's bytes to every rank. -/
  | broadcast (part : Nat)
  /-- BARRIER (R278). A collective that completes when all earlier remote writes of the group are performed. -/
  | barrier (part : Nat)
  /-- REMOTE_ATOMIC (R276). A request sending atomic records to an owning device. -/
  | remoteAtomic (part : Nat)
  /-- COLLECTIVE_PACKET_ARRIVAL (R277). Collective data from a member arrives and is written locally: the local number of the group that the
  packet's key names, which of its collective requests it is for (R303), and the sender's rank. -/
  | collectivePacketArrival (group : Nat) (k : Nat) (rank : Nat) (head : CollHead) (data : List Byte) (poison : List Nat)
  /-- REMOTE_ATOMIC_ARRIVAL (R276). The owner translates, checks and performs a remote atomic and returns the old value. -/
  | remoteAtomicArrival (src : Nat) (flow : Nat) (part : Nat) (ask : AtomAsk)
  /-- COLLECTIVE_COMPLETE (R304). A collective request completes, writes its record, advances DONE and increments its counter. -/
  | collectiveComplete (part : Nat) (q : Nat)
  /-- MIRROR_ENTRIES_ARRIVAL (R347). A buddy writes received log entries into its mirror region and acknowledges them. -/
  | mirrorEntriesArrival (src : Nat) (spart : Nat) (session : Nat) (model : BitVec 64) (settings : List Byte) (frm : Nat) (toks : List Nat) (closed : Bool)
  /-- BUDDY_ACK (R347). A buddy acknowledgement arrives and held postings of mirrored sessions proceed. -/
  | buddyAck (part : Nat) (session : Nat) (upTo : Nat)
  /-- MIRROR_ACK_TIMEOUT (R348). No acknowledgement within 1 ms makes the partition's mirrored sessions Unprotected. -/
  | mirrorAckTimeout (part : Nat)
  /-- BUDDY_SYNCED (R348). Every mirrored session is copied to the new buddy and postings wait again. -/
  | buddySynced (part : Nat)
  /-- PATROL_SCRUB (R327). A stack controller reads its next line of the daily scrub. -/
  | patrolScrub (chan : Nat)
  /-- CORRECTIVE_WRITE_BACK (R327). A queued write-back of a corrected line is written unless a newer write cancelled it. -/
  | correctiveWriteBack (chan : Nat)
  /-- BACKGROUND_TEST (R328). A slice saves, march-tests and restores one set. -/
  | backgroundTest (slice : Nat) (bad : List Nat)
  /-- TARGETED_TEST (R329). The place of an error is tested, classed, and spared or mapped out. -/
  | targetedTest (kind : Nat) (unit : Nat) (fails : Bool)
  /-- WEIGHT_REPAIR (R339). After the running step ends, a poisoned weight page is restored from its mirror or reload is requested. -/
  | weightRepair (part : Nat)
  /-- KV_PAGE_FREED (R213). A released KV page finishes its zero fill and enters the free pool. -/
  | kvPageFreed (part : Nat) (page : Nat)
  /-- CHANNEL_FAILURE (R84). A channel fails without warning, its lines read poisoned and its Spread rows are re-laid. -/
  | channelFailure (chan : Nat)
  /-- BRIDGE_LANE_FAULT (R17). A bridge lane fails and a spare replaces it, or the device fails. -/
  | bridgeLaneFault (half : Nat)
  /-- POWER_SAMPLE (R403). Every 10 µs domain currents are sampled and the clamp acts when power exceeds the limit. -/
  | powerSample (mw : List Nat)
  /-- THERMAL_MODEL_UPDATE (R404). Every 10 µs the thermal model updates node temperatures from measured power. -/
  | thermalModelUpdate
  /-- DIODE_CHECK (R405). Every 1 ms diodes are compared with the model and neighbours and model offsets are corrected. -/
  | diodeCheck (readings : List Int)
  /-- DUTY_TICK (R410). Every 1 ms each group's duty is lowered for heat or power or restored by one step. -/
  | dutyTick
  /-- CLAMP_RELEASE (R411). After stepped duties alone kept power within 0.95 of the limit for 1 ms the clamp is released. -/
  | clampRelease
  /-- GROUP_AT_FLOOR (R410). A group hot at d = 0.20 for 100 ms is reported with 0x6220. -/
  | groupAtFloor (group : Nat)
  /-- POWER_BRAKE (R412). PWRBRK_N asserted sends every group to d = 0.20. -/
  | powerBrake
  /-- POWER_BRAKE_RELEASE (R412). PWRBRK_N released lets groups rise under the duty ticks. -/
  | powerBrakeRelease
  /-- THERMTRIP (R415). A trip comparator fires twice, asserting THERMTRIP_N and switching off every domain but always-on. -/
  | thermtrip (diode : Nat) (first : Int) (second : Int)
  /-- PIN_SAMPLE (R442). Every 10 µs open-drain outputs are sampled and a pin read high while driven low is reported. -/
  | pinSample (high : BitVec 5)
  /-- SUPPLY_LOSS (R451). A rail below 90 % or a missing reference switches off every domain but always-on. -/
  | supplyLoss (aon : Bool)
  /-- PERST_N_ASSERT (R353). PERST_N asserted resets the whole device, followed by a cold start. -/
  | perstNAssert
  /-- DEVICE_WATCHDOG_EXPIRY (R353). The device watchdog expires and the device resets into a warm start. -/
  | deviceWatchdogExpiry (flushDone : Bool)
  /-- START (R390). After reset release and good supplies the device runs the start sequence and writes the floor-plan report. -/
  | start (found : StartFindings)
  /-- SB_WATCHDOG_EXPIRY (R354). The Signal Box watchdog expires and Ifewin restarts from its boot ROM. -/
  | sbWatchdogExpiry
  /-- LOCKSTEP_MISMATCH (R354). A lockstep mismatch restarts Ifewin from its boot ROM. -/
  | lockstepMismatch
  /-- SB_RESTARTED (R354). Ifewin resumes after its restart and completes in-flight requests with 0x5231. -/
  | sbRestarted
  /-- SB_SELF_CHECK (R358). Once a second Ifewin tests a comparator group and the watchdogs, entering degraded mode on failure. -/
  | sbSelfCheck (comparatorOk : Bool) (watchdogsOk : Bool)
  /-- NEIGHBOUR_ARRIVED (R286). Training with the partner ends, and the port enters Up at its chosen width and level (or Incompatible or Conflict) and reports the arrival with the partner's neighbour record. -/
  | neighbourArrived (port : Nat) (good : BitVec 8) (rec : BitVec 256)
  /-- KEEPALIVE_RECEIVED (R291). An end-to-end keepalive from a watched peer arrives and restarts that peer's count toward the 64-interval dead declaration. -/
  | keepaliveReceived (peer : Nat)
  /-- REMOTE_ATOMIC_RESULT (R276). The result of a remote atomic returns to the issuing device on VC2, completing that point and writing the old value at DST_VA. -/
  | remoteAtomicResult (part : Nat) (q : Nat) (idx : Nat) (code : Nat) (back : AtomOld)
  /-- PCIE_LINK_DOWN (R441). The PCIe link goes down while PERST_N is deasserted, and WAKE_N is asserted when a host notification is pending. -/
  | pcieLinkDown
  /-- PCIE_LINK_L0 (R441). The PCIe link returns to L0 and WAKE_N is released. -/
  | pcieLinkL0
deriving DecidableEq, Repr

end Sys2Proof
end

