-- ==== Sys2Proof/Decode.lean ====
section
/-!
DEFINITION. The command that a word of table bits spells. No row of the opcode table gives bits, so no word spells a command (log
entry 10): the encodings that the spec does give (engine commands, instructions, SCU records, mailbox requests) are read where the
device itself reads them, in Machine/Operands.lean, Machine/Ctl.lean, Machine/Send.lean and Machine/Mailbox.lean.
-/

namespace Sys2Proof

/-- The command spelled by a word of nbits bits: none, since the table gives no row any bits. -/
def decodeTableWord (_ _ : Nat) : Option Instr := none

end Sys2Proof
end

