-- ==== Sys2Proof/Machine/Bits.lean ====
section
/-!
DEFINITION. Bit fields, byte order, sign extension, and the sparse map's operations: the helpers every other file reads
records, registers and memories with.
-/

namespace Sys2Proof.Machine

/-! ### Fields and bytes -/

/-- The field [hi:lo] of a number (00 R7). -/
def fld (x hi lo : Nat) : Nat := (x >>> lo) % 2 ^ (hi + 1 - lo)

/-- Bit i of a number. -/
def tbit (x i : Nat) : Bool := x.testBit i

/-- 1 for true. -/
def b2n (b : Bool) : Nat := if b then 1 else 0

/-- A number placed at bit lo of a record. -/
def put (v lo : Nat) : Nat := v <<< lo

/-- The w-bit two's complement value of x. -/
def sx (w x : Nat) : Int := let y := x % 2 ^ w; if y < 2 ^ (w - 1) then (y : Int) else (y : Int) - (2 : Int) ^ w

/-- x reduced to w bits, two's complement. -/
def wrap (w : Nat) (x : Int) : Nat := (x % ((2 : Int) ^ w)).toNat

/-- The n bytes of x, lowest first (00 R7: little-endian). -/
def leBytes : Nat → Nat → List Byte
  | _, 0 => []
  | x, n + 1 => BitVec.ofNat 8 x :: leBytes (x >>> 8) n

/-- The number whose little-endian bytes are given. -/
def ofLe : List Byte → Nat
  | [] => 0
  | b :: t => b.toNat + 256 * ofLe t

/-- The number whose big-endian bytes are given. -/
def ofBe (bs : List Byte) : Nat := bs.foldl (fun a b => a * 256 + b.toNat) 0

/-- The n bytes of x, highest first. -/
def beBytes (x n : Nat) : List Byte := (leBytes x n).reverse

/-- n bytes of a list from offset off; bytes beyond its end read 0. -/
def bytesAt (bs : List Byte) (off n : Nat) : List Byte :=
  let t := (bs.drop off).take n
  t ++ List.replicate (n - t.length) 0

/-- The little-endian number of n bytes at offset off. -/
def numAt (bs : List Byte) (off n : Nat) : Nat := ofLe (bytesAt bs off n)

/-- A list cut or padded with zero bytes to n bytes. -/
def padTo (n : Nat) (bs : List Byte) : List Byte := bytesAt bs 0 n

/-- Every byte from offset off to off + n − 1 is 0. -/
def zeroAt (bs : List Byte) (off n : Nat) : Bool := (bytesAt bs off n).all (· == 0)

/-- Ceiling division. -/
def cdiv (a b : Nat) : Nat := (a + b - 1) / b

/-- The smallest code of a list of failed checks (06 R164: the lowest numbered code). -/
def lowest : List Code → Option Code
  | [] => none
  | c :: t => match lowest t with
    | none => some c
    | some d => some (min c d)

/-- The check gives code c when the condition b holds. -/
def when_ (b : Bool) (c : Code) : List Code := if b then [c] else []

/-- The first failed check of an ordered list. -/
def firstFail : List (Bool × Code) → Option Code
  | [] => none
  | (b, c) :: t => if b then some c else firstFail t

/-- The numbers below n whose bit is set in x, ascending. -/
def bitsOf (n x : Nat) : List Nat := (List.range n).filter (fun i => tbit x i)

/-- The mask with the listed bits set. -/
def maskOf (l : List Nat) : Nat := l.foldl (fun a i => a ||| (1 <<< i)) 0

/-- The list without repeats, first occurrences kept. -/
def dedup : List Nat → List Nat
  | [] => []
  | x :: t => x :: (dedup t).filter (fun y => y != x)

/-- x is in the list. -/
def mem (x : Nat) (l : List Nat) : Bool := l.any (fun y => y == x)

/-- The position of x in the list. -/
def indexOf (x : Nat) : List Nat → Option Nat
  | [] => none
  | y :: t => if x = y then some 0 else (indexOf x t).map (· + 1)

/-- Sorted insertion under a comparison, after equal elements. -/
def insertBy {α : Type} (le : α → α → Bool) (x : α) : List α → List α
  | [] => [x]
  | y :: t => if le y x then y :: insertBy le x t else x :: y :: t

/-- Stable insertion sort. -/
def sortBy {α : Type} (le : α → α → Bool) (l : List α) : List α := l.foldl (fun acc x => insertBy le x acc) []

/-- The last n elements. -/
def lastN {α : Type} (n : Nat) (l : List α) : List α := l.drop (l.length - n)

/-- The pieces of n elements of a list, from the front (fuel is the number of pieces). -/
def pieces {α : Type} (n : Nat) : Nat → List α → List (List α)
  | 0, _ => []
  | k + 1, l => l.take n :: pieces n k (l.drop n)

/-- The pieces of n elements of a whole list, the last one short. -/
def chunksOf {α : Type} (n : Nat) (l : List α) : List (List α) := pieces n (cdiv l.length n) l

/-! ### Sparse maps -/

/-- The entry of key n, if listed. -/
def spGet? {α : Type} : Sp α → Nat → Option α
  | [], _ => none
  | (k, v) :: t, n => if k = n then some v else spGet? t n

/-- The value at key n: the entry, or the default. -/
def spGet {α : Type} (d : α) (m : Sp α) (n : Nat) : α := (spGet? m n).getD d

/-- The map with entry (n, v), keys kept rising. -/
def spPut {α : Type} : Sp α → Nat → α → Sp α
  | [], n, v => [(n, v)]
  | (k, w) :: t, n, v => if n < k then (n, v) :: (k, w) :: t else if n = k then (n, v) :: t else (k, w) :: spPut t n v

/-- The map without key n. -/
def spErase {α : Type} : Sp α → Nat → Sp α
  | [], _ => []
  | (k, w) :: t, n => if k = n then spErase t n else (k, w) :: spErase t n

/-- Writing v at key n; writing the default removes the entry, so that equal maps are equal lists. -/
def spSet {α : Type} [DecidableEq α] (d : α) (m : Sp α) (n : Nat) (v : α) : Sp α :=
  if v = d then spErase m n else spPut m n v

/-- Changing the value at key n. -/
def spMod {α : Type} [DecidableEq α] (d : α) (m : Sp α) (n : Nat) (f : α → α) : Sp α := spSet d m n (f (spGet d m n))

/-- The canonical form: keys strictly rising, no entry equal to the default. -/
def spWf {α : Type} [DecidableEq α] (d : α) : Sp α → Bool
  | [] => true
  | (k, v) :: t => decide (v ≠ d) && t.all (fun e => decide (k < e.1)) && spWf d t

/-- The bytes of n consecutive keys. -/
def spBytes (m : Sp Byte) (a : Nat) : Nat → List Byte
  | 0 => []
  | n + 1 => spGet 0 m a :: spBytes m (a + 1) n

/-- Bytes written at consecutive keys. -/
def spWrite (m : Sp Byte) (a : Nat) : List Byte → Sp Byte
  | [] => m
  | b :: t => spWrite (spSet 0 m a b) (a + 1) t

end Sys2Proof.Machine
end

