-- ==== Sys2Proof/Machine/Numeric.lean ====
section
/-!
DEFINITION. Number formats, conversion and ordered reduction (02): exact values, rounding, FP32 arithmetic, the function
unit, the conversions to every format, the shared scales, chunks, segments and trees.
-/

namespace Sys2Proof.Machine

/-- A value as the arithmetic of 02 sees it: NaN, an infinity, or (−1)^neg × m × 2^e exactly, keeping the sign of zero. -/
inductive Val where
  | nan
  | inf (neg : Bool)
  | num (neg : Bool) (m : Nat) (e : Int)
deriving DecidableEq, Repr

/-! ### Events (02 R47) -/

/-- A conversion event set. -/
abbrev Events := BitVec 5

def evOverflow : Events := 1
def evUnderflow : Events := 2
def evNan : Events := 4
def evInf : Events := 8
def evInt : Events := 16

/-- The events of reading a value: NAN_SEEN or INF_SEEN. -/
def readEv : Val → Events
  | .nan => evNan
  | .inf _ => evInf
  | _ => 0

def orEv (l : List Events) : Events := l.foldl (· ||| ·) 0

/-! ### Floating-point formats (02 R33, R34) -/

/-- How a format spends its top exponent. -/
inductive Special where
  | ieee
  | e4m3
  | none
deriving DecidableEq, Repr

/-- A floating-point layout. -/
structure FpFmt where
  ew : Nat
  mw : Nat
  bias : Nat
  sp : Special
deriving DecidableEq, Repr

def fp32 : FpFmt := ⟨8, 23, 127, .ieee⟩
def bf16 : FpFmt := ⟨8, 7, 127, .ieee⟩
def fp16 : FpFmt := ⟨5, 10, 15, .ieee⟩
def e5m2 : FpFmt := ⟨5, 2, 15, .ieee⟩
def e4m3 : FpFmt := ⟨4, 3, 7, .e4m3⟩
def e3m2 : FpFmt := ⟨3, 2, 3, .none⟩
def e2m3 : FpFmt := ⟨2, 3, 1, .none⟩
def e2m1 : FpFmt := ⟨2, 1, 1, .none⟩

/-- The bits of the infinity magnitude of an IEEE layout. -/
def FpFmt.infBits (f : FpFmt) : Nat := (2 ^ f.ew - 1) <<< f.mw

/-- The magnitude bits of the largest finite value. -/
def FpFmt.maxBits (f : FpFmt) : Nat :=
  match f.sp with
  | .ieee => f.infBits - 1
  | .e4m3 => 0x7E
  | .none => 2 ^ (f.ew + f.mw) - 1

/-- The canonical NaN (02 R34); E4M3's is 0x7F. -/
def FpFmt.nanBits (f : FpFmt) : Nat :=
  match f.sp with
  | .ieee => f.infBits + 2 ^ (f.mw - 1)
  | .e4m3 => 0x7F
  | .none => 0

/-- The sign bit's weight. -/
def FpFmt.signBit (f : FpFmt) : Nat := 2 ^ (f.ew + f.mw)

/-- The value of an encoding (02 R33, R34). -/
def FpFmt.decode (f : FpFmt) (bits : Nat) : Val :=
  let neg := tbit bits (f.ew + f.mw)
  let mag := bits % f.signBit
  let ex := mag >>> f.mw
  let fr := mag % 2 ^ f.mw
  let isNan := match f.sp with
    | .ieee => decide (f.infBits < mag)
    | .e4m3 => decide (mag = 0x7F)
    | .none => false
  if isNan then .nan
  else if f.sp = .ieee ∧ mag = f.infBits then .inf neg
  else if ex = 0 then .num neg fr (1 - (f.bias : Int) - f.mw)
  else .num neg (2 ^ f.mw + fr) ((ex : Int) - f.bias - f.mw)

/-- num / den rounded to the nearest integer, ties to even. -/
def rneDiv (num den : Nat) : Nat :=
  let q := num / den
  let r := num % den
  if den < 2 * r ∨ (2 * r = den ∧ q % 2 = 1) then q + 1 else q

/-- num × 2^e / den rounded to the nearest integer, ties to even. -/
def rneScaled (num den : Nat) (e : Int) : Nat :=
  if 0 ≤ e then rneDiv (num <<< e.toNat) den else rneDiv num (den <<< (-e).toNat)

/-- ⌊log2 (num × 2^e / den)⌋ of a positive value. -/
def ilog2 (num den : Nat) (e : Int) : Int :=
  let l : Int := (Nat.log2 num : Int) - Nat.log2 den
  -- num/den lies in [2^(l-1), 2^(l+1))
  let ge := if 0 ≤ l then decide (den <<< l.toNat ≤ num) else decide (den ≤ num <<< (-l).toNat)
  e + if ge then l else l - 1

/-- The magnitude bits of num × 2^e / den rounded to nearest even in a layout, the exponent range unbounded above
(02 R39, R45): a result above `maxBits` has overflowed. -/
def FpFmt.roundMag (f : FpFmt) (num den : Nat) (e : Int) : Nat :=
  if num = 0 then 0 else
  let emin : Int := 1 - (f.bias : Int)
  let E := ilog2 num den e
  let q : Int := (if E < emin then emin else E) - f.mw
  let k := rneScaled num den (e - q)
  if E < emin then k else (((E + f.bias).toNat) <<< f.mw) + (k - 2 ^ f.mw)

/-- Packing a sign and magnitude bits. -/
def FpFmt.pack (f : FpFmt) (neg : Bool) (mag : Nat) : Nat := (if neg then f.signBit else 0) + mag

/-- The result of an FP32 operation whose exact value is num × 2^e / den (02 R39, R47). -/
def f32Round (neg : Bool) (num den : Nat) (e : Int) : Nat × Events :=
  let mag := fp32.roundMag num den e
  if fp32.maxBits < mag then (fp32.pack neg fp32.infBits, evOverflow ||| evInf)
  else (fp32.pack neg mag, if mag = 0 ∧ num ≠ 0 then evUnderflow else 0)

/-- An FP32 encoding's value. -/
def f32 (x : Nat) : Val := fp32.decode x

/-- The canonical FP32 NaN. -/
def qnan : Nat := 0x7FC00000

/-- FP32 +1. -/
def f32One : Nat := 0x3F800000

/-- A value rounded once to FP32. -/
def toF32 : Val → Nat × Events
  | .nan => (qnan, evNan)
  | .inf s => (fp32.pack s fp32.infBits, evInf)
  | .num s m e => f32Round s m 1 e

/-! ### Exact arithmetic on values -/

/-- The exact product (02 R40: 0 × ∞ is NaN). -/
def Val.mul : Val → Val → Val
  | .nan, _ => .nan
  | _, .nan => .nan
  | .inf a, .inf b => .inf (a != b)
  | .inf a, .num b m _ => if m = 0 then .nan else .inf (a != b)
  | .num a m _, .inf b => if m = 0 then .nan else .inf (a != b)
  | .num a m e, .num b n g => .num (a != b) (m * n) (e + g)

/-- The signed integer of a magnitude at exponent e brought down to exponent lo. -/
def alignInt (neg : Bool) (m : Nat) (e lo : Int) : Int :=
  let x : Int := ((m <<< (e - lo).toNat : Nat) : Int)
  if neg then -x else x

/-- The exact sum (02 R40: +0 + −0 = +0, ∞ − ∞ is NaN). -/
def Val.add : Val → Val → Val
  | .nan, _ => .nan
  | _, .nan => .nan
  | .inf a, .inf b => if a = b then .inf a else .nan
  | .inf a, .num _ _ _ => .inf a
  | .num _ _ _, .inf b => .inf b
  | .num a m e, .num b n g =>
    if m = 0 ∧ n = 0 then .num (a && b) 0 0
    else
      let lo := if e ≤ g then e else g
      let s := alignInt a m e lo + alignInt b n g lo
      .num (decide (s < 0)) s.natAbs lo

/-- The negation. -/
def Val.neg : Val → Val
  | .nan => .nan
  | .inf a => .inf (!a)
  | .num a m e => .num (!a) m e

/-- Multiplying exactly by 2^k. -/
def Val.scale (k : Int) : Val → Val
  | .num a m e => .num a m (e + k)
  | v => v

/-- a < b for values that are not NaN, −0 below +0 (02 R40). -/
def Val.lt : Val → Val → Bool
  | .nan, _ => false
  | _, .nan => false
  | .inf a, .inf b => a && !b
  | .inf a, .num _ _ _ => a
  | .num _ _ _, .inf b => !b
  | .num a m e, .num b n g =>
    if m = 0 ∧ n = 0 then a && !b
    else
      let lo := if e ≤ g then e else g
      decide (alignInt a m e lo < alignInt b n g lo)

/-- Numeric a > b (zeros of both signs equal). -/
def Val.gtNum (a b : Val) : Bool :=
  match a, b with
  | .num _ 0 _, .num _ 0 _ => false
  | _, _ => Val.lt b a

/-- |v| of a finite value as a rational compared: a ≤ b in magnitude. -/
def Val.magLe : Val → Val → Bool
  | .num _ m e, .num _ n g =>
    let lo := if e ≤ g then e else g
    decide (m <<< (e - lo).toNat ≤ n <<< (g - lo).toNat)
  | _, _ => true

/-- The value is NaN. -/
def Val.isNan : Val → Bool
  | .nan => true
  | _ => false

/-- The value is infinite. -/
def Val.isInf : Val → Bool
  | .inf _ => true
  | _ => false

/-- The value is a zero. -/
def Val.isZero : Val → Bool
  | .num _ 0 _ => true
  | _ => false

/-- The sign of a value. -/
def Val.sign : Val → Bool
  | .nan => false
  | .inf a => a
  | .num a _ _ => a

/-! ### FP32 operations (02 R40) on encodings -/

def f32Add (x y : Nat) : Nat × Events :=
  let (r, e) := toF32 ((f32 x).add (f32 y)); (r, e ||| readEv (f32 x) ||| readEv (f32 y))
def f32Sub (x y : Nat) : Nat × Events :=
  let (r, e) := toF32 ((f32 x).add (f32 y).neg); (r, e ||| readEv (f32 x) ||| readEv (f32 y))
def f32Mul (x y : Nat) : Nat × Events :=
  let (r, e) := toF32 ((f32 x).mul (f32 y)); (r, e ||| readEv (f32 x) ||| readEv (f32 y))
/-- Fused multiply-add, one rounding. -/
def f32Fma (x y w : Nat) : Nat × Events :=
  let (r, e) := toF32 (((f32 x).mul (f32 y)).add (f32 w)); (r, e ||| readEv (f32 x) ||| readEv (f32 y) ||| readEv (f32 w))
/-- R40 maximum. -/
def f32Max (x y : Nat) : Nat × Events :=
  let a := f32 x
  let b := f32 y
  (if a.isNan || b.isNan then qnan else if a.lt b then y else x, readEv a ||| readEv b)
/-- R40 minimum. -/
def f32Min (x y : Nat) : Nat × Events :=
  let a := f32 x
  let b := f32 y
  (if a.isNan || b.isNan then qnan else if b.lt a then y else x, readEv a ||| readEv b)

/-! ### The function unit (02 R41) -/

/-- ⌊√n⌋ by bits from bit k down. -/
def isqrtFrom : Nat → Nat → Nat → Nat
  | 0, n, r => if (r + 1) * (r + 1) ≤ n then r + 1 else r
  | k + 1, n, r => let t := r + 2 ^ (k + 1); isqrtFrom k n (if t * t ≤ n then t else r)

/-- ⌊√n⌋. -/
def isqrt (n : Nat) : Nat := isqrtFrom (Nat.log2 n / 2 + 1) n 0

/-- The fixed-point scale of the function unit's series: 256 fractional bits (log entry 18). -/
def fuBits : Nat := 256

/-- ln 2 with 256 fractional bits. -/
def ln2Fix : Nat := 80260960185991308862233904206310070533990667611589946606122867505419956976171

/-- The terms of exp(y): Σ y^n / n!, in fixed point, from term n on. -/
def expTerms : Nat → Nat → Nat → Nat → Nat
  | 0, _, _, _ => 0
  | k + 1, n, y, t => t + expTerms k (n + 1) y (t * y / (2 ^ fuBits * (n + 1)))

/-- The odd powers of the series of artanh z: Σ z^(2n+1) / (2n+1). -/
def atanhTerms : Nat → Nat → Nat → Nat → Nat
  | 0, _, _, _ => 0
  | k + 1, n, z2, p => p / (2 * n + 1) + atanhTerms k (n + 1) z2 (p * z2 / 2 ^ fuBits)

/-- ln u in fixed point for u = num / den in [1, 2). -/
def lnFix (num den : Nat) : Nat :=
  let z := ((num - den) <<< fuBits) / (num + den)
  2 * atanhTerms 90 0 (z * z / 2 ^ fuBits) z

/-- A subnormal FP32 encoding flushed to a zero of its sign (02 R41). -/
def flush (x : Nat) : Nat := if (x % 2 ^ 31) < 2 ^ 23 then (x / 2 ^ 31) * 2 ^ 31 else x

/-- exp2 (02 R41). -/
def f32Exp2 (x0 : Nat) : Nat × Events :=
  match f32 (flush x0) with
  | .nan => (qnan, evNan)
  | .inf true => (0, evInf)
  | .inf false => (fp32.infBits, evInf)
  | .num s m e =>
    if m = 0 then (f32One, 0)
    else if 8 ≤ ilog2 m 1 e then if s then (0, evUnderflow) else (fp32.infBits, evOverflow ||| evInf)
    else
      let X := alignInt s m e (-160)
      let i := X / (2 : Int) ^ (160 : Nat)
      let f := (X % (2 : Int) ^ (160 : Nat)).toNat
      if f = 0 then f32Round false 1 1 i
      else
        let y := (f * ln2Fix) >>> 160
        let p := expTerms 60 0 y (2 ^ fuBits)
        f32Round false (2 * p + 1) 1 (i - (fuBits : Int) - 1)

/-- log2 (02 R41): NaN of a negative value, −∞ of a zero. -/
def f32Log2 (x0 : Nat) : Nat × Events :=
  match f32 (flush x0) with
  | .nan => (qnan, evNan)
  | .inf true => (qnan, evInf ||| evNan)
  | .inf false => (fp32.infBits, evInf)
  | .num s m e =>
    if m = 0 then (fp32.pack true fp32.infBits, evInf)
    else if s then (qnan, evNan)
    else
      let l := Nat.log2 m
      let k : Int := e + l
      if m = 2 ^ l then f32Round (decide (k < 0)) k.natAbs 1 0
      else
        let g := (lnFix m (2 ^ l) <<< fuBits) / ln2Fix
        let v : Int := k * (2 : Int) ^ (fuBits + 1) + (2 * g + 1 : Nat)
        f32Round (decide (v < 0)) v.natAbs 1 (-(fuBits : Int) - 1)

/-- The reciprocal (02 R41). -/
def f32Recip (x0 : Nat) : Nat × Events :=
  match f32 (flush x0) with
  | .nan => (qnan, evNan)
  | .inf s => (fp32.pack s 0, evInf)
  | .num s m e => if m = 0 then (fp32.pack s fp32.infBits, evInf) else f32Round s 1 m (-e)

/-- The reciprocal square root (02 R41): NaN of a negative value, an infinity of its sign of a zero. -/
def f32Rsqrt (x0 : Nat) : Nat × Events :=
  match f32 (flush x0) with
  | .nan => (qnan, evNan)
  | .inf true => (qnan, evInf ||| evNan)
  | .inf false => (0, evInf)
  | .num s m0 e0 =>
    if m0 = 0 then (fp32.pack s fp32.infBits, evInf)
    else if s then (qnan, evNan)
    else
      let odd := e0 % 2 = 1
      let m := if odd then 2 * m0 else m0
      let e := if odd then e0 - 1 else e0
      let n := 2 ^ 160
      let t := isqrt (n / m)
      f32Round false (2 * t + if t * t * m = n then 0 else 1) 1 (-(e / 2) - 81)

/-- −ln of a count, rounded (09 R256). -/
def negLn (n : Nat) : Nat :=
  if n ≤ 1 then 0
  else
    let l := Nat.log2 n
    let v := l * ln2Fix + (if n = 2 ^ l then 0 else lnFix n (2 ^ l))
    (f32Round true (2 * v + 1) 1 (-(fuBits : Int) - 1)).1

/-! ### Format codes (02 R32) -/

/-- The formats of R32, codes 0x00 to 0x0F in this order. -/
inductive Fmt where
  | fp32
  | bf16
  | fp16
  | e4m3
  | e5m2
  | mx8e4m3
  | mx8e5m2
  | mx6e3m2
  | mx6e2m3
  | mx4
  | mxint8
  | int8
  | int4
  | int32
  | kv4
  | e8m0
deriving DecidableEq, Repr

/-- The format of an FMT field; none for a reserved code. -/
def Fmt.ofCode : Nat → Option Fmt
  | 0 => some .fp32 | 1 => some .bf16 | 2 => some .fp16 | 3 => some .e4m3 | 4 => some .e5m2 | 5 => some .mx8e4m3
  | 6 => some .mx8e5m2 | 7 => some .mx6e3m2 | 8 => some .mx6e2m3 | 9 => some .mx4 | 10 => some .mxint8 | 11 => some .int8
  | 12 => some .int4 | 13 => some .int32 | 14 => some .kv4 | 15 => some .e8m0 | _ => none

/-- Bits of one element. -/
def Fmt.bits : Fmt → Nat
  | .fp32 => 32 | .bf16 => 16 | .fp16 => 16 | .e4m3 => 8 | .e5m2 => 8 | .mx8e4m3 => 8 | .mx8e5m2 => 8 | .mx6e3m2 => 6
  | .mx6e2m3 => 6 | .mx4 => 4 | .mxint8 => 8 | .int8 => 8 | .int4 => 4 | .int32 => 32 | .kv4 => 4 | .e8m0 => 8

/-- A format with one E8M0 scale per block of 32. -/
def Fmt.isMx : Fmt → Bool
  | .mx8e4m3 => true | .mx8e5m2 => true | .mx6e3m2 => true | .mx6e2m3 => true | .mx4 => true | .mxint8 => true | _ => false

/-- Packed in blocks of 32 along dimension 0 (07 R184). -/
def Fmt.packed (f : Fmt) : Bool := f.isMx || decide (f.bits < 8)

/-- Allowed as ME operand (02 R32). -/
def Fmt.meOk : Fmt → Bool
  | .fp32 => false | .int32 => false | .kv4 => false | .e8m0 => false | _ => true

/-- Allowed as SCU weight (02 R32). -/
def Fmt.scuOk : Fmt → Bool
  | .bf16 => true | .e4m3 => true | .e5m2 => true | f => f.isMx

/-- The integer formats of R43. -/
def Fmt.isInt : Fmt → Bool
  | .int8 => true | .int4 => true | _ => false

/-- FP8 (E4M3 or E5M2) element types outside MX. -/
def Fmt.isFp8 : Fmt → Bool
  | .e4m3 => true | .e5m2 => true | _ => false

/-- Formats whose conversion takes SAT (02 R45, R464). -/
def Fmt.takesSat (f : Fmt) : Bool := f.isFp8 || f.isMx || decide (f = .e8m0)

/-- The floating-point layout of an element, when it has one. -/
def Fmt.fp : Fmt → Option FpFmt
  | .fp32 => some Machine.fp32 | .bf16 => some Machine.bf16 | .fp16 => some Machine.fp16 | .e4m3 => some Machine.e4m3
  | .e5m2 => some Machine.e5m2 | .mx8e4m3 => some Machine.e4m3 | .mx8e5m2 => some Machine.e5m2 | .mx6e3m2 => some Machine.e3m2
  | .mx6e2m3 => some Machine.e2m3 | .mx4 => some Machine.e2m1 | _ => none

/-- The value of an E8M0 byte (02 R35). -/
def e8m0Val (x : Nat) : Val := if x = 0xFF then .nan else .num false 1 ((x : Int) - 127)

/-- The value of a signed integer. -/
def intVal (x : Int) : Val := .num (decide (x < 0)) x.natAbs 0

/-- An element's own value before any scale (02 R33 to R37). -/
def Fmt.elem (f : Fmt) (bits : Nat) : Val :=
  match f with
  | .mxint8 => (intVal (sx 8 bits)).scale (-6)
  | .int8 => intVal (sx 8 bits)
  | .int4 => intVal (sx 4 bits)
  | .kv4 => intVal (sx 4 bits)
  | .int32 => intVal (sx 32 bits)
  | .e8m0 => e8m0Val bits
  | g => match g.fp with
    | some l => l.decode bits
    | none => .nan

/-! ### Conversion of one value (02 R45, R46, R464) -/

/-- Conversion to a floating-point element (R45). MX elements never see an infinity or NaN here (R49). -/
def convFp (f : FpFmt) (sat : Bool) (v : Val) : Nat × Events :=
  match v with
  | .nan => (f.nanBits, evNan)
  | .inf s =>
    match f.sp with
    | .ieee => if sat then (f.pack s f.maxBits, evInf) else (f.pack s f.infBits, evInf)
    | .e4m3 => if sat then (f.pack s f.maxBits, evInf) else (f.nanBits, evInf ||| evNan)
    | .none => (f.pack s f.maxBits, evInf)
  | .num s m e =>
    let mag := f.roundMag m 1 e
    if f.maxBits < mag then
      match f.sp with
      | .ieee => if sat then (f.pack s f.maxBits, evOverflow) else (f.pack s f.infBits, evOverflow ||| evInf)
      | .e4m3 => if sat then (f.pack s f.maxBits, evOverflow) else (f.nanBits, evOverflow ||| evNan)
      | .none => (f.pack s f.maxBits, evOverflow)
    else (f.pack s mag, if mag = 0 ∧ m ≠ 0 then evUnderflow else 0)

/-- Conversion to an integer element of range −lim to lim with scale s (R46); the bits are those of w-bit two's complement. -/
def convInt (w lim : Nat) (x s : Val) : Nat × Events :=
  match x, s with
  | .nan, s => (0, evInt ||| evNan ||| readEv s)
  | x, .nan => (0, evInt ||| evNan ||| readEv x)
  | _, .inf _ => (0, evInt ||| evInf)
  | .inf a, .num _ n _ =>
    if n = 0 then (0, evInt ||| evInf) else (if a then 2 ^ w - lim else lim, evOverflow ||| evInf)
  | .num a m e, .num b n g =>
    if n = 0 then (0, evInt)
    else
      let k := rneScaled m n (e - g)
      let neg := a != b
      if lim < k then (if neg then 2 ^ w - lim else lim, evOverflow)
      else (if neg then (2 ^ w - k) % 2 ^ w else k, if k = 0 ∧ m ≠ 0 then evUnderflow else 0)

/-- Conversion to E8M0 (R464). -/
def convE8m0 (sat : Bool) (v : Val) : Nat × Events :=
  match v with
  | .nan => (0xFF, evNan)
  | .inf false => if sat then (0xFE, evInf) else (0xFF, evInf ||| evNan)
  | .inf true => (0xFF, evInf ||| evNan)
  | .num s m e =>
    if m = 0 then (0, 0)
    else if s then (0xFF, evNan)
    else
      let E := ilog2 m 1 e
      if E < -127 then (0, 0)
      else
        -- v = f × 2^E with f in [1, 2): nearest of 2^E and 2^(E+1), measured in value, halfway at 1.5
        let l := Nat.log2 m
        let up := 3 * 2 ^ l < 2 * m ∨ (3 * 2 ^ l = 2 * m ∧ (E + 127) % 2 = 1)
        let ovf := 127 < E ∨ (E = 127 ∧ 3 * 2 ^ l < 2 * m)
        if ovf then (if sat then (0xFE, evOverflow) else (0xFF, evOverflow ||| evNan))
        else if E = 127 then (0xFE, 0)
        else ((E + 127 + if up then 1 else 0).toNat, 0)

/-! ### Blocks of 32 with a shared scale (02 R48, R49) -/

/-- The emax of an MX element type (R48). -/
def Fmt.emax : Fmt → Int
  | .mx8e4m3 => 8 | .mx8e5m2 => 15 | .mx6e3m2 => 4 | .mx6e2m3 => 2 | .mx4 => 2 | _ => 0

/-- The largest magnitude of a list of finite values. -/
def amaxOf (l : List Val) : Val := l.foldl (fun a v => if a.magLe v then v else a) (.num false 0 0)

/-- An element of an MX format from value / 2^X (R45, or R46 for MXINT8). -/
def convMxElem (f : Fmt) (sat : Bool) (v : Val) : Nat × Events :=
  match f.fp with
  | some l => convFp l sat v
  | none => convInt 8 127 v (.num false 1 (-6))

/-- Whether amax / 2^X overflows the element type under R45 (R48, fit rule). -/
def mxOverflows (f : Fmt) (amax : Val) (X : Int) : Bool :=
  ((convMxElem f false (amax.scale (-X))).2 &&& evOverflow) != 0

/-- The scale exponent of a block (R48): floor rule 0, fit rule 1; never above 127. R48 takes amax to be below 2^128; where a MULT_EXP
or a multiplier takes it higher, X stays 127 (DESIGN CHOICE, log entry 119). -/
def mxScale (f : Fmt) (rule : Nat) (amax : Val) : Int :=
  match amax with
  | .num _ m e =>
    let X0 := ilog2 m 1 e - f.emax
    let X1 := if X0 < -127 then -127 else if 127 < X0 then 127 else X0
    if rule = 1 ∧ X1 < 127 ∧ mxOverflows f amax X1 then X1 + 1 else X1
  | _ => 0

/-- A block converted to an MX format: scale byte, element bits, events (R48, R49). -/
def convMx (f : Fmt) (sat : Bool) (rule : Nat) (vs : List Val) : Nat × List Nat × Events :=
  let ev := orEv (vs.map readEv)
  if vs.any (fun v => v.isNan || v.isInf) then (0xFF, vs.map (fun _ => 0), ev ||| evNan)
  else
    let amax := amaxOf vs
    if amax.isZero then (0x7F, vs.map (fun v => (convMxElem f sat v).1), 0)
    else
      let X := mxScale f rule amax
      let es := vs.map (fun v => convMxElem f sat (v.scale (-X)))
      ((X + 127).toNat, es.map (·.1), orEv (es.map (·.2)))

/-- The FP16 scale of a Paged KV-4 group and its elements (R46): amax over the group's values. -/
def kv4Scale (vs : List Val) : Nat × Events :=
  if vs.any (fun v => v.isNan || v.isInf) then (0x7E00, orEv (vs.map readEv) ||| evNan)
  else match amaxOf vs with
    | .num _ m e => let b := fp16.roundMag m 7 e; (if fp16.maxBits < b then (fp16.infBits, evOverflow ||| evInf) else (b, 0))
    | _ => (0, 0)

/-- One element of a Paged KV-4 group under its FP16 scale; every element is 0 under a zero or NaN scale (R46). A nonzero value stored
as 0 under a scale of +0 is an UNDERFLOW (R47). -/
def kv4Elem (scale : Nat) (v : Val) : Nat × Events :=
  if scale = 0 then (0, if v.isZero then 0 else evUnderflow)
  else if scale = 0x7E00 then (0, 0)
  else convInt 4 7 v (fp16.decode scale)

/-! ### Packing (02 R36) -/

/-- The bits of element i of a packed run of w-bit elements. -/
def packedElem (w : Nat) (bs : List Byte) (i : Nat) : Nat :=
  if w = 4 then fld (numAt bs (i / 2) 1) (4 * (i % 2) + 3) (4 * (i % 2))
  else if w = 6 then
    let blk := numAt bs (24 * (i / 32)) 24
    fld blk (6 * (i % 32) + 5) (6 * (i % 32))
  else numAt bs (i * (w / 8)) (w / 8)

/-- The bits of the first n elements. -/
def unpack (w n : Nat) (bs : List Byte) : List Nat := (List.range n).map (packedElem w bs)

/-- Elements packed into one number, element i at bit w × i; the last is highest. -/
def packNum (w : Nat) (es : List Nat) : Nat := es.foldr (fun e a => e % 2 ^ w + a * 2 ^ w) 0

/-- Elements packed into bytes (a block of 32 for formats narrower than a byte). -/
def packBytes (w : Nat) (es : List Nat) : List Byte := leBytes (packNum w es) (cdiv (w * es.length) 8)

/-! ### Chunks, segments and trees (02 R42, R50, R51) -/

/-- One addition into an accumulator: acc := RNE_FP32(acc + S). -/
def accAdd (acc : Nat) (S : Val) : Nat × Events := toF32 ((f32 acc).add S)

/-- The exact sum of a list. -/
def exactSum (l : List Val) : Val := l.foldl Val.add (.num false 0 0)

/-- The chain of R42 over chunks of terms; a chunk with no term leaves it unchanged (02 R52). -/
def chain (chunks : List (List Val)) : Nat × Events :=
  chunks.foldl (fun (a : Nat × Events) c =>
    if c.isEmpty then a else let (r, e) := accAdd a.1 (exactSum c); (r, a.2 ||| e)) (0, 0)

/-- A segment's sum over its terms (R42). -/
def segmentSum (terms : List Val) : Nat × Events := chain (chunksOf 32 terms)

/-- One level of the pairwise tree with pass-through (R51). -/
def treeLevel {α : Type} (join : α → α → α) : List α → List α
  | a :: b :: t => join a b :: treeLevel join t
  | l => l

/-- The tree of R51 over a list, fuel the number of levels. -/
def treeFuel {α : Type} (join : α → α → α) : Nat → List α → Option α
  | _, [] => none
  | _, [a] => some a
  | 0, a :: _ => some a
  | k + 1, l => treeFuel join k (treeLevel join l)

/-- The tree of R51. -/
def tree {α : Type} (join : α → α → α) (l : List α) : Option α := treeFuel join (l.length + 1) l

/-- FP32 addition with its events carried. -/
def joinAdd (a b : Nat × Events) : Nat × Events := let (r, e) := f32Add a.1 b.1; (r, e ||| a.2 ||| b.2)

/-- R40 maximum with its events carried. -/
def joinMax (a b : Nat × Events) : Nat × Events := let (r, e) := f32Max a.1 b.1; (r, e ||| a.2 ||| b.2)

/-- R40 minimum with its events carried. -/
def joinMin (a b : Nat × Events) : Nat × Events := let (r, e) := f32Min a.1 b.1; (r, e ||| a.2 ||| b.2)

/-- A reduction of exact terms: segments of 1,024, then the tree (R50, R51). -/
def reduceTerms (terms : List Val) : Nat × Events :=
  (tree joinAdd ((chunksOf 1024 terms).map segmentSum)).getD (0, 0)

/-- A dot product reduced by R42, R50 and R51, with the events of reading its factors. -/
def dotReduce (a b : List Val) : Nat × Events :=
  let (r, e) := reduceTerms (List.zipWith Val.mul a b)
  (r, e ||| orEv (a.map readEv) ||| orEv (b.map readEv))

/-- The range [a, b) of n leaves is aligned (02 R55). -/
def alignedRange (a b n : Nat) : Bool :=
  (List.range (Nat.log2 n + 2)).any (fun j => decide (a % 2 ^ j = 0 ∧ b = min (a + 2 ^ j) n))

/-! ### Attention per page (02 R52) -/

/-- A leaf or node of the attention tree: m, l and o. -/
structure AttnNode where
  m : Nat
  l : Nat
  o : List Nat
  ev : Events := 0
deriving DecidableEq, Repr

/-- FP32 −∞. -/
def negInf : Nat := 0xFF800000

/-- An empty leaf of width D (R52). -/
def attnEmpty (d : Nat) : AttnNode := ⟨negInf, 0, List.replicate d 0, 0⟩

/-- The leaf is empty (R52). -/
def AttnNode.isEmptyLeaf (x : AttnNode) : Bool := x.m == negInf && x.l == 0

/-- The node rule of R52. -/
def attnJoin (x y : AttnNode) : AttnNode :=
  if x.isEmptyLeaf && y.isEmptyLeaf then { attnEmpty x.o.length with ev := x.ev ||| y.ev }
  else
    let (m, e0) := f32Max x.m y.m
    let (d1, e1) := f32Sub x.m m
    let (d2, e2) := f32Sub y.m m
    let (a1, e3) := f32Exp2 d1
    let (a2, e4) := f32Exp2 d2
    let mix := fun (u v : Nat) =>
      let (p, f1) := f32Mul u a1
      let (q, f2) := f32Mul v a2
      let (r, f3) := f32Add p q
      (r, f1 ||| f2 ||| f3)
    let (l, e5) := mix x.l y.l
    let os := List.zipWith mix x.o y.o
    ⟨m, l, os.map (·.1), x.ev ||| y.ev ||| e0 ||| e1 ||| e2 ||| e3 ||| e4 ||| e5 ||| orEv (os.map (·.2))⟩

/-- The chunks of 32 slots of a page, each holding the visible terms of its slots, in slot order. -/
def slotChunks (terms : List (Nat × Val)) (T : Nat) : List (List Val) :=
  (List.range (cdiv T 32)).map (fun c => (terms.filter (fun t => t.1 / 32 == c)).map (·.2))

/-- One page of T slots for one query row (R52): the visible tokens as (slot, key, value). -/
def attnPage (q : List Val) (c : Nat) (d T : Nat) (toks : List (Nat × List Val × List Val)) : AttnNode :=
  if toks.isEmpty then attnEmpty d
  else
    let ss := toks.map (fun t => let (x, e) := dotReduce q t.2.1; let (y, e') := f32Mul x c; (t.1, y, e ||| e'))
    let m := ss.foldl (fun (a : Nat × Events) s => joinMax a (s.2.1, 0)) ((ss.head?.map (·.2.1)).getD negInf, 0)
    let ps := ss.map (fun s => let (x, e) := f32Sub s.2.1 m.1; let (y, e') := f32Exp2 x; (s.1, y, e ||| e'))
    let l := chain (slotChunks (ps.map (fun p => (p.1, f32 p.2.1))) T)
    let o := (List.range d).map (fun j =>
      chain (slotChunks (List.zipWith (fun p t => (p.1, (f32 p.2.1).mul ((t.2.2[j]?).getD .nan))) ps toks) T))
    ⟨m.1, l.1, o.map (·.1), m.2 ||| l.2 ||| orEv (o.map (·.2)) ||| orEv (ss.map (·.2.2)) ||| orEv (ps.map (·.2.2))
      ||| orEv (toks.map (fun t => orEv (t.2.2.map readEv)))⟩

/-! ### Philox (09 R257) -/

/-- One round of Philox 4×32 on (c0, c1, c2, c3) with key (k0, k1). -/
def philoxRound (c : Nat × Nat × Nat × Nat) (k : Nat × Nat) : Nat × Nat × Nat × Nat :=
  let p0 := 0xD2511F53 * c.1
  let p1 := 0xCD9E8D57 * c.2.2.1
  ((p1 >>> 32) ^^^ c.2.1 ^^^ k.1, p1 % 2 ^ 32, (p0 >>> 32) ^^^ c.2.2.2 ^^^ k.2, p0 % 2 ^ 32)

/-- n rounds with the key schedule of R257. -/
def philox : Nat → (Nat × Nat × Nat × Nat) → (Nat × Nat) → Nat × Nat × Nat × Nat
  | 0, c, _ => c
  | n + 1, c, k => philox n (philoxRound c k) ((k.1 + 0x9E3779B9) % 2 ^ 32, (k.2 + 0xBB67AE85) % 2 ^ 32)

/-- draw(q, d) of R257 as an FP32 encoding: (c0 >> 8) × 2^−24. -/
def draw (seed : BitVec 64) (q d : Nat) : Nat :=
  let c := philox 10 (q % 2 ^ 32, d, 0, 0) (seed.toNat % 2 ^ 32, seed.toNat / 2 ^ 32)
  (f32Round false (c.1 >>> 8) 1 (-24)).1

end Sys2Proof.Machine
end

