-- ==== Sys2Proof/Config.lean ====
section
/-!
DEFINITION. What an implementation fixes and the spec leaves open: constants with no body. Nothing can evaluate them, so a
statement that holds does so whatever they are (free values, log entry 6).
-/

namespace Sys2Proof

/-- A free byte: the n-th byte that the spec leaves open (a result that 06 R157 calls not defined). -/
opaque Config.freeByte : Nat → Byte

/-- A free 64-bit value: the n-th value that the spec leaves open (the local cycle count of 01 R24, 06 R168). -/
opaque Config.freeWord : Nat → Word

/-- The way that a slice replaces when a set is full: 03 R70 says pseudo-LRU and gives no tree (log entry 14). -/
opaque Config.victimWay : Nat → Nat

/-- Whether (r, s) is a valid ECDSA P-384 signature of a digest under a public key (17 R440): defined by a standard outside
the spec, so uninterpreted (log entry 12). -/
opaque Config.ecdsaValid : List Byte → List Byte → List Byte → Bool

/-- A signature made with the device's own key, which never leaves the always-on domain (17 R439). -/
opaque Config.deviceSign : List Byte → List Byte

/-- The nonce of an SPDM answer (17 R439): any 32 bytes. -/
opaque Config.nonce : Nat → List Byte

/-- The digest of the boot ROM (17 R439, measurement 1). -/
opaque Config.bootRomDigest : List Byte

/-- The flow-label hash of an ordered packet (11 R294), which the spec does not give. -/
opaque Config.flowHash : Nat → Nat

/-- The flow label of a packet this device sends (11 R283, R294): of a remote atomic a hash of the element's address, which is the last argument;
of another packet what the spec leaves open. The spec gives no hash (log entry 94). -/
opaque Config.flowLabel : String → Nat → Nat

/-- The elements of a chunk of a reduction, in units of 32 and beyond the first 32 (11 R308, which does not give them; log entry 69). -/
opaque Config.collChunk : Nat

/-- The rank at which a chunk of a ring begins (11 R308, which does not give it; log entry 69). -/
opaque Config.ringStart : Nat → Nat

/-- Where Ifewin puts a record in the device reserve: 0 the Session Table, 1 + 2n the token log and 2 + 2n the penalty count table of
session n, 131073 + p the Dispatcher's working state for the steps of partition p. 03 R65 gives the reserve's rows and no layout (log entry 57). -/
opaque Config.reservePtr : Nat → Nat

/-- The thermal model's next temperature of a node, in 1/16 degree, from the temperatures and the measured powers (16 R404):
thermal resistances and capacitances are not given (log entry 21). -/
opaque Config.thermalStep : Nat → List Int → List Nat → Int

/-- The change of a region's offset in one update, in 1/160 degree, from the differences of its healthy diodes (16 R406 bounds it and
gives no formula; log entry 21). -/
opaque Config.offsetStep : List Int → Int

/-- The spare lanes of a bridge half (01 R17 gives no number; log entry 61). -/
opaque Config.bridgeSpares : Nat

/-- The node at a diode's place (16 R405): the places are not given (log entry 21). -/
opaque Config.diodeNode : Nat → Nat

end Sys2Proof
end

