-- ==== Sys2Proof/Machine/State.lean ====
section
/-!
DEFINITION. The state of the device as plain data: every register, memory, queue, counter, mode and pin of the spec, the
queue of waiting commands, and the state after reset. Every field's default is its reset value (INVENTORY.md, State).
-/

namespace Sys2Proof.Machine

/-- Why a step stops with a fault. -/
inductive Fault where
  /-- Raised by any command that names a unit number 00 R4 does not have (a core above 143, a channel above 255, ...).
  Safe: the device has no such unit, so no command can name it (log entry 16). -/
  | noSuchUnit (what : String) (n : Nat)
deriving DecidableEq, Repr

/-- Why a step is refused. -/
inductive Refusal where
  /-- The command has no meaning yet; raised only by an arm of Dispatch.lean. Safe. -/
  | notModelled (mnemonic : String)
deriving DecidableEq, Repr

/-! ### Fuses, start record, configuration store, firmware -/

/-- The variant (00 R1). -/
inductive Variant where
  | nk16
  | nk12
  | nk09
deriving DecidableEq, Repr

/-- The fuses (15 R391), which nothing writes; the reset values are the make-up of one part (log entry 8). -/
structure Fuses where
  variant : Variant := .nk16
  serial : BitVec 64 := 0
  keyHash : List Byte := List.replicate 48 0
  uuid : List Byte := List.replicate 16 0
  badCores : List Nat := []
  badSlices : List Nat := []
  badChannels : List Nat := []
  badPorts : List Nat := []
  copyFault : Bool := false
  certChain : List Byte := []
deriving DecidableEq, Repr

/-- HI_START.STATE (17 R429), codes 0 to 5 in this order. -/
inductive Phase where
  | starting
  | ready
  | recovery
  | fuseFault
  | failed
  | stopped
deriving DecidableEq, Repr

/-- Which start follows a reset (13 R353). -/
inductive StartKind where
  | cold
  | warm
deriving DecidableEq, Repr

/-- The start and reset record (13 R353, 15 R388 to R398); `ifewin`: the start that runs has passed its step 3. -/
structure Boot where
  phase : Phase := .starting
  ifewin : Bool := false
  startKind : Option StartKind := none
  nextStart : StartKind := .cold
  cause : Nat := 0
  suppliesGood : Bool := true
  domainsOff : Bool := true
  pcieOff : Bool := false
  failedStarts : Nat := 0
  flushLost : Bool := false
  retrained : Bool := false
  fallback : Bool := false
  startMs : Nat := 0
  lastStop : Nat := 0
  lastStopSeen : Nat := 0
  activating : Bool := false
  lost : List Nat := []
  retire : Bool := false
  resetPending : Option (StartKind × Nat) := none
deriving DecidableEq, Repr

/-- POLICY (14 R372), with its value after manufacture: PRIO host, fabric manager, board management controller. -/
structure Policy where
  prio : BitVec 6 := 0b101101
  fabToFm : Bool := true
  fmAny : Bool := true
  fmId : BitVec 16 := 0
deriving DecidableEq, Repr

/-- What Ifewin keeps in its configuration store beside the partitions, tenants and rings (15 R397). -/
structure CfgStore where
  chkMode : Nat := 0
  policy : Policy := {}
  powerLimit : Option Nat := none
  outCores : List Nat := []
  outSlices : List Nat := []
  outChannels : List Nat := []
  pendCores : List Nat := []
  pendSlices : List Nat := []
  pendChannels : List Nat := []
  softRepairs : List (Nat × Nat × Nat) := []
deriving DecidableEq, Repr

/-- An Ifewin image in the configuration store (15 R393). -/
structure FwImage where
  version : BitVec 32 := 1
  levels : BitVec 32 := 1
  digest : List Byte := []
  good : Bool := true
deriving DecidableEq, Repr

/-- Firmware (13 R356, 14 R384). -/
structure Firmware where
  running : FwImage := {}
  fallback : FwImage := {}
  staged : Sp Byte := []
  stagedLen : Nat := 0
  verified : Bool := false
deriving DecidableEq, Repr

/-- The state byte of every unit (15 R399): 0 present and On, 1 Off, 2 to 7 Absent. SCUs default to Off (04 R116), every
other unit to On; while Boot.domainsOff holds, a present unit reads Off. -/
structure Units where
  core : Sp Nat := []
  slice : Sp Nat := []
  chan : Sp Nat := []
  scu : Sp Nat := []
  port : Sp Nat := []
  stack : Sp Nat := []
  quad : Sp Nat := []
  bridge : Sp Nat := []
  bridgeSpares : Sp Nat := []
  pointsOff : List Nat := []
  /-- The units (kind of 14 R375, number) that do not answer the Signal Box (13 R352; log entry 84). -/
  wedged : List (Nat × Nat) := []
deriving DecidableEq, Repr

/-! ### Stack memory and shared cache -/

/-- The owner of a 2 MiB page (03 R66). Pages of frame rows 0 to 15 belong to the reserve whatever this says (R65). -/
inductive Owner where
  | free
  | reserve
  | part (p : Nat)
deriving DecidableEq, Repr

/-- The mode of a frame row (03 R64). -/
inductive RowMode where
  | spread
  | pinned
deriving DecidableEq, Repr

/-- A mirror region granted to a partition of another device (13 R346). -/
structure Grant where
  src : Nat
  spart : Nat
  pages : List Nat
deriving DecidableEq, Repr

/-- Stack memory. A place is channel × 0x6000_0000 + channel offset (03 R60, R63); an unlisted place reads 0 (log entry
11). The check bytes of a line are kept as their difference from the valid ones (12 R317), so 0 is a valid line and the
marker K of 12 R320 a poisoned one. `seen`: for a line of the device reserve that holds records (by DPA >> 6), the records' bytes when
something other than the record's own writer last changed the line or its check bits (03 R65, log entry 57). -/
structure Mem where
  bytes : List Host.Cell := []
  chk : Sp (BitVec 64) := []
  seen : Sp (List Byte) := []
  rowMode : Sp RowMode := []
  owner : Sp Owner := []
  retained : List Nat := []
  filling : List Nat := []
  mirrors : List (Nat × Nat) := []
  grants : List Grant := []
deriving DecidableEq, Repr

/-- A line of the shared cache (03 R70 to R73): data, byte-valid mask, dirty flag, the way it lies in, the check bits of its
bytes as differences from the valid ones (12 R314; 0b01101 is the poison marker of R316), and how many of the two copies of its
tag are uncorrectable (12 R321). -/
structure CLine where
  data : List Byte
  valid : BitVec 64
  dirty : Bool
  way : Nat
  chk : Sp (BitVec 5) := []
  tagsBad : Nat := 0
deriving DecidableEq, Repr

/-- A way (of a set of a slice) that holds no line and was written by an injection (12 R326): its raw data and check bits. -/
structure BareWay where
  slice : Nat
  set : Nat
  way : Nat
  data : List Byte
  chk : Sp (BitVec 5)
deriving DecidableEq, Repr

/-- The shared cache: the lines held, by line number (DPA >> 6); the ways written raw that hold none; disabled ways (slice, set,
way); the set each slice tests. -/
structure Cache where
  lines : Sp CLine := []
  bare : List BareWay := []
  waysOff : List (Nat × Nat × Nat) := []
  testPos : Sp Nat := []
  testQ : List (Nat × Nat × Nat) := []
  errs : List (Nat × Nat × Nat) := []
  injected : List (Nat × Nat × Nat) := []
deriving DecidableEq, Repr

/-! ### Halt records, SCUs, cores -/

/-- A halt record (05 R140). -/
structure HaltRec where
  code : Code
  core : Nat
  lcore : Nat
  queue : Nat := 0
  ctrl : Bool := false
  part : Bool := false
  slot : Nat := 0
  ordinal : Nat := 0
  pushed : Nat := 0
  faultVa : Nat := 0
  tHalt : Nat := 0
  command : BitVec 256 := 0
deriving DecidableEq, Repr

/-- One accepted command of one SCU (04 R88, R89): the record, who dispatched it, and the bytes that travelled with it, with their
poison and the record's own. -/
structure ScuEnt where
  record : BitVec 512
  part : Nat
  core : Nat
  rank : Nat
  nTargets : Nat
  recIdx : Nat
  ctr : Option Nat
  cmd : BitVec 256
  ordinal : Nat
  data : List Byte
  dataPoison : List Bool := []
  recPoison : Bool := false
  targets : List Nat
  seq : Nat
deriving DecidableEq, Repr

/-- A channel with its SCU and its part of the stack controller. -/
structure Chan where
  queue : List ScuEnt := []
  seq : Nat := 0
  sigma : Nat := 4
  refPauses : Nat := 0
  failed : Bool := false
  scrubPos : Nat := 0
  wbQ : List Nat := []
  testQ : List Nat := []
  addrTest : Bool := false
  spares : Sp Nat := []
  injected : List Nat := []
  errs : List (Nat × Nat) := []
deriving DecidableEq, Repr

/-- What the control core of a core does. -/
inductive CoreMode where
  /-- No kernel runs on the core. -/
  | idle
  /-- It executes instructions. -/
  | run
  /-- Blocked by WAIT on counter `ctr` reaching `v` (05 R123). -/
  | waiting (ctr : Nat) (v : Nat)
  /-- Stalled by a push to the full queue `q` (05 R119). -/
  | stalled (q : Nat)
  /-- Stopped at its stop count, its queues draining (06 R179). -/
  | counted
  /-- It has executed END (06 R175). -/
  | ended
  /-- Halted (05 R139). -/
  | halted
deriving DecidableEq, Repr

/-- A bank's state (03 R79). -/
inductive BankState where
  | on
  | retention
  | off
deriving DecidableEq, Repr

/-- A command in an engine's queue: its 256 bits, its ordinal since launch, and how many of its SCU sends are done
and whether bytes it read were poisoned (DISPATCH only). -/
structure QEnt where
  cmd : BitVec 256
  ordinal : Nat
  sent : Nat := 0
  waited : Bool := false
  poison : Bool := false
deriving DecidableEq, Repr

/-- A bank-state change that waits for the commands pushed before it (03 R80): mask, state, and the four ordinals to pass. -/
structure BankReq where
  mask : BitVec 32
  st : BankState
  after : List Nat
deriving DecidableEq, Repr

/-- One of the four engines of a core: its queue, the ordinal of its next push and of its next completion, the completion
slots, and its events and poison ORed over the kernel (05 R119 to R121). -/
structure Engine where
  queue : List QEnt := []
  nextOrd : Nat := 0
  doneOrd : Nat := 0
  slots : Sp (BitVec 32) := []
  events : BitVec 5 := 0
  poison : Bool := false
  headSince : Nat := 0
deriving DecidableEq, Repr

/-- What a command computes in inside its engine (05 R117): the two accumulator banks of 128 × 64 FP32 of the ME, the 32 vector
registers of 256 FP32 of the VE, the 16 KiB permutation buffer of the TT. None outlives its command (R131, R132; log entry 121). -/
structure Scratch where
  accBanks : Sp (BitVec 32) := []
  vectors : Sp (BitVec 32) := []
  permute : Sp Byte := []
deriving DecidableEq, Repr

/-- A core (05 R117, 06 R165). Check bits of SRAM bytes are differences from the valid ones. -/
structure Core where
  regs : Sp Word := []
  p : BitVec 256 := 0
  pc : Nat := 0
  mode : CoreMode := .idle
  waitSince : Nat := 0
  code : List Byte := []
  codeChk : Sp (BitVec 5) := []
  tmpl : List (BitVec 256) := []
  tmplChk : Sp (BitVec 5) := []
  cmem : Sp Byte := []
  cmemChk : Sp (BitVec 5) := []
  me : Engine := {}
  ve : Engine := {}
  mv : Engine := {}
  tt : Engine := {}
  scratch : Scratch := {}
  ctrs : Sp (BitVec 32) := []
  pushes : Nat := 0
  store : Sp Byte := []
  storeChk : Sp (BitVec 5) := []
  size : Nat := 0x100000
  banks : Sp BankState := []
  bankReqs : List BankReq := []
  lcore : Nat := 0
  part : Option Nat := none
  lastPush : BitVec 256 := 0
  lastPushQ : Nat := 0
  lastPushOrd : Nat := 0
  halt : Option HaltRec := none
  stopping : Bool := false
  testQ : List Nat := []
  errs : List (Nat × Nat) := []
  injected : List Nat := []
deriving DecidableEq, Repr

/-! ### Partitions -/

/-- The state of a partition (09 R246); absent before PART CREATE. -/
inductive PState where
  | absent
  | empty
  | drained
  | serving
  | draining
  | halted
deriving DecidableEq, Repr

/-- An area named by PARAM (14 R378): its VA and its size in 64 KiB units. -/
structure Area where
  va : Nat
  units : Nat
deriving DecidableEq, Repr

/-- The serving parameters and areas (09 R248, 14 R378), at their values after PART CREATE. -/
structure Params where
  ordered : Bool := false
  chunk : Nat := 512
  stepRows : Nat := 8192
  stepPrefill : Nat := 2048
  wPre : Nat := 1
  wDec : Nat := 8
  logits : Option Nat := none
  lpitch : Option Nat := none
  stepLimit : Nat := 1000000
  run : Nat := 4
  siding : Bool := false
  low : Nat := 0
  high : Nat := 0
  kvArea : Option Area := none
  ttArea : Option Area := none
  collArea : Option Area := none
deriving DecidableEq, Repr

/-- A valid page-table entry (07 R194): the VA it maps and its 64 bits. -/
structure Pte where
  va : Nat
  bits : BitVec 64
deriving DecidableEq, Repr

/-- KV geometry (08 R202). -/
structure KvGeom where
  fmt : Nat
  d : Nat
  h : Nat
  hg : Nat
  layers : Nat
  maxCtx : Nat
deriving DecidableEq, Repr

/-- A Myluhild image as loaded (06 R171, R172); `binding`: KIND, INDEX and patched value of every relocation (R173). -/
structure Image where
  entry : Nat := 0
  argLen : Nat := 0
  order : Nat := 0
  waitK : Nat := 0
  storeSize : Nat := 0
  lchannels : Nat := 0
  lcores : Nat := 1
  code : List Byte := []
  templates : List (BitVec 256) := []
  storeInit : List Byte := []
  products : List Nat := []
  binding : List (Nat × Nat × Nat) := []
deriving DecidableEq, Repr

/-- A loaded model (14 R379): the payload as accepted and what it says. -/
structure Model where
  payload : List Byte := []
  features : Bool := false
  kv : Option KvGeom := none
  vocab : Nat := 1
  modelId : BitVec 64 := 0
  images : List Image := []
deriving DecidableEq, Repr

/-- A running kernel: image, binding (06 R175), stop count (R179), argument block, and the halt in progress (05 R139). -/
structure Kernel where
  image : Image
  cores : List Nat
  chans : List Nat
  diag : Bool := false
  stopN : Nat := 0
  stopCore : Nat := 0xFF
  halting : Option (Code × Nat) := none
deriving DecidableEq, Repr

/-- The kind of a Timetable entry (08 R216), codes 0 to 3. -/
inductive EntKind where
  | decode
  | verify
  | prefill
  | rebuild
deriving DecidableEq, Repr

/-- An entry of a step (08 R216) with what the Dispatcher needs to finish it; `draftFor`: the target that the rows of a draft session
are for (09 R260). -/
structure Entry where
  sess : Nat
  kind : EntKind
  rows : Nat
  ctx : Nat
  nodes : Nat := 0
  last : Bool := false
  bucket : Nat := 0
  rowFirst : Nat := 0
  deadline : Nat := 0
  nacc : Nat := 0
  path : List Nat := []
  masks : List Nat := []
  inputs : List Nat := []
  pendingFirst : Bool := false
  tree : List Nat := []
  draftFor : Option Nat := none
deriving DecidableEq, Repr

/-- The step in progress of a partition (09 R250 to R252). -/
structure Step where
  no : Nat
  entries : List Entry
  tLaunch : Nat
  ended : Bool := false
  tEnd : Nat := 0
  next : Nat := 0
  row : Nat := 0
  posted : Nat := 0
  events : List (BitVec 5) := []
  poison : List Bool := []
deriving DecidableEq, Repr

/-- A step record (09 R252). -/
structure StepRec where
  no : Nat
  code : Code := 0
  events : List (BitVec 5) := []
  poison : List Bool := []
  rows : Nat := 0
  posted : Nat := 0
  tLaunch : Nat := 0
  tEnd : Nat := 0
deriving DecidableEq, Repr

/-- The value of a node of a reduction over ranks (11 R307, R308): its elements in FP32, their poison, the conversion events so far. -/
structure Node where
  words : List Nat := []
  bad : List Bool := []
  ev : BitVec 5 := 0
deriving DecidableEq, Repr

/-- A request of the collective area that is read and not done (11 R301 to R306): its number, its 512 bits, which collective request of its
group it is (R303), whether its turn has come, whether its schedule is a ring (R309), and its input with the poisoned lines. Of a collective:
the ranks whose entry has come, the data packets written (rank, offset), the packets of transfers that are not whole yet, the nodes held
(chunk, level, first rank), the chunks whose result stands in the output, the writes not yet acknowledged (10 R277), the payload bytes and
what the record will report. Of a remote atomic: the points sent with their ports, and those whose result has returned. -/
structure CollReq where
  q : Nat
  req : BitVec 512
  k : Nat := 0
  started : Bool := false
  ring : Bool := false
  tStart : Nat := 0
  mine : List Byte := []
  mineBad : List Nat := []
  entered : List Nat := []
  got : List (Nat × Nat) := []
  rx : List CollPkt := []
  nodes : List (Nat × Nat × Nat × Node) := []
  finals : List Nat := []
  owed : Nat := 0
  bytesSent : Nat := 0
  bytesGot : Nat := 0
  ev : BitVec 5 := 0
  bad : Bool := false
  sent : List (Nat × Nat) := []
  back : List Nat := []
  stale : Bool := false
deriving DecidableEq, Repr

/-- A partition. -/
structure Part where
  st : PState := .absent
  cores : List Nat := []
  slices : List Nat := []
  chans : List Nat := []
  params : Params := {}
  ptab : List Pte := []
  pool : List Nat := []
  kvUse : Sp Nat := []
  kvFill : List Nat := []
  model : Option Model := none
  imageUse : Nat := 0
  launches : Nat := 0
  stepNo : Nat := 0
  step : Option Step := none
  kernel : Option Kernel := none
  haltRecs : List HaltRec := []
  stepRecs : List StepRec := []
  drainCut : Bool := false
  unmapVas : List Nat := []
  unmapping : Bool := false
  loading : Option (List Byte) := none
  repair : List Nat := []
  reload : List Nat := []
  weights : List Nat := []
  mirroring : Option (Bool × List (Nat × Nat)) := none
  buddy : Option Nat := none
  unprotected : Bool := false
  syncing : Bool := false
  collHead : Nat := 0
  collDone : Nat := 0
  coll : List CollReq := []
deriving DecidableEq, Repr

/-! ### Tenants, rings, sessions -/

/-- A tenant (09 R249); `next`: a RATE and BURST that take effect at the next boundary. -/
structure Tenant where
  rate : Nat := 0
  burst : Nat := 0
  bal : Int := 0
  slack : Nat := 0
  kvGuar : Nat := 0
  wasSet : Bool := false
  next : Option (Nat × Nat) := none
deriving DecidableEq, Repr

/-- The state of a ring (17 R431), codes 0 to 3. -/
inductive RState where
  | absent
  | disabled
  | enabled
  | error
deriving DecidableEq, Repr

/-- A completion entry that is decided and not yet placed (09 R242); TIME, LATE and PHASE are added when it is placed. `own`:
it concerns the session's open request; `mark`: it does not, and LAST_DONE follows it all the same. `need`: log entries that the buddy must have acknowledged before it (13 R347). -/
structure Post where
  sess : Nat
  code : Code := 0
  token : Option (Nat × Nat) := none
  final : Bool := false
  retry : Bool := false
  drafted : Bool := false
  reason : Nat := 0
  events : BitVec 5 := 0
  pos : Nat := 0
  gen : Nat := 0
  tag : BitVec 64 := 0
  detail : Nat := 0
  own : Bool := true
  mark : Bool := false
  need : Nat := 0
deriving DecidableEq, Repr

/-- A ring (09 R238, 17 R431, R435); `backlog` holds the entries that wait for room in a completion ring (R243). Counts are taken modulo 2^32 where they are compared. -/
structure Ring where
  st : RState := .absent
  completion : Bool := false
  fn : Nat := 0
  tenant : Nat := 0
  part : Nat := 0
  log2 : Nat := 4
  base : Nat := 0
  pair : Nat := 0
  vector : Nat := 0
  irqCount : Nat := 0
  irqTime : Nat := 0
  doorbell : BitVec 32 := 0
  consumed : BitVec 32 := 0
  posted : BitVec 32 := 0
  code : Code := 0
  ignored : BitVec 32 := 0
  sinceIrq : Nat := 0
  firstAt : Nat := 0
  backlog : List Post := []
deriving DecidableEq, Repr

/-- The state of a session (09 R233), codes 0 to 6. -/
inductive SState where
  | free
  | idle
  | queued
  | prefill
  | decode
  | sided
  | faulted
deriving DecidableEq, Repr

/-- The request work the Dispatcher holds for a session: input rows still to commit (tokens, or zeros for a feature model),
whether to generate, rows rebuilt so far, a CANCEL that waits for the end of the step, whether its final entry is decided;
and for a draft session the target whose rows are queued for it, and whether a step that is built or runs holds it (R260). -/
structure Work where
  inputs : List Nat := []
  generate : Bool := false
  rebuilt : Nat := 0
  cancel : Bool := false
  ending : Bool := false
  forTarget : Option Nat := none
  busy : Bool := false
deriving DecidableEq, Repr

/-- A kept list of a draft node with its weights (09 R260): tokens and FP32 probabilities. -/
structure DraftDist where
  node : Nat
  toks : List (Nat × BitVec 32)
deriving DecidableEq, Repr

/-- A session: the Session Table entry (09 R233), the token log (R236), the KV directory (08 R210) and its pages, and the
Dispatcher's work for it. -/
structure Sess where
  st : SState := .free
  part : Nat := 0
  tenant : Nat := 0
  draft : Bool := false
  mirror : Bool := false
  penInput : Bool := false
  opened : Bool := false
  faultCode : Code := 0
  compRing : Nat := 0
  deadline : Nat := 0
  lastDone : Nat := 0
  userTag : BitVec 64 := 0
  dirVa : Nat := 0
  link : Nat := 0
  logPtr : Nat := 0
  penPtr : Nat := 0
  logCap : Nat := 0
  pend : Option Nat := none
  genCount : Nat := 0
  maxNew : Nat := 0
  temp : BitVec 32 := 0
  topP : BitVec 32 := 0
  minP : BitVec 32 := 0
  rep : BitVec 32 := 0
  freq : BitVec 32 := 0
  pres : BitVec 32 := 0
  topK : Nat := 0
  penWindow : Nat := 0
  seed : BitVec 64 := 0
  stops : List (BitVec 32) := [0, 0, 0, 0]
  specNodes : Nat := 0
  parents : BitVec 60 := 0
  tokenSlack : Nat := 0
  tokensTotal : Nat := 0
  log : List Nat := []
  committed : Nat := 0
  keep : Nat := 0
  npages : Nat := 0
  maxPages : Nat := 0
  lists : List (List Nat) := []
  shadows : List (List Nat) := []
  nacc : Nat := 0
  path : List Nat := []
  work : Work := {}
  dirSize : Nat := 0
  tree : List Nat := []
  treeDepth : Nat := 0
  dists : List DraftDist := []
  skipSpec : Bool := false
  mirLive : Bool := false
  mirSent : Nat := 0
  mirAcked : Nat := 0
  mirRows : Nat := 0
  held : List Post := []
deriving DecidableEq, Repr

/-! ### Host interface and sideband -/

/-- SV_CMO of a function (17 R431); `run`: the DPA and the bytes of the operation that runs. -/
structure Cmo where
  base : BitVec 64 := 0
  lines : BitVec 64 := 0
  tag : BitVec 32 := 0
  code : Code := 0
  op : Nat := 0
  st : Nat := 0
  written : Nat := 0
  dropped : Nat := 0
  run : Option (Nat × Nat) := none
deriving DecidableEq, Repr

/-- The host-facing state of one function (17 R429, R431). -/
structure HostFn where
  status : BitVec 8 := 0
  imask : BitVec 8 := 0xFF
  evcnt : Sp (BitVec 32) := []
  herrCount : BitVec 32 := 0
  herrValid : Bool := false
  herrWrite : Bool := false
  herrBar : Nat := 0
  herrCode : Code := 0
  herrAddr : BitVec 64 := 0
  cmo : Cmo := {}
  msix : Sp (BitVec 128) := []
  msixPend : List Nat := []
  /-- A VF's BAR4 holds 2^n GiB (17 R420). -/
  bar4 : Nat := 9
deriving DecidableEq, Repr

/-- The host interface and the sideband pins (17). Levels: true is high. `ringNext`: where the rotation over the submission rings
goes on (09 R245). -/
structure HostIf where
  fns : Sp HostFn := []
  ringNext : Nat := 0
  pevt : BitVec 16 := 0
  pevcnt : Sp (BitVec 32) := []
  vfwin : Sp Nat := []
  mismatch : BitVec 3 := 0
  sbcnt : Sp (BitVec 32) := []
  linkUp : Bool := true
  thStatus : BitVec 4 := 0
  thEvcnt : Sp (BitVec 32) := []
  jnEvt : BitVec 19 := 0
  jnEvcnt : Sp (BitVec 32) := []
  perstHigh : Bool := true
  pwrbrkHigh : Bool := true
  thermDrive : Bool := false
  alertAon : Bool := false
  levels : BitVec 5 := 0b11111
  highRuns : Sp Nat := []
deriving DecidableEq, Repr

/-- The MCTP endpoint and the SPDM responder (17 R437 to R439). -/
structure Side where
  eid : Nat := 0
  i3c : Option Nat := none
  spdmVersion : Nat := 0
  spdmCaps : Bool := false
  spdmAlgs : Bool := false
  transcript : List Byte := []
  nonces : Nat := 0
deriving DecidableEq, Repr

/-! ### Signal Box and Interlocking -/

/-- An event record (14 R375). -/
structure EvRec where
  code : Code
  completion : Bool := false
  unitKind : Nat := 0
  unit : Nat := 0
  op : Nat := 0
  opcode : Nat := 0
  reqSeq : BitVec 32 := 0
  evtSeq : Nat := 0
  time : Nat := 0
  detail : BitVec 256 := 0
deriving DecidableEq, Repr

/-- A response (14 R364), header fields and payload. -/
structure Rsp where
  rstate : Nat := 0
  degraded : Bool := false
  owner : Nat := 0
  code : Code := 0
  seq : BitVec 32 := 0
  opcode : Nat := 0
  leaseMs : Nat := 0
  payload : List Byte := []
deriving DecidableEq, Repr

/-- One of the three mailbox pairs (14 R361, R362) with the master's flags, counters and event queue (R370, R375): the request in
progress and the owner's kind at its submission, the response as it reads, and the last Ready request with its stored response. -/
structure Mailbox where
  busy : Bool := false
  req : List Byte := []
  owned : Nat := 0
  rsp : Rsp := {}
  last : List Byte := []
  lastRsp : Rsp := {}
  flags : BitVec 8 := 0
  cnt : Sp (BitVec 32) := []
  events : List EvRec := []
  evtSeq : Nat := 0
deriving DecidableEq, Repr

/-- A long operation (14 R366): its number, its partition, its issuer, and its request's SEQ, opcode and payload. -/
structure LongOp where
  op : Nat
  part : Option Nat
  master : Nat
  seq : BitVec 32
  opcode : Nat
  arg : List Byte := []
deriving DecidableEq, Repr

/-- An error record (12 R332). -/
structure ErrRec where
  code : Code
  kind : Nat
  foundBy : Nat
  cls : Nat := 0
  action : Nat := 0
  corrected : Nat := 0
  uncorrectable : Bool := false
  unit : Nat := 0
  bank : Nat := 0
  rowSet : Nat := 0
  lineWay : Nat := 0
  part : Option Nat := none
  weight : Bool := false
  dpa : Nat := 0
  byteNo : Nat := 0
  syndrome : BitVec 64 := 0
  time : Nat := 0
  seq : Nat := 0
deriving DecidableEq, Repr

/-- The Signal Box (13 R354, R358, R359; 14). -/
structure SigBox where
  degraded : Bool := false
  restarting : Bool := false
  restarts : List Nat := []
  wdogBroken : Bool := false
  checkGroup : Nat := 0
  opNext : Nat := 1
  ops : List LongOp := []
  host : Mailbox := {}
  bmc : Mailbox := {}
  fm : Mailbox := {}
  reqBuf : Sp Byte := []
  bmcEid : Option (Medium × Nat) := none
  errRecs : List ErrRec := []
  errSeq : Nat := 0
  /-- Ifewin has written every location of its tightly coupled RAM (12 R323). -/
  ramWritten : Bool := false
deriving DecidableEq, Repr

/-- The state of the Interlocking (14 R371), codes 0 to 2. -/
inductive LockState where
  | unowned
  | owned
  | offered
deriving DecidableEq, Repr

/-- The Interlocking (14 R369, R371, R373). -/
structure Interlock where
  st : LockState := .unowned
  owner : Nat := 0
  offerTo : Nat := 0
  leaseEnd : Nat := 0
  offerEnd : Nat := 0
  warned : Bool := false
deriving DecidableEq, Repr

/-! ### Fabric -/

/-- The state of a Junction port (11 R285), codes 0 to 8. -/
inductive PortState where
  | disabled
  | training
  | up8
  | up6
  | up4
  | restriping
  | down
  | incompatible
  | conflict
deriving DecidableEq, Repr

/-- A slot of a codeword (11 R283, R284): the header of a packet, 64 bytes of its data, or what the two ends of a link exchange themselves. -/
inductive Slot where
  | head (k : Packet)
  | data (bytes : List Byte)
  | link (what : String) (data : List Byte)
deriving DecidableEq, Repr

/-- A codeword: its link sequence number and up to ten slots (11 R282, R284). -/
structure Codeword where
  seq : Nat
  slots : List Slot
deriving DecidableEq, Repr

/-- A Junction port (11 R285 to R289, 17 R433): the free credits of the partner's receiver per virtual channel (R283), and the sequence number
and last 1,024 codewords of its sender (R284). -/
structure Port where
  st : PortState := .disabled
  enabled : Bool := true
  good : BitVec 8 := 0
  partner : BitVec 256 := 0
  level : Nat := 0
  corr : Nat := 0
  replays : Nat := 0
  restripes : Nat := 0
  sameReplay : Nat := 0
  lastSeq : Nat := 0
  credit : Sp Nat := []
  txSeq : Nat := 0
  tx : List Codeword := []
  /-- Ifewin has written every location of the port's receive buffer (12 R323). -/
  bufWritten : Bool := false
deriving DecidableEq, Repr

/-- The state of a collective group (14 R385), codes 0 to 2. -/
inductive GState where
  | forming
  | formed
  | broken
deriving DecidableEq, Repr

/-- A collective group (11 R299, R300), while its list is being received (`complete` false) and after; how many collective requests the
member has made of it, and the packets that came for one whose turn has not come (R303). -/
structure Group where
  st : GState := .forming
  part : Nat := 0
  key : BitVec 64 := 0
  total : Nat := 0
  timeout : Nat := 0
  members : List (Nat × Nat) := []
  complete : Bool := false
  answered : List Nat := []
  rank : Nat := 0
  level : Nat := 1
  dueAt : Nat := 0
  op : Nat := 0
  count : Nat := 0
  early : List (Nat × Nat × CollPkt) := []
deriving DecidableEq, Repr

/-- A watched peer (11 R291): identity and the time of its last keepalive. -/
structure Peer where
  ident : Nat
  last : Nat
  dead : Bool := false
deriving DecidableEq, Repr

/-- A session copy held in a granted mirror region (13 R346). -/
structure MirCopy where
  src : Nat
  spart : Nat
  session : Nat
  model : BitVec 64
  settings : List Byte
  log : List Nat
deriving DecidableEq, Repr

/-- The Junction side of the device (11). -/
structure Fabric where
  ident : BitVec 16 := 0
  assigned : Bool := false
  routes : Sp (BitVec 32) := []
  ports : Sp Port := []
  role : Nat := 0
  timeState : Nat := 0
  stratum : Nat := 15
  masterId : Nat := 0
  timeSet : Bool := false
  lastLower : Nat := 0
  stepped : Bool := false
  slew : Int := 0
  groups : List (Nat × Group) := []
  peers : List Peer := []
  copies : List MirCopy := []
deriving DecidableEq, Repr

/-! ### Power and heat -/

/-- What a group's throttling state is (16 R417), codes 0 to 5. -/
structure DutyGroup where
  /-- d × 50, from 10 to 50 (16 R407). -/
  duty : Nat := 50
  heat : Bool := false
  power : Bool := false
  floorSince : Option Nat := none
  floorTold : Bool := false
  stepsDown : Nat := 0
deriving DecidableEq, Repr

/-- A diode (16 R405). -/
structure Diode where
  reading : Int := 400
  healthy : Bool := true
  misses : Nat := 0
deriving DecidableEq, Repr

/-- Power and heat (16). Temperatures are in 1/16 degree, powers in mW; `samples`: the last 100 samples of the 498 domains; `offsets`
in 1/160 degree by region; `clamp`: the factor that acts, in thousandths; the ticks: periods of 10 µs or 1 ms passed at the last
sample, model update, diode check and duty tick. -/
structure Heat where
  samples : List (List Nat) := []
  sampleTick : Nat := 0
  modelTick : Nat := 0
  diodeTick : Nat := 0
  dutyTick : Nat := 0
  nodes : Sp Int := []
  diodes : Sp Diode := []
  offsets : Sp Int := []
  suspect : List Nat := []
  groups : Sp DutyGroup := []
  clamp : Option Nat := none
  clampOkSince : Option Nat := none
  brake : Bool := false
  stopping : Bool := false
  hotStacks : List Nat := []
  limit : Option Nat := none
deriving DecidableEq, Repr

/-! ### Messages sent, and the state -/

/-- What the device sends to the outside (the model's own record of its outputs, newest last; log entry 17). -/
inductive Out where
  | msix (fn : Nat) (vector : Nat)
  | completion (ring : Nat) (addr : Nat) (entry : List Byte)
  | readData (fn : Nat) (data : List Byte) (ep : Bool)
  | mctp (via : Via) (payload : List Byte)
  | bmcEvent (ev : EvRec)
  | bmcNotice (flag : Nat)
  | fmNotice (ident : Nat) (flag : Nat)
  | link (port : Nat) (what : String) (data : List Byte)
  | packet (port : Option Nat) (pkt : Packet)
  | codeword (port : Nat) (word : Codeword)
  | rsp (master : Nat) (r : Rsp)
deriving DecidableEq, Repr

/-- The whole device, and the queue of commands that wait. -/
structure State where
  pending : List Instr := []
  /-- The model's own counter of free values drawn (log entry 6). -/
  free : Nat := 0
  ftime : Nat := 0
  /-- The last 1 ms boundary at which balances were refilled (09 R249). -/
  epoch : Nat := 0
  fuse : Fuses := {}
  boot : Boot := {}
  cfg : CfgStore := {}
  fw : Firmware := {}
  units : Units := {}
  mem : Mem := {}
  cache : Cache := {}
  chans : Sp Chan := []
  cores : Sp Core := []
  parts : Sp Part := []
  tens : Sp Tenant := []
  rings : Sp Ring := []
  sess : Sp Sess := []
  host : HostIf := {}
  side : Side := {}
  sb : SigBox := {}
  lock : Interlock := {}
  fab : Fabric := {}
  heat : Heat := {}
  report : List Byte := []
  hostMem : List Host.Cell := []
  out : List Out := []
deriving DecidableEq, Repr

/-- The device right after a power-on reset: supplies good, PERST_N released, the start of 15 R390 about to run; nothing
waits (log entry 9). Every field has the reset value of INVENTORY.md. -/
def State.reset : State := {}

end Sys2Proof.Machine
end

