-- ==== Sys2Proof/Machine/Check.lean ====
section
/-!
DEFINITION. The check codes of 12: the extended Hamming code of an SRAM byte, the Reed-Solomon code of a stack line with the
address folded in, their poison markers and their decoders. Stored check bits are kept in State as the difference (XOR) from
the valid ones, so that a difference of zero is a good word.
-/

namespace Sys2Proof.Machine

/-! ### The byte code (12 R314 to R316) -/

/-- The XOR of the listed bits of a byte. -/
def xorBits (d : Byte) (l : List Nat) : Bool := l.foldl (fun a i => a != d.getLsbD i) false

/-- The valid check bits c4..c0 of a byte (R314). -/
def byteCheck (d : Byte) : BitVec 5 :=
  let c0 := xorBits d [0, 1, 3, 4, 6]
  let c1 := xorBits d [0, 2, 3, 5, 6]
  let c2 := xorBits d [1, 2, 3, 7]
  let c3 := xorBits d [4, 5, 6, 7]
  let c4 := [c0, c1, c2, c3].foldl (fun a b => a != b) (xorBits d [0, 1, 2, 3, 4, 5, 6, 7])
  BitVec.ofNat 5 (b2n c0 + 2 * b2n c1 + 4 * b2n c2 + 8 * b2n c3 + 16 * b2n c4)

/-- The poison marker of a byte, as a difference (R316). -/
def bytePoison : BitVec 5 := 0b01101

/-- The difference stored for a byte that is or is not poisoned. -/
def byteMark (p : Bool) : BitVec 5 := if p then bytePoison else 0

/-- What a read of a byte finds (R315). -/
inductive ByteOutcome where
  | good
  | corrected (d : Byte)
  | poison
  | uncorrectable
deriving DecidableEq, Repr

/-- The data bit at a Hamming position, if it is a data bit (R314). -/
def hamBit (pos : Nat) : Option Nat := indexOf pos [3, 5, 6, 7, 9, 10, 11, 12]

/-- The syndrome s of a difference. -/
def byteS (delta : BitVec 5) : Nat := delta.toNat % 16

/-- The overall parity p of a difference: the parity of its five bits, a valid word having even parity. -/
def byteP (delta : BitVec 5) : Bool := [0, 1, 2, 3, 4].foldl (fun a i => a != delta.getLsbD i) false

/-- The checker of R315 on a byte with its stored difference. -/
def byteDecode (d : Byte) (delta : BitVec 5) : ByteOutcome :=
  let s := byteS delta
  let p := byteP delta
  if !p then (if s = 0 then .good else .uncorrectable)
  else if s = 0 then .corrected d
  else if s ≤ 12 then
    match hamBit s with
    | some i => .corrected (d ^^^ BitVec.ofNat 8 (2 ^ i))
    | none => .corrected d
  else if s = 13 then .poison
  else .uncorrectable

/-- The SYNDROME field of a byte-code record: s and p (R332). -/
def byteSyn (delta : BitVec 5) : BitVec 64 := BitVec.ofNat 64 (byteS delta + 16 * b2n (byteP delta))

/-! ### The line code (12 R317 to R320) -/

/-- Multiplication by α = 0x02 modulo x^8 + x^4 + x^3 + x^2 + 1 (R317). -/
def gfX2 (a : Nat) : Nat := if 128 ≤ a then (2 * a) ^^^ 0x11D else 2 * a

/-- Multiplication in GF(2^8), bits of b from the lowest, fuel 8. -/
def gfMulF : Nat → Nat → Nat → Nat
  | 0, _, _ => 0
  | k + 1, a, b => (if b % 2 = 1 then a else 0) ^^^ gfMulF k (gfX2 a) (b / 2)

/-- Multiplication in GF(2^8). -/
def gfMul (a b : Nat) : Nat := gfMulF 8 a b

/-- a^n in GF(2^8). -/
def gfPow (a : Nat) : Nat → Nat
  | 0 => 1
  | n + 1 => gfMul a (gfPow a n)

/-- The inverse a^254. -/
def gfInv (a : Nat) : Nat := gfPow a 254

/-- α^n. -/
def alpha (n : Nat) : Nat := gfPow 2 (n % 255)

/-- The generator's coefficients g0..g7 (g8 = 1), the product of (x − α^i) for i from 0 to 7 (R317). -/
def rsGen : List Nat :=
  (List.range 8).foldl (fun p i => (List.zipWith (fun a b => a ^^^ gfMul (alpha i) b) (0 :: p) (p ++ [0]))) [1]

/-- One step of the division by g: the next message symbol, highest first. -/
def rsStep (r : List Nat) (m : Nat) : List Nat :=
  let f := (r.getLast?.getD 0) ^^^ m
  List.zipWith (fun a g => a ^^^ gfMul f g) (0 :: r.dropLast) (rsGen.take 8)

/-- The valid check bytes C0 to C7 of 64 data bytes at line address la (R317, R318). -/
def rsCheck (data : List Byte) (la : Nat) : List Byte :=
  let syms := (data.map (·.toNat)) ++ (leBytes la 5).map (·.toNat)
  (syms.reverse.foldl rsStep (List.replicate 8 0)).map (BitVec.ofNat 8)

/-- The marker K of R320, C0 first, as a difference. -/
def linePoison : BitVec 64 := 0x3CA569F00F965AC3

/-- The difference stored for a line that is or is not poisoned. -/
def lineMark (p : Bool) : BitVec 64 := if p then linePoison else 0

/-- The syndromes S0 to S7 of a difference: its polynomial at α^0 to α^7. -/
def rsSyndromes (delta : BitVec 64) : List Nat :=
  let cs := (leBytes delta.toNat 8).map (·.toNat)
  (List.range 8).map (fun j => cs.foldr (fun c a => c ^^^ gfMul (alpha j) a) 0)

/-- The SYNDROME field of a line-code record: S0 lowest (R332). -/
def lineSyn (delta : BitVec 64) : BitVec 64 := BitVec.ofNat 64 (ofLe ((rsSyndromes delta).map (BitVec.ofNat 8)))

/-- One located error of value v at position p: S_j = v α^(jp). -/
def oneError (ss : List Nat) (p : Nat) : Bool :=
  let v := ss.headD 0
  (v != 0) && (List.range 8).all (fun j => (ss[j]?).getD 0 == gfMul v (alpha (j * p)))

/-- Two located errors at p < q: their values solve S0 and S1, and must fit S2 to S7. -/
def twoErrors (ss : List Nat) (p q : Nat) : Option (Nat × Nat) :=
  let x := alpha p
  let y := alpha q
  let s0 := (ss[0]?).getD 0
  let s1 := (ss[1]?).getD 0
  let v := gfMul (s1 ^^^ gfMul s0 x) (gfInv (x ^^^ y))
  let u := s0 ^^^ v
  if u != 0 && v != 0 && (List.range 8).all (fun j =>
      (ss[j]?).getD 0 == (gfMul u (alpha (j * p)) ^^^ gfMul v (alpha (j * q)))) then some (u, v) else none

/-- What a read of a line finds (R319); a correction is a list of (position, value) among positions 0 to 71. -/
inductive LineOutcome where
  | good
  | poison
  | corrected (errs : List (Nat × Nat))
  | misaddress
  | uncorrectable
deriving DecidableEq, Repr

/-- The positions of a codeword: 0 to 7 check, 8 to 71 data, 72 to 76 address (R317). -/
def rsPositions : List Nat := List.range 77

/-- The one- or two-error pattern that the syndromes locate, if any; the code's distance makes it unique. -/
def rsLocate (ss : List Nat) : Option (List (Nat × Nat)) :=
  match rsPositions.find? (oneError ss) with
  | some p => some [(p, ss.headD 0)]
  | none =>
    (rsPositions.findSome? (fun p => (rsPositions.filter (fun q => decide (p < q))).findSome? (fun q =>
      (twoErrors ss p q).map (fun uv => [(p, uv.1), (q, uv.2)]))))

/-- The decoder of R319 on a stored difference: the marker first, then the code. -/
def lineDecode (delta : BitVec 64) : LineOutcome :=
  if delta = 0 then .good
  else if delta = linePoison then .poison
  else match rsLocate (rsSyndromes delta) with
    | none => .uncorrectable
    | some es => if es.any (fun e => decide (72 ≤ e.1)) then .misaddress else .corrected es

/-- The data with the located errors removed. -/
def applyFix (data : List Byte) (es : List (Nat × Nat)) : List Byte :=
  es.foldl (fun d e => if 8 ≤ e.1 then d.modify (e.1 - 8) (fun b => b ^^^ BitVec.ofNat 8 e.2) else d) data

end Sys2Proof.Machine
end

