-- ==== Sys2Proof/Machine/Flags.lean ====
section
/-!
DEFINITION. Every flag and event counter of the device: the hardware set and the W1C clear of a flag (00 R10), the masters'
flags and event queues (14 R370, R375), HI_STATUS and the flags it summarises (17 R429, R432, R433), MSI-X messages (17
R427), the record of a refused host access (17 R425), and the error records of 12 R332.
-/

namespace Sys2Proof.Machine

/-- One more hardware set counted, modulo 2^32 (00 R10, 14 R370). -/
def bump (m : Sp (BitVec 32)) (b : Nat) : Sp (BitVec 32) := spMod 0 m b (· + 1)

/-- The bit of number b. -/
def bitOf (w b : Nat) : BitVec w := BitVec.ofNat w (2 ^ b)

/-- A W1C clear (00 R9): ones clear, zeros leave. -/
def w1c {w : Nat} (flags mask : BitVec w) : BitVec w := flags &&& ~~~mask

/-- A message the device sends to the outside. -/
def emit (o : Out) (s : State) : State := { s with out := s.out ++ [o] }

/-! ### Functions of the host interface -/

/-- The host-facing state of function f. -/
def getFn (s : State) (f : Nat) : HostFn := spGet {} s.host.fns f

/-- Changing it. -/
def modFn (f : Nat) (g : HostFn → HostFn) (s : State) : State :=
  { s with host := { s.host with fns := spMod {} s.host.fns f g } }

/-- The host reaches the device: the link is up and the PCIe domain on (01 R27). -/
def hostUp (s : State) : Bool := s.host.linkUp && !s.boot.pcieOff

/-- The reset value of an MSI-X table entry: address and data 0, Mask Bit 1 (PCIe's value; log entry 20). -/
def msixReset : BitVec 128 := BitVec.ofNat 128 (2 ^ 96)

/-- An MSI-X table entry. -/
def msixEntry (s : State) (f v : Nat) : BitVec 128 := spGet msixReset (getFn s f).msix v

/-- Sending vector v of function f: a masked vector is pended, not lost (17 R427). -/
def msix (f v : Nat) (s : State) : State :=
  if (msixEntry s f v).toNat.testBit 96 then
    modFn f (fun h => { h with msixPend := if mem v h.msixPend then h.msixPend else h.msixPend ++ [v] }) s
  else emit (.msix f v) s

/-- The vector of HI_STATUS in a function (17 R427). -/
def hiVector (f : Nat) : Nat := if f = 0 then 1 else 0

/-- A hardware set of HI_STATUS flag b of function f: counted, and signalled when the flag becomes set unmasked. -/
def hiSet (f b : Nat) (s : State) : State :=
  let h := getFn s f
  let s1 := modFn f (fun h => { h with status := h.status ||| bitOf 8 b, evcnt := bump h.evcnt b }) s
  if !h.status.getLsbD b && !h.imask.getLsbD b then msix f (hiVector f) s1 else s1

/-- A set of HI_PEVT bit p (17 R429: partition p's event interrupt). -/
def pevtSet (p : Nat) (s : State) : State :=
  let was := s.host.pevt.getLsbD p
  let s1 := { s with host := { s.host with pevt := s.host.pevt ||| bitOf 16 p, pevcnt := bump s.host.pevcnt p } }
  if was then s1 else hiSet 0 3 s1

/-- A set of TH_STATUS bit b (17 R432). -/
def thSet (b : Nat) (s : State) : State :=
  let was := s.host.thStatus.getLsbD b
  let s1 := { s with host := { s.host with thStatus := s.host.thStatus ||| bitOf 4 b, thEvcnt := bump s.host.thEvcnt b } }
  if was then s1 else hiSet 0 5 s1

/-- A set of JN_EVT bit b (17 R433). -/
def jnSet (b : Nat) (s : State) : State :=
  let was := s.host.jnEvt.getLsbD b
  let s1 := { s with host := { s.host with jnEvt := s.host.jnEvt ||| bitOf 19 b, jnEvcnt := bump s.host.jnEvcnt b } }
  if was then s1 else hiSet 0 6 s1

/-- A set of HI_SIDEBAND mismatch k (17 R442). -/
def mismatchSet (k : Nat) (s : State) : State :=
  let was := s.host.mismatch.getLsbD k
  let s1 := { s with host := { s.host with mismatch := s.host.mismatch ||| bitOf 3 k, sbcnt := bump s.host.sbcnt k } }
  if was then s1 else hiSet 0 7 s1

/-- A refused access of function f (17 R425, R429): HI_HERR takes the first refusal while VALID, COUNT counts all, HOST_ERR
is set. `bar` is 0 BAR0, 1 BAR2, 2 BAR4. -/
def hostErr (f : Nat) (write : Bool) (bar : Nat) (code : Code) (addr : Nat) (s : State) : State :=
  hiSet f 1 (modFn f (fun h =>
    let h1 := { h with herrCount := h.herrCount + 1 }
    if h.herrValid then h1
    else { h1 with herrValid := true, herrWrite := write, herrBar := bar, herrCode := code, herrAddr := BitVec.ofNat 64 addr }) s)

/-- A 1 written to an RSV bit of function f (00 R9). -/
def rsvWrite (f : Nat) (s : State) : State := hiSet f 0 s

/-! ### Masters: flags and event queues -/

/-- The mailbox of a master kind: 1 host, 2 board management controller, 3 fabric manager (14 R361). -/
def getBox (s : State) (m : Nat) : Mailbox := if m = 1 then s.sb.host else if m = 2 then s.sb.bmc else s.sb.fm

/-- Changing it. -/
def modBox (m : Nat) (g : Mailbox → Mailbox) (s : State) : State :=
  if m = 1 then { s with sb := { s.sb with host := g s.sb.host } }
  else if m = 2 then { s with sb := { s.sb with bmc := g s.sb.bmc } }
  else { s with sb := { s.sb with fm := g s.sb.fm } }

/-- A port is Up. -/
def portUp (x : Port) : Bool := x.st == .up8 || x.st == .up6 || x.st == .up4

/-- Some port carries the fabric manager's management channel: one that is Up or in Conflict (11 R285). -/
def managed (s : State) : Bool := s.fab.ports.any (fun e => portUp e.2 || e.2.st == .conflict)

/-- The notification of a flag that became set (14 R370). -/
def notify (m b : Nat) (s : State) : State :=
  if m = 1 then msix 0 0 s
  else if m = 2 then emit (.bmcNotice b) s
  else if managed s then emit (.fmNotice s.cfg.policy.fmId.toNat b) s else s

/-- A hardware set of flag b of master m (14 R370). -/
def sbSet (m b : Nat) (s : State) : State :=
  let was := (getBox s m).flags.getLsbD b
  let s1 := modBox m (fun x => { x with flags := x.flags ||| bitOf 8 b, cnt := bump x.cnt b }) s
  if was then s1 else notify m b s1

/-- The owner's master kind; 0 none (14 R364). -/
def ownerKind (s : State) : Nat := if s.lock.st = .unowned then 0 else s.lock.owner

/-- A record entered in one master's queue (14 R375): the queue keeps 256, and an overwritten record sets EVENT_LOST. -/
def enqueue (m : Nat) (ev : EvRec) (s : State) : State :=
  let x := getBox s m
  let ev1 := { ev with evtSeq := x.evtSeq + 1, time := s.ftime }
  let s1 := modBox m (fun x => { x with events := lastN 256 (x.events ++ [ev1]), evtSeq := x.evtSeq + 1 }) s
  let s2 := if 256 ≤ x.events.length then sbSet m 2 s1 else s1
  let s3 := if m = 2 then emit (.bmcEvent ev1) s2 else s2
  sbSet m 3 s3

/-- Codes that every master receives (14 R375), the completions of its own operations aside. -/
def everyMaster (c : Code) : Bool :=
  decide (0x0520 ≤ c ∧ c ≤ 0x0522) || c == 0x2250 || c == 0x5201 || c == 0x5240

/-- Whether master m receives a record of code c, the issuer's own completions aside (14 R375). -/
def addressed (s : State) (c : Code) (m : Nat) : Bool :=
  (ownerKind s == m) || everyMaster c ||
  (m == 3 && (decide (c / 0x1000 = 3) || decide (0x0300 ≤ c ∧ c ≤ 0x03FF))) ||
  (m == 2 && decide (c / 0x1000 = 6))

/-- A record posted through the event path: to every master R375 names, and to the masters `also`. -/
def postRec (ev : EvRec) (also : List Nat) (s : State) : State :=
  [1, 2, 3].foldl (fun t m => if addressed s ev.code m || mem m also then enqueue m ev t else t) s

/-- A plain event: code, unit kind and number (14 R375). -/
def post (code : Code) (kind unit : Nat) (s : State) : State := postRec { code := code, unitKind := kind, unit := unit } [] s

/-- An event with a DETAIL. -/
def postD (code : Code) (kind unit : Nat) (detail : BitVec 256) (s : State) : State :=
  postRec { code := code, unitKind := kind, unit := unit, detail := detail } [] s

/-- Partition p's event interrupt with its event (17 R429). -/
def partEvent (p : Nat) (code : Code) (s : State) : State := post code 5 p (pevtSet p s)

/-- The final record of a long operation: to its issuer and to the owner (14 R366, R373). -/
def opRecord (o : LongOp) (code : Code) (detail : BitVec 256) (s : State) : State :=
  postRec { code := code, completion := true, unitKind := if o.part.isSome then 5 else 0, unit := o.part.getD 0, op := o.op,
            opcode := o.opcode, reqSeq := o.seq, detail := detail } [o.master] s

/-- A long operation ends: it leaves the table and its record is posted. -/
def opDone (o : LongOp) (code : Code) (detail : BitVec 256) (s : State) : State :=
  opRecord o code detail { s with sb := { s.sb with ops := s.sb.ops.filter (fun x => x.op != o.op) } }

/-! ### Error records (12 R332) -/

/-- The unit kind of an event about an error record of a kind: DRAM channel, cache slice, core. -/
def errUnitKind (k : Nat) : Nat :=
  if k = 0 then 3 else if k = 1 ∨ k = 2 then 2 else if k = 3 ∨ k = 4 then 1 else 0

/-- An error record is written: SEQ counted, the last 1,024 kept, INT_RECORD set, and its code posted; DETAIL holds the SEQ
for class 0x2 (12 R332, 14 R375). -/
def recordErr (r : ErrRec) (s : State) : State :=
  let n := s.sb.errSeq + 1
  let r1 := { r with seq := n, time := s.ftime }
  let s1 := { s with sb := { s.sb with errSeq := n, errRecs := lastN 1024 (s.sb.errRecs ++ [r1]) } }
  let d : BitVec 256 := if r.code / 0x1000 = 2 then BitVec.ofNat 256 n else 0
  postD r.code (errUnitKind r.kind) r.unit d (hiSet 0 4 s1)

/-- Management enters degraded mode (13 R359). -/
def goDegraded (s : State) : State :=
  if s.sb.degraded then s
  else [1, 2, 3].foldl (fun t m => sbSet m 6 t) (post 0x5201 0 0 { s with sb := { s.sb with degraded := true } })

/-- A read of a location of Ifewin's RAM or of a Junction receive buffer that was not written yet reported an uncorrectable error: the error is
recorded, and Ifewin takes it as its own fault (12 R323). KIND 5 is the RAM, 6 the buffer of a port. -/
def unwrittenRead (kind n by_ : Nat) (s : State) : State :=
  goDegraded (recordErr { code := 0x2210, kind := kind, foundBy := by_, cls := 4, unit := n, uncorrectable := true } s)

/-- The 512 bits of an error record (12 R332). -/
def ErrRec.toNat (r : ErrRec) : Nat :=
  put (r.seq % 2 ^ 32) 288 + put r.time 224 + put r.syndrome.toNat 160 + put r.byteNo 144 + put r.dpa 96 + put (b2n r.weight) 85
  + put (b2n r.part.isSome) 84 + put (r.part.getD 0) 80 + put r.lineWay 68 + put r.rowSet 54 + put r.bank 48 + put r.unit 40
  + put (b2n r.uncorrectable) 34 + put r.corrected 32 + put r.action 28 + put r.cls 24 + put r.foundBy 20 + put r.kind 16 + r.code

/-- The 512 bits of an event record (14 R375). -/
def EvRec.toNat (e : EvRec) : Nat :=
  put e.detail.toNat 256 + put e.time 192 + put e.evtSeq 128 + put e.reqSeq.toNat 96 + put e.opcode 80 + put e.op 64
  + put e.unit 48 + put e.unitKind 44 + put (b2n e.completion) 16 + e.code

end Sys2Proof.Machine
end

