-- ==== Sys2Proof/Machine/Reserve.lean ====
section
/-!
DEFINITION. The device reserve (03 R65): where the Session Table, the token logs, the penalty count tables and the Dispatcher's working
state lie in frame rows 0 to 15, and the bytes that these records have there (09 R232, R233, R236, R237). The state holds a session once,
in State.sess; its records in stack memory are read from there (log entry 57).
-/

namespace Sys2Proof.Machine

/-! ### The Session Table entry (09 R233) -/

/-- The code of a session state. -/
def SState.code : SState → Nat
  | .free => 0
  | .idle => 1
  | .queued => 2
  | .prefill => 3
  | .decode => 4
  | .sided => 5
  | .faulted => 6

/-- The 2,048 bits of a Session Table entry. -/
def Sess.toNat (x : Sess) : Nat :=
  if x.st = .free then 0
  else
    put (x.tokensTotal % 2 ^ 64) 1152 + put x.tokenSlack 1120 + put x.parents.toNat 1032 + put x.specNodes 1024
    + put (ofLe (x.stops.flatMap (fun t => leBytes t.toNat 4))) 896 + put x.seed.toNat 832 + put x.penWindow 811 + put x.topK 800
    + put x.pres.toNat 768 + put x.freq.toNat 736 + put x.rep.toNat 704 + put x.minP.toNat 672 + put x.topP.toNat 640
    + put x.temp.toNat 608 + put x.maxNew 576 + put (x.genCount % 2 ^ 32) 544 + put (x.pend.getD 0xFFFFFFFF) 512 + put x.logCap 480
    + put x.log.length 448 + put x.penPtr 384 + put x.logPtr 320 + put x.link 304 + put x.dirVa 256 + put x.userTag.toNat 192
    + put (x.lastDone % 2 ^ 64) 128 + put (x.deadline % 2 ^ 64) 64 + put x.compRing 48 + put x.faultCode 32 + put (b2n x.opened) 23
    + put (b2n x.penInput) 22 + put (b2n x.mirror) 21 + put (b2n x.draft) 20 + put x.tenant 8 + put x.part 4 + x.st.code

/-! ### Penalty counts (09 R237) -/

/-- The log positions that the penalties of a session cover, with their entries. -/
def penWindowOf (x : Sess) : List Nat := lastN x.penWindow x.log

/-- A log entry counts: sampled and accepted tokens, and inputs when PEN_INPUT is 1. -/
def penCounts (x : Sess) (e : Nat) : Bool := let k := fld e 19 18; k == 1 || k == 2 || (k == 0 && x.penInput)

/-- The count of a token in the window. -/
def penCount (x : Sess) (t : Nat) : Nat := ((penWindowOf x).filter (fun e => penCounts x e && fld e 17 0 == t)).length

/-- The distinct tokens that count. -/
def penTokens (x : Sess) : List Nat := dedup (((penWindowOf x).filter (penCounts x)).map (fun e => fld e 17 0))

/-- The penalty count table of a session: its 64-byte header with N_DISTINCT and WSTART, and its 4,096 entries of a token and its count;
their order is free of effect. -/
def penTable (x : Sess) : List Byte :=
  let ts := penTokens x
  leBytes (put (x.log.length - x.penWindow) 32 + ts.length) 64
    ++ (List.range 4096).flatMap (fun i => match ts[i]? with
      | some t => leBytes (put (penCount x t) 18 + t) 4
      | none => [0, 0, 0, 0])

/-! ### Where the records lie -/

/-- The bytes of the reserve: 32 MiB at each of 256 homes, taken one after another. -/
def reserveSize : Nat := 2 ^ 33

/-- The DPA of a byte of the reserve. -/
def reserveDpa (lin : Nat) : Nat := lin % reserveSize / 2 ^ 25 * 0x60000000 + lin % 2 ^ 25

/-- The place in the reserve of a DPA of frame rows 0 to 15. -/
def reserveLin (dpa : Nat) : Nat := dpa / 0x60000000 * 2 ^ 25 + dpa % 0x60000000

/-- Where record k starts: 0 the Session Table, 1 + 2n and 2 + 2n the log and the penalty count table of session n. -/
def recordStart (k : Nat) : Nat := Config.reservePtr k % 2 ^ 27 * 64

/-- The address of record k. -/
def reserveAddr (k : Nat) : Nat := reserveDpa (recordStart k)

/-- How far behind a start a place of the reserve lies. -/
def behind (start lin : Nat) : Nat := (lin + reserveSize - start % reserveSize) % reserveSize

/-- The bytes that a session's log takes, in whole lines. -/
def logBytes (cap : Nat) : Nat := (4 * cap + 63) / 64 * 64

/-- The bytes of a penalty count table. -/
def penBytes : Nat := 64 + 4 * 4096

/-- The 64 bytes of a session's log or penalty count table at a place of the reserve. -/
def Sess.lineAt (x : Sess) (lin : Nat) : Option (List Byte) :=
  let l := behind (reserveLin x.logPtr) lin
  let q := behind (reserveLin x.penPtr) lin
  if l < logBytes x.logCap then
    some ((List.range 16).flatMap (fun i => leBytes ((x.log[l / 4 + i]?).getD 0) 4))
  else if q < penBytes then some (((penTable x).drop q).take 64)
  else none

/-- The 64 bytes of the records at a line of the reserve, by its DPA; none where no record lies. -/
def recordAt (sess : Sp Sess) (dpa : Nat) : Option (List Byte) :=
  let lin := reserveLin dpa
  let t := behind (recordStart 0) lin
  if t < 2 ^ 24 then some (((leBytes (spGet {} sess (t / 256)).toNat 256).drop (t % 256)).take 64)
  else (sess.filter (fun e => e.2.st != .free)).findSome? (fun e => e.2.lineAt lin)

end Sys2Proof.Machine
end

