-- ==== Sys2Proof/Machine/Ops.lean ====
section
/-!
DEFINITION. The named operations over units, stack memory and the shared cache: where a DPA lies (03 R60 to R68), reading and
writing lines with their check bits and error records (12 R327 to R336), the owning slice and the cache's treatment of every
access (03 R70 to R75), and fills.
-/

namespace Sys2Proof.Machine

/-- A byte with its poison. -/
abbrev PB := Byte × Bool

/-- The bytes of a read. -/
def pbData (l : List PB) : List Byte := l.map (·.1)

/-- Any byte of a read is poisoned. -/
def pbPoison (l : List PB) : Bool := l.any (·.2)

/-- Bytes with one poison for all. -/
def pbOf (p : Bool) (l : List Byte) : List PB := l.map (fun b => (b, p))

/-! ### The parts of the state -/

def getChan (s : State) (c : Nat) : Chan := spGet {} s.chans c
def modChan (c : Nat) (g : Chan → Chan) (s : State) : State := { s with chans := spMod {} s.chans c g }
def getCore (s : State) (c : Nat) : Core := spGet {} s.cores c
def modCore (c : Nat) (g : Core → Core) (s : State) : State := { s with cores := spMod {} s.cores c g }
def getPart (s : State) (p : Nat) : Part := spGet {} s.parts p
def modPart (p : Nat) (g : Part → Part) (s : State) : State := { s with parts := spMod {} s.parts p g }
def getTen (s : State) (t : Nat) : Tenant := spGet {} s.tens t
def modTen (t : Nat) (g : Tenant → Tenant) (s : State) : State := { s with tens := spMod {} s.tens t g }
def getRing (s : State) (r : Nat) : Ring := spGet {} s.rings r
def modRing (r : Nat) (g : Ring → Ring) (s : State) : State := { s with rings := spMod {} s.rings r g }
def getSess (s : State) (n : Nat) : Sess := spGet {} s.sess n
def modSess (n : Nat) (g : Sess → Sess) (s : State) : State := { s with sess := spMod {} s.sess n g }

/-! ### Units (00 R4, 15 R399) -/

/-- A unit of a kind is present: its state byte is On or Off. -/
def unitPresent (m : Sp Nat) (n : Nat) : Bool := decide (spGet 0 m n < 2)

/-- A unit is present and On; every domain but always-on is Off while Boot.domainsOff holds. -/
def unitOn (s : State) (m : Sp Nat) (n : Nat) : Bool := decide (spGet 0 m n = 0) && !s.boot.domainsOff

/-- The healthy channels, ascending (03 R68): the ones present. -/
def healthy (s : State) : List Nat := (List.range 256).filter (unitPresent s.units.chan)

/-- The present units of a list of unit numbers. -/
def presentOf (m : Sp Nat) (l : List Nat) : List Nat := l.filter (unitPresent m)

/-! ### Where a DPA lies (03 R60 to R68) -/

/-- The end of stack memory. -/
def stackEnd : Nat := 0x006000000000

/-- The bytes of a channel. -/
def chanBytes : Nat := 0x60000000

/-- The DPA page of an address (R63). -/
def pageOf (dpa : Nat) : Nat := dpa / 0x200000

/-- The home channel of a page (R63). -/
def homeOf (page : Nat) : Nat := page / 768

/-- The frame row of a page (R63). -/
def rowOf (page : Nat) : Nat := page % 768

/-- The mode of a frame row (R64, R65). -/
def rowModeOf (s : State) (f : Nat) : RowMode := if f < 16 then .spread else spGet .spread s.mem.rowMode f

/-- The page lies in a Pinned row. -/
def pagePinned (s : State) (page : Nat) : Bool := rowModeOf s (rowOf page) == .pinned

/-- The owner of a page (R65, R66). -/
def pageOwner (s : State) (page : Nat) : Owner := if rowOf page < 16 then .reserve else spGet .free s.mem.owner page

/-- Writing the owner of a page. -/
def setOwner (page : Nat) (o : Owner) (s : State) : State := { s with mem := { s.mem with owner := spSet .free s.mem.owner page o } }

/-- The Spread interleave of R68 with healthy list hs: stripe index i and offset x give channel and offset in the frame. -/
def spreadPlace (hs : List Nat) (i x : Nat) : Nat × Nat :=
  let st := i * 0x200000 + x
  let g := st / 256
  let q := g / hs.length
  let r := g % hs.length
  let rot := (37 * q + q / 16) % hs.length
  ((hs[(r + rot) % hs.length]?).getD 0, q * 256 + st % 256)

/-- The channel and channel offset of a stack DPA under a list of healthy channels; none when its home is absent (R68). -/
def locateIn (s : State) (hs : List Nat) (dpa : Nat) : Option (Nat × Nat) :=
  let p := pageOf dpa
  let f := rowOf p
  let x := dpa % 0x200000
  if mem (homeOf p) hs then
    if rowModeOf s f = .pinned then some (homeOf p, f * 0x200000 + x)
    else (indexOf (homeOf p) hs).map (fun i => let c := spreadPlace hs i x; (c.1, f * 0x200000 + c.2))
  else none

/-- The channel and channel offset of a stack DPA. A Pinned page needs only its home (R64). -/
def locate (s : State) (dpa : Nat) : Option (Nat × Nat) :=
  let p := pageOf dpa
  if pagePinned s p then
    if unitPresent s.units.chan (homeOf p) then some (homeOf p, rowOf p * 0x200000 + dpa % 0x200000) else none
  else locateIn s (healthy s) dpa

/-- The DPA stored at a place of a channel under a list of healthy channels: the inverse of `locateIn`. -/
def placeDpaIn (s : State) (hs : List Nat) (chan off : Nat) : Option Nat :=
  let f := off / 0x200000
  if rowModeOf s f = .pinned then some (chan * chanBytes + off)
  else
    let fo := off % 0x200000
    let q := fo / 256
    let rot := (37 * q + q / 16) % hs.length
    match indexOf chan hs with
    | none => none
    | some j =>
      let r := (j + hs.length - rot) % hs.length
      let st := (q * hs.length + r) * 256 + fo % 256
      (hs[st / 0x200000]?).map (fun c => c * chanBytes + f * 0x200000 + st % 0x200000)

/-- The DPA stored at a place of a channel. -/
def placeDpa (s : State) (chan off : Nat) : Option Nat := placeDpaIn s (healthy s) chan off

/-- Bank, row and column of a channel offset (R60). -/
def bankOf (off : Nat) : Nat := (off / 256) % 48
def inBank (off : Nat) : Nat := (off / 256 / 48) * 256 + off % 256
def dramRow (off : Nat) : Nat := inBank off / 2048
def dramCol (off : Nat) : Nat := inBank off % 2048

/-- The channel offset of a bank, row and column: the inverse of R60. -/
def offOf (bank row col : Nat) : Nat := ((row * 2048 + col) / 256 * 48 + bank) * 256 + col % 256

/-- The address folded into a line (12 R318). -/
def lineLA (chan off : Nat) : Nat := chan * 2 ^ 25 + bankOf off * 2 ^ 19 + dramRow off * 2 ^ 5 + dramCol off / 64

/-- The key of a place in Mem.bytes. -/
def placeKey (chan off : Nat) : Nat := chan * chanBytes + off

/-- The key of a line in Mem.chk. -/
def lineKey (chan off : Nat) : Nat := placeKey chan off / 64

/-! ### Map-out (12 R333, R334; 03 R83) -/

/-- The units present of each kind. -/
def presentCount (m : Sp Nat) (n : Nat) : Nat := ((List.range n).filter (unitPresent m)).length

/-- The retirement advisory of R334: raised once, below any floor. -/
def retireCheck (s : State) : State :=
  if !s.boot.retire && (decide (presentCount s.units.core 144 < 120) || decide (presentCount s.units.chan 256 < 224)
      || decide (presentCount s.units.slice 64 < 56)) then
    post 0x2250 0 0 { s with boot := { s.boot with retire := true } }
  else s

/-- The state byte of a unit mapped out in service (15 R399: 3 mapped out). -/
def mappedOut : Nat := 3

/-- A number added to a list that keeps no repeats. -/
def addOnce (x : Nat) (l : List Nat) : List Nat := if mem x l then l else l ++ [x]

/-- The partitions that own a page homed on a channel (03 R83). -/
def homeOwners (s : State) (c : Nat) : List Nat :=
  (List.range 16).filter (fun p => s.mem.owner.any (fun e => e.2 == .part p && homeOf e.1 == c && decide (16 ≤ rowOf e.1)))

/-- Step 1 of R83: the pending map-out of a channel told to the owner and to each partition that owns a page homed on it. -/
def tellMapout (c : Nat) (code : Code) (s : State) : State := (homeOwners s c).foldl (fun t p => partEvent p code t) (post code 3 c s)

/-- A channel's map-out becomes pending, with the code that says why (R331, R333; step 1 of R83). -/
def pendChannel (c : Nat) (code : Code) (s : State) : State :=
  if mem c s.cfg.pendChannels then s
  else tellMapout c code { s with cfg := { s.cfg with pendChannels := addOnce c s.cfg.pendChannels } }

/-! ### Errors of a channel (12 R327 to R332) -/

/-- One day and one second in ns. -/
def dayNs : Nat := 86400000000000
def secNs : Nat := 1000000000

/-- The errors of a list (place, time) within the last d ns. -/
def recent (now d : Nat) (l : List (Nat × Nat)) : List (Nat × Nat) := l.filter (fun e => decide (now < e.2 + d))

/-- The partition that owns a page, if one does. -/
def ownerPart (s : State) (page : Nat) : Option Nat :=
  match pageOwner s page with
  | .part p => some p
  | _ => none

/-- The DPA at which an entry's page starts (07 R194). -/
def pteBase (bits : BitVec 64) : Nat := (fld bits.toNat 47 16) * 0x10000

/-- The DPA page of a page-table entry. -/
def ptePage (e : Pte) : Nat := pageOf (pteBase e.bits)

/-- A page is mapped, and nowhere with W (R338). -/
def mappedNoW (t : List Pte) (page : Nat) : Bool :=
  t.any (fun e => ptePage e == page) && !t.any (fun e => ptePage e == page && e.bits.getLsbD 3)

/-- The page is a weight page of its owner (R338): of a buffer marked as weights, and mapped without W now. -/
def weightPage (s : State) (page : Nat) : Bool :=
  match ownerPart s page with
  | some p => mem page (getPart s p).weights && mappedNoW (getPart s p).ptab page
  | none => false

/-- The record of an error of the stack line at a place. -/
def dramRec (s : State) (code : Code) (by_ cls action corr : Nat) (unc : Bool) (delta : BitVec 64) (chan off : Nat) : ErrRec :=
  let d := placeDpa s chan off
  let page := pageOf (d.getD 0)
  { code := code, kind := 0, foundBy := by_, cls := cls, action := action, corrected := corr, uncorrectable := unc, unit := chan,
    bank := bankOf off, rowSet := dramRow off, lineWay := dramCol off / 64,
    part := d.bind (fun _ => ownerPart s page), weight := d.isSome && weightPage s page, dpa := d.getD 0,
    syndrome := lineSyn delta }

/-- The room of a unit's test queue: one running and 16 queued (R331). -/
def testRoom : Nat := 17

/-- The class a new error starts with: injected, misaddress (tested apart, R329), pending, or untested beyond the queue (R326, R331,
R332). -/
def errClass (inj mis : Bool) (queued : Nat) : Nat :=
  if inj then 3 else if mis then 5 else if testRoom ≤ queued then 4 else 0

/-- The counting of an error against its channel: the targeted test queued (of the row, or of the address path for a misaddress,
R329), the storm of R331 noticed. -/
def chanErr (chan off : Nat) (mis : Bool) (s : State) : State :=
  let c := getChan s chan
  if mem (off / 64) c.injected then s
  else
    let es := recent s.ftime dayNs c.errs ++ [(off / 64, s.ftime)]
    let s1 := modChan chan (fun c => { c with
      testQ := if !mis && decide (c.testQ.length < testRoom) then c.testQ ++ [off] else c.testQ,
      addrTest := c.addrTest || mis, errs := es }) s
    if 64 < (recent s.ftime secNs es).length then pendChannel chan 0x2261 s1 else s1

/-- An error of the line at a place: recorded, then counted and queued for its test. -/
def dramError (code : Code) (by_ action corr : Nat) (unc mis : Bool) (delta : BitVec 64) (chan off : Nat) (s : State) : State :=
  let c := getChan s chan
  let cls := errClass (mem (off / 64) c.injected) mis c.testQ.length
  chanErr chan off mis (recordErr (dramRec s code by_ cls action corr unc delta chan off) s)

/-- A weight page with a newly poisoned line waits for its repair (R339). -/
def noteWeightPage (page : Nat) (s : State) : State :=
  match ownerPart s page with
  | none => s
  | some p => if weightPage s page then modPart p (fun x => { x with repair := addOnce page x.repair }) s else s

/-- The same for the page of a place. -/
def noteWeight (chan off : Nat) (s : State) : State :=
  match placeDpa s chan off with
  | none => s
  | some d => noteWeightPage (pageOf d) s

/-! ### Lines of stack memory (03 R70, 12 R317 to R327) -/

/-- The end of the device reserve in a channel: frame rows 0 to 15 (03 R65). -/
def reserveEnd : Nat := 16 * 0x200000

/-- The records that lie in a line of the device reserve: its DPA, and the bytes that the Dispatcher and the Points wrote there last. -/
def recordLine (s : State) (chan off : Nat) : Option (Nat × List Byte) :=
  if reserveEnd ≤ off ∨ s.sess.isEmpty = true then none
  else (placeDpa s chan off).bind (fun d => (recordAt s.sess d).map (fun v => (d / 64, v)))

/-- The line holds records that were written since anything else changed it (log entry 57). -/
def freshRecord (s : State) (chan off : Nat) : Option (List Byte) :=
  match recordLine s chan off with
  | none => none
  | some (k, v) => if spGet? s.mem.seen k = some v then none else some v

/-- The 64 data bytes stored at a place. -/
def rawLine (s : State) (chan off : Nat) : List Byte :=
  match freshRecord s chan off with
  | some v => v
  | none => spBytes s.mem.bytes (placeKey chan off) 64

/-- The stored check difference of a line. -/
def rawChk (s : State) (chan off : Nat) : BitVec 64 :=
  match freshRecord s chan off with
  | some _ => 0
  | none => spGet 0 s.mem.chk (lineKey chan off)

/-- The lines of records seen, when something other than their writer changes a place. -/
def seenAt (s : State) (chan off : Nat) : Sp (List Byte) :=
  match recordLine s chan off with
  | none => s.mem.seen
  | some (k, v) => spPut s.mem.seen k v

/-- Data and a check difference put at a place. -/
def putRaw (chan off : Nat) (data : List Byte) (d : BitVec 64) (s : State) : State :=
  { s with mem := { s.mem with bytes := spWrite s.mem.bytes (placeKey chan off) data, chk := spSet 0 s.mem.chk (lineKey chan off) d,
                               seen := seenAt s chan off } }

/-- Writing the check difference of a line. -/
def setChk (chan off : Nat) (d : BitVec 64) (s : State) : State := putRaw chan off (rawLine s chan off) d s

/-- A whole line written to a stack: its data, its poison, and the end of any queued write-back and of the mark of an injected
place (12 R326, R327, R336). -/
def stackWrite (chan off : Nat) (l : List PB) (s : State) : State :=
  let s1 := putRaw chan off (pbData l) (lineMark (pbPoison l)) s
  let c := getChan s chan
  if mem off c.wbQ || mem (off / 64) c.injected then
    modChan chan (fun c => { c with wbQ := c.wbQ.filter (· != off), injected := c.injected.filter (· != off / 64) }) s1
  else s1

/-- A line read from a stack by a finder (FOUND_BY of R332): the marker and the code tested as R319, the error recorded, a
corrected line queued for write-back, an uncorrectable one rewritten with the marker. Every line of a failed channel reads
poisoned (03 R84). -/
def stackRead (by_ chan off : Nat) (s : State) : State × List PB :=
  let data := rawLine s chan off
  let d := rawChk s chan off
  if (getChan s chan).failed then (s, pbOf true data)
  else match lineDecode d with
    | .good => (s, pbOf false data)
    | .poison => (s, pbOf true data)
    | .corrected es =>
      (modChan chan (fun c => { c with wbQ := addOnce off c.wbQ }) (dramError 0x0220 by_ 1 es.length false false d chan off s),
       pbOf false (applyFix data es))
    | .misaddress => (dramError 0x2212 by_ 0 0 true true d chan off s, pbOf true data)
    | .uncorrectable =>
      (setChk chan off linePoison (noteWeight chan off (dramError 0x2210 by_ 2 0 true false d chan off s)), pbOf true data)

/-! ### The owning slice (03 R71) -/

/-- Numbers sorted ascending. -/
def sortNat (l : List Nat) : List Nat := sortBy (fun a b => decide (a ≤ b)) l

/-- The slices of a list that take part in the hash: the present ones whose domain is not off (01 R27). -/
def hashSlices (m : Sp Nat) (l : List Nat) : List Nat := l.filter (fun n => spGet 0 m n == 0)

/-- The slices over which a page's lines are dealt: its partition's, or every one. A partition that owns none that serves uses every
one (log entry 34). -/
def sliceSet (s : State) (page : Nat) : List Nat :=
  let all := hashSlices s.units.slice (List.range 64)
  match ownerPart s page with
  | none => all
  | some p =>
    let own := hashSlices s.units.slice (sortNat (getPart s p).slices)
    if own.isEmpty then all else own

/-- The fold of a line number. -/
def foldOf (L : Nat) : Nat := fld L 13 0 ^^^ fld L 27 14 ^^^ fld L 41 28

/-- The owning slice of a line number L = DPA >> 6. -/
def sliceOf (s : State) (L : Nat) : Nat :=
  let S := sliceSet s (L / 0x8000)
  (S[foldOf L % S.length]?).getD 0

/-- The set of a line within its slice. -/
def setOf (L : Nat) : Nat := fld L 10 0 ^^^ fld L 21 11 ^^^ fld L 32 22 ^^^ fld L 41 33

/-- The line held by the shared cache. -/
def cached? (s : State) (L : Nat) : Option CLine := spGet? s.cache.lines L

/-- Holding a line. -/
def putLine (L : Nat) (ln : CLine) (s : State) : State := { s with cache := { s.cache with lines := spPut s.cache.lines L ln } }

/-- Dropping a line. -/
def dropLine (L : Nat) (s : State) : State := { s with cache := { s.cache with lines := spErase s.cache.lines L } }

/-- All 64 bytes valid. -/
def allValid : BitVec 64 := BitVec.ofNat 64 (2 ^ 64 - 1)

/-! ### Errors of a slice -/

/-- A slice is mapped out at the next drain of its partition, or at once when no partition owns it (R333). -/
def sliceOwner (s : State) (n : Nat) : Option Nat :=
  (s.parts.find? (fun e => e.2.st != .absent && mem n e.2.slices)).map (·.1)

/-- A slice's map-out becomes pending. -/
def pendSlice (n : Nat) (code : Code) (s : State) : State :=
  if mem n s.cfg.pendSlices then s
  else post code 2 n { s with cfg := { s.cfg with pendSlices := addOnce n s.cfg.pendSlices } }

/-- An error of the line in a way (KIND 1 its data, 2 its tag): recorded, then counted and queued for its test; `code`, `action` as
R332. -/
def sliceError (kind : Nat) (code : Code) (by_ action corr : Nat) (unc : Bool) (L way byte : Nat) (delta : BitVec 5) (s : State) : State :=
  let sl := sliceOf s L
  let st := setOf L
  let inj := s.cache.injected.any (fun e => e == (sl, st, way))
  let q := (s.cache.testQ.filter (fun e => e.1 == sl)).length
  let page := L / 0x8000
  let s1 := recordErr
    { code := code, kind := kind, foundBy := by_, cls := errClass inj false q, action := action, corrected := corr,
      uncorrectable := unc, unit := sl, rowSet := st, lineWay := way, part := ownerPart s page, weight := weightPage s page,
      dpa := L * 64, byteNo := byte, syndrome := byteSyn delta } s
  if inj then s1
  else
    let es := s1.cache.errs.filter (fun e => decide (s.ftime < e.2.2 + dayNs)) ++ [(sl, st * 16 + way, s.ftime)]
    let s2 := { s1 with cache := { s1.cache with errs := es,
                                                 testQ := if q < testRoom then s1.cache.testQ ++ [(sl, st, way)] else s1.cache.testQ } }
    if 16 < (es.filter (fun e => e.1 == sl && decide (s.ftime < e.2.2 + secNs))).length then pendSlice sl 0x2261 s2 else s2

/-- The bytes of a line whose stored difference is not zero, with what the checker finds there (only valid bytes are read). -/
def lineFindings (ln : CLine) : List (Nat × BitVec 5 × ByteOutcome) :=
  (ln.chk.filter (fun e => ln.valid.getLsbD e.1)).map (fun e => (e.1, e.2, byteDecode ((ln.data[e.1]?).getD 0) e.2))

/-- The data of a line as its checker returns it: corrected bytes corrected, poisoned and uncorrectable ones poisoned. -/
def lineBytes (ln : CLine) : List PB :=
  if ln.chk.isEmpty then pbOf false ln.data
  else (List.range 64).map (fun i =>
    let d := (ln.data[i]?).getD 0
    match byteDecode d (spGet 0 ln.chk i) with
    | .good => (d, false)
    | .corrected e => (e, false)
    | .poison => (d, true)
    | .uncorrectable => (d, true))

/-- The tag of a held line read (R321): one bad copy is corrected from the other; with both bad the line is lost, poisoned when dirty
and dropped when clean. -/
def checkTags (by_ L : Nat) (ln : CLine) (s : State) : State × Option CLine :=
  if ln.tagsBad = 0 then (s, some ln)
  else if ln.tagsBad = 1 then
    let ln1 := { ln with tagsBad := 0 }
    (putLine L ln1 (sliceError 2 0x0220 by_ 1 1 false L ln.way 0 0 s), some ln1)
  else if ln.dirty then
    let ln1 := { ln with tagsBad := 0, chk := (List.range 64).foldl (fun c i => if ln.valid.getLsbD i then spSet 0 c i bytePoison else c) ln.chk }
    (noteWeightPage (L / 0x8000) (putLine L ln1 (sliceError 2 0x2210 by_ 2 0 true L ln.way 0 0 s)), some ln1)
  else (dropLine L (sliceError 2 0x0220 by_ 1 2 false L ln.way 0 0 s), none)

/-- What a read of a line's data finds, recorded; `drop`: the line is clean and the stack's copy serves instead (R335). -/
def recordFindings (by_ L : Nat) (ln : CLine) (drop : Bool) (s : State) : State :=
  (lineFindings ln).foldl (fun t f => match f.2.2 with
    | .corrected _ => sliceError 1 0x0220 by_ 1 1 false L ln.way f.1 f.2.1 t
    | .uncorrectable =>
      if drop then sliceError 1 0x0220 by_ 1 2 false L ln.way f.1 f.2.1 t
      else sliceError 1 0x2210 by_ 2 0 true L ln.way f.1 f.2.1 t
    | _ => t) s

/-- The line with every byte found uncorrectable marked (R316). -/
def markFindings (ln : CLine) : CLine :=
  { ln with chk := (lineFindings ln).foldl (fun c f => if f.2.2 == .uncorrectable then spSet 0 c f.1 bytePoison else c) ln.chk }

/-- The data of a held line read through its checkers: errors recorded, uncorrectable bytes rewritten with the marker (R316). A
clean line that proves uncorrectable is dropped and the error recorded as corrected (R335): then the answer is none. A weight
page's line that is newly poisoned queues the repair of R339. -/
def checkData (by_ L : Nat) (ln : CLine) (s : State) : State × Option CLine :=
  let fs := lineFindings ln
  if fs.isEmpty then (s, some ln)
  else
    let bad := fs.any (fun f => f.2.2 == .uncorrectable)
    let drop := bad && !ln.dirty
    let s1 := recordFindings by_ L ln drop s
    if drop then (dropLine L s1, none)
    else
      let s2 := putLine L (markFindings ln) s1
      (if bad then noteWeightPage (L / 0x8000) s2 else s2, some (markFindings ln))

/-- A line of the cache read through its checkers, its tag first. -/
def checkLine (by_ L : Nat) (ln : CLine) (s : State) : State × Option CLine :=
  match checkTags by_ L ln s with
  | (s1, none) => (s1, none)
  | (s1, some ln1) => checkData by_ L ln1 s1

/-! ### Write-back, allocation and eviction (03 R70 to R73) -/

/-- The bytes of a line over those of the stack: the valid ones its own. -/
def mergeValid (ln : CLine) (under : List PB) : List PB :=
  let own := lineBytes ln
  (List.range 64).map (fun i => if ln.valid.getLsbD i then (own[i]?).getD (0, false) else (under[i]?).getD (0, false))

/-- A line written to its stack: whole, or merged over the stack line (R73); poisoned as a whole when any byte is (R335). -/
def writeLine (L : Nat) (ln : CLine) (s : State) : State :=
  match locate s (L * 64) with
  | none => s
  | some (c, off) =>
    if ln.valid = allValid then stackWrite c off (lineBytes ln) s
    else
      let (s1, under) := stackRead 6 c off s
      stackWrite c off (mergeValid ln under) s1

/-- Writing a dirty held line to its stack: it is read through its checkers first (R335), and stays held, clean. -/
def writeBack (L : Nat) (ln : CLine) (s : State) : State :=
  match checkLine 6 L ln s with
  | (s1, none) => s1
  | (s1, some ln1) => writeLine L ln1 (putLine L { ln1 with dirty := false } s1)

/-- A line leaves the cache, written back first when it is dirty. -/
def evict (L : Nat) (ln : CLine) (s : State) : State := dropLine L (if ln.dirty then writeBack L ln s else s)

/-- The lines held in a set of a slice. -/
def setLines (s : State) (slice set : Nat) : List (Nat × CLine) :=
  s.cache.lines.filter (fun e => decide (setOf e.1 = set) && decide (sliceOf s e.1 = slice))

/-- The disabled ways of a set. -/
def offWays (s : State) (slice set : Nat) : List Nat :=
  (s.cache.waysOff.filter (fun e => e.1 == slice && e.2.1 == set)).map (·.2.2)

/-- The way that a new line takes: any usable way that is empty, else the one a free value names, whose line leaves (R70, log
entry 14). -/
def takeWay (L : Nat) (s : State) : State × Nat :=
  let sl := sliceOf s L
  let st := setOf L
  let held := setLines s sl st
  let off := offWays s sl st
  let v := Config.victimWay s.free
  let s1 := { s with free := s.free + 1 }
  if held.length + off.length < 16 then
    let empties := (List.range 16).filter (fun w => !mem w off && !(held.any (fun e => e.2.way == w)))
    (s1, (empties[v % empties.length]?).getD 0)
  else match held[v % held.length]? with
    | none => (s1, 0)
    | some (M, ln) => (evict M ln s1, ln.way)

/-- The check differences of 64 bytes with their poison. -/
def lineChk (l : List PB) : Sp (BitVec 5) :=
  ((List.range l.length).zip l).filterMap (fun e => if e.2.2 then some (e.1, bytePoison) else none)

/-- A raw way stands at a place. -/
def BareWay.isAt (e : BareWay) (n st w : Nat) : Bool := e.slice == n && e.set == st && e.way == w

/-- The mark of an injected place of a slice ends when it is written again, and what lay raw in the way is gone (R326). -/
def clearInjected (L way : Nat) (s : State) : State :=
  if s.cache.injected.isEmpty && s.cache.bare.isEmpty then s
  else
    let sl := sliceOf s L
    let st := setOf L
    { s with cache := { s.cache with
        injected := s.cache.injected.filter (fun e => e != (sl, st, way)),
        bare := s.cache.bare.filter (fun e => !e.isAt sl st way) } }

/-- A line put into a way, written whole there. -/
def placeLine (L : Nat) (ln : CLine) (s : State) : State := putLine L ln (clearInjected L ln.way s)

/-- A line allocated with the bytes given at an offset, as a write does it (R73). -/
def allocWrite (L off : Nat) (bytes : List PB) (s : State) : State :=
  let (s1, w) := takeWay L s
  let data := (List.replicate off (0 : Byte)) ++ pbData bytes ++ List.replicate (64 - off - bytes.length) 0
  placeLine L { data := data, valid := BitVec.ofNat 64 ((2 ^ bytes.length - 1) * 2 ^ off), dirty := true, way := w,
                chk := lineChk (pbOf false (List.replicate off 0) ++ bytes) } s1

/-- Bytes merged into a held line. -/
def mergeBytes (ln : CLine) (off : Nat) (bytes : List PB) : CLine :=
  { ln with
    data := ln.data.take off ++ pbData bytes ++ ln.data.drop (off + bytes.length),
    valid := ln.valid ||| BitVec.ofNat 64 ((2 ^ bytes.length - 1) * 2 ^ off),
    chk := ((List.range bytes.length).zip bytes).foldl (fun c e => spSet 0 c (off + e.1) (byteMark e.2.2)) ln.chk }

/-- A held line made whole: the invalid bytes filled from the stack (R73), poisoned ones marked (R335). -/
def fillLine (by_ L : Nat) (ln : CLine) (s : State) : State × CLine :=
  if ln.valid = allValid then (s, ln)
  else match locate s (L * 64) with
    | none => (s, ln)
    | some (c, off) =>
      let (s1, under) := stackRead by_ c off s
      let whole := mergeValid ln under
      let ln1 := { ln with data := pbData whole, valid := allValid, chk := lineChk whole }
      (placeLine L ln1 s1, ln1)

/-- A line read from its stack past the cache, allocated when its row is Spread (R72). -/
def missRead (by_ L : Nat) (s : State) : State × List PB :=
  match locate s (L * 64) with
  | none => (s, pbOf true (List.replicate 64 0))
  | some (c, off) =>
    let (s1, l) := stackRead by_ c off s
    if pagePinned s (L / 0x8000) then (s1, l)
    else
      let (s2, w) := takeWay L s1
      (placeLine L { data := pbData l, valid := allValid, dirty := false, way := w, chk := lineChk l } s2, l)

/-- A read of a line by an engine, a collective engine, the Dispatcher, the Points or the host (R72). -/
def lineRead (by_ L : Nat) (s : State) : State × List PB :=
  match cached? s L with
  | none => missRead by_ L s
  | some ln =>
    match checkLine by_ L ln s with
    | (s1, none) => missRead by_ L s1
    | (s1, some ln1) => let (s2, ln2) := fillLine by_ L ln1 s1; (s2, lineBytes ln2)

/-- A write of bytes of one line by the host, or by an engine to a Spread page: the line is held with its byte-valid mask
(R72, R73). -/
def lineWriteAlloc (L off : Nat) (bytes : List PB) (s : State) : State :=
  match cached? s L with
  | none => allocWrite L off bytes s
  | some ln => placeLine L { mergeBytes ln off bytes with dirty := true } s

/-- A write of bytes of one line by an engine to a Pinned page (R72): a whole line updates a held copy and goes through; a
narrow write is merged in the slice, the line is written to the stack at the end of its command, which one command here does at
once, and it is dropped, since no command has bytes pending then (log entry 35). -/
def lineWriteThrough (L off : Nat) (bytes : List PB) (s : State) : State :=
  match locate s (L * 64) with
  | none => s
  | some (c, o) =>
    match cached? s L with
    | some ln =>
      let s1 := writeBack L { mergeBytes ln off bytes with dirty := true } (placeLine L (mergeBytes ln off bytes) s)
      if bytes.length = 64 then s1 else dropLine L s1
    | none =>
      if bytes.length = 64 then stackWrite c o bytes s
      else
        let (s1, under) := stackRead 6 c o s
        stackWrite c o (under.take off ++ bytes ++ under.drop (off + bytes.length)) s1

/-- A write of bytes of one line by an engine or a collective engine (R72). -/
def lineWrite (L off : Nat) (bytes : List PB) (s : State) : State :=
  if pagePinned s (L / 0x8000) then lineWriteThrough L off bytes s else lineWriteAlloc L off bytes s

/-! ### Runs of bytes -/

/-- The pieces of n bytes from an address, one per line: line number, offset in the line, length. -/
def lineSpans (a n : Nat) : List (Nat × Nat × Nat) :=
  if n = 0 then []
  else (List.range ((a + n - 1) / 64 + 1 - a / 64)).map (fun i =>
    let l := a / 64 + i
    let lo := max a (l * 64)
    let hi := min (a + n) (l * 64 + 64)
    (l, lo - l * 64, hi - lo))

/-- n bytes read from a DPA through the owning slices. -/
def dpaRead (by_ dpa n : Nat) (s : State) : State × List PB :=
  (lineSpans dpa n).foldl (fun (t : State × List PB) sp =>
    let (s1, l) := lineRead by_ sp.1 t.1
    (s1, t.2 ++ (l.drop sp.2.1).take sp.2.2)) (s, [])

/-- Bytes written at a DPA, by the line operation w. -/
def dpaWriteBy (w : Nat → Nat → List PB → State → State) (dpa : Nat) (bytes : List PB) (s : State) : State :=
  ((lineSpans dpa bytes.length).foldl (fun (t : State × List PB) sp =>
    (w sp.1 sp.2.1 (t.2.take sp.2.2) t.1, t.2.drop sp.2.2)) (s, bytes)).1

/-- Bytes written at a DPA by an engine. -/
def dpaWrite (dpa : Nat) (bytes : List PB) (s : State) : State := dpaWriteBy lineWrite dpa bytes s

/-- Bytes written at a DPA by the host. -/
def dpaHostWrite (dpa : Nat) (bytes : List PB) (s : State) : State := dpaWriteBy lineWriteAlloc dpa bytes s

/-! ### Cache maintenance (03 R75) -/

/-- The counts a maintenance operation reports: lines written, lines dropped, dirty lines discarded. -/
structure CmoCount where
  written : Nat := 0
  dropped : Nat := 0
  discarded : Nat := 0
deriving DecidableEq, Repr

/-- One line under FLUSH (0), FLUSH_INV (1) or INV (2). -/
def cmoLine (op L : Nat) (ln : CLine) (t : State × CmoCount) : State × CmoCount :=
  if op = 0 then
    if ln.dirty then (writeBack L ln t.1, { t.2 with written := t.2.written + 1 }) else t
  else if op = 1 then
    if ln.dirty then (dropLine L (writeBack L ln t.1), { t.2 with written := t.2.written + 1, dropped := t.2.dropped + 1 })
    else (dropLine L t.1, { t.2 with dropped := t.2.dropped + 1 })
  else
    (dropLine L t.1, { t.2 with dropped := t.2.dropped + 1, discarded := t.2.discarded + b2n ln.dirty })

/-- The operation over every held line whose number satisfies q. -/
def cmoWhere (op : Nat) (q : Nat → Bool) (s : State) : State × CmoCount :=
  (s.cache.lines.filter (fun e => q e.1)).foldl (fun t e => cmoLine op e.1 e.2 t) (s, {})

/-- Any line of a Pinned frame is held: the frame's cached bit (R74). -/
def frameCached (s : State) (page : Nat) : Bool := s.cache.lines.any (fun e => decide (e.1 / 0x8000 = page))

/-! ### Fills (03 R64, R462, 12 R322) -/

/-- The queued write-backs and the marks of injected places of a channel that stay when some of its places are written. -/
def Chan.keepMarks (keep : Nat → Bool) (c : Nat) (x : Chan) : Chan :=
  { x with wbQ := x.wbQ.filter (fun o => keep (placeKey c o)), injected := x.injected.filter (fun l => keep (placeKey c (64 * l))) }

/-- The places that satisfy a test of their DPA read 0 with valid check bits afterwards; their held lines, queued write-backs and
marks go too (R326, R327). -/
def fillWhere (q : Nat → Bool) (s : State) : State :=
  let keep := fun (k : Nat) => match placeDpa s (k / chanBytes) (k % chanBytes) with
    | some d => !q d
    | none => true
  { s with
    chans := (s.chans.map (fun e => (e.1, e.2.keepMarks keep e.1))).filter (fun e => e.2 != ({} : Chan)),
    mem := { s.mem with bytes := s.mem.bytes.filter (fun e => keep e.1),
                        chk := s.mem.chk.filter (fun e => keep (e.1 * 64)) },
    cache := { s.cache with lines := s.cache.lines.filter (fun e => !q (e.1 * 64)) } }

/-- A page filled with zero lines, nothing of it held by a slice (R462). -/
def fillPage (page : Nat) (s : State) : State := fillWhere (fun d => decide (pageOf d = page)) s

/-- A frame row filled (R64). -/
def fillRow (f : Nat) (s : State) : State := fillWhere (fun d => decide (rowOf (pageOf d) = f)) s

end Sys2Proof.Machine
end

