-- ==== Sys2Proof/Machine/Store.lean ====
section
/-!
DEFINITION. Translation and protection (07 R194 to R197), access to a partition's virtual memory, and the memories of a core with
their byte code: core store, instruction, template and control memory (03 R78 to R80, 06 R165, 12 R316, R333).
-/

namespace Sys2Proof.Machine

/-- A computation that ends with a value or stops at a fault: code and faulting virtual address. -/
inductive Res (α : Type) where
  | ok (s : State) (a : α)
  | err (s : State) (code : Code) (va : Nat)

/-- Sequencing. -/
def andThen {α β : Type} (x : Res α) (f : State → α → Res β) : Res β :=
  match x with
  | .ok s a => f s a
  | .err s c v => .err s c v

/-- A fold that stops at the first fault. -/
def resFold {α β : Type} (f : State → β → α → Res β) : List α → β → State → Res β
  | [], b, s => .ok s b
  | x :: t, b, s => andThen (f s b x) (fun s1 b1 => resFold f t b1 s1)

/-- A map that stops at the first fault. -/
def resMap {α β : Type} (f : State → α → Res β) (l : List α) (s : State) : Res (List β) :=
  resFold (fun s acc x => andThen (f s x) (fun s1 y => .ok s1 (acc ++ [y]))) l [] s

/-! ### Page tables (07 R194) -/

/-- The bytes an entry maps. -/
def pteSize (bits : BitVec 64) : Nat := if bits.getLsbD 1 then 0x10000 else 0x200000

/-- The entry that maps an address. -/
def pteAt (t : List Pte) (va : Nat) : Option Pte := t.find? (fun e => decide (e.va ≤ va ∧ va < e.va + pteSize e.bits))

/-- The rights an access needs (R196). -/
structure Need where
  r : Bool := false
  w : Bool := false
  scu : Bool := false
  atom : Bool := false
deriving DecidableEq, Repr

/-- The end of a partition's virtual space. -/
def vaEnd : Nat := 2 ^ 40

/-- R196: the first failed check in its order, or the DPA. -/
def xlate (t : List Pte) (va : Nat) (n : Need) : Except Code Nat :=
  if vaEnd ≤ va then .error 0x2150
  else match pteAt t va with
    | none => .error 0x2150
    | some e =>
      if n.r && !e.bits.getLsbD 2 then .error 0x2151
      else if n.w && !e.bits.getLsbD 3 then .error 0x2152
      else if n.scu && !e.bits.getLsbD 4 then .error 0x2153
      else if n.atom && !e.bits.getLsbD 5 then .error 0x2154
      else .ok (pteBase e.bits + (va - e.va))

/-- Translation with the check of R68: an absent home gives 0x2102. -/
def xlateHome (s : State) (p va : Nat) (n : Need) : Except Code Nat :=
  match xlate (getPart s p).ptab va n with
  | .error c => .error c
  | .ok d => if (locate s d).isNone then .error 0x2102 else .ok d

/-- The code an access of one address meets, if any. -/
def xlateCode (s : State) (p va : Nat) (n : Need) : Option Code :=
  match xlateHome s p va n with
  | .error c => some c
  | .ok _ => none

/-- The starts of the pages that a range covers, counted as R197 counts them, at most k of them (fuel). -/
def pageStarts (t : List Pte) : Nat → Nat → Nat → List Nat
  | 0, _, _ => []
  | k + 1, lo, hi =>
    if hi < lo then []
    else
      let nxt := match pteAt t lo with
        | some e => e.va + pteSize e.bits
        | none => (lo / 0x10000 + 1) * 0x10000
      lo :: pageStarts t k nxt hi

/-- n bytes read at a partition virtual address through the owning slices. -/
def vaRead (p va n : Nat) (s : State) : Res (List PB) :=
  resFold (fun s acc sp =>
    match xlateHome s p (sp.1 * 64 + sp.2.1) { r := true } with
    | .error c => .err s c (sp.1 * 64 + sp.2.1)
    | .ok d =>
      let (s1, l) := lineRead 0 (d / 64) s
      .ok s1 (acc ++ (l.drop sp.2.1).take sp.2.2)) (lineSpans va n) [] s

/-- Bytes written at a partition virtual address. -/
def vaWrite (p va : Nat) (bytes : List PB) (s : State) : Res Unit :=
  andThen (resFold (fun s (rest : List PB) sp =>
    match xlateHome s p (sp.1 * 64 + sp.2.1) { w := true } with
    | .error c => .err s c (sp.1 * 64 + sp.2.1)
    | .ok d => .ok (lineWrite (d / 64) sp.2.1 (rest.take sp.2.2) s) (rest.drop sp.2.2)) (lineSpans va bytes.length) bytes s)
    (fun s1 _ => .ok s1 ())

/-! ### Reading bytes under the byte code (12 R315) -/

/-- One byte as its checker returns it. -/
def byteRead (d : Byte) (delta : BitVec 5) : PB :=
  match byteDecode d delta with
  | .good => (d, false)
  | .corrected e => (e, false)
  | .poison => (d, true)
  | .uncorrectable => (d, true)

/-- The bytes of a memory from address a. -/
def sramBytes (m : Sp Byte) (chk : Sp (BitVec 5)) (a n : Nat) : List PB :=
  if chk.isEmpty then pbOf false (spBytes m a n)
  else ((List.range n).zip (spBytes m a n)).map (fun e => byteRead e.2 (spGet 0 chk (a + e.1)))

/-- The addresses with a stored difference among n from a. -/
def sramHits (chk : Sp (BitVec 5)) (a n : Nat) : List (Nat × BitVec 5) :=
  chk.filter (fun e => decide (a ≤ e.1 ∧ e.1 < a + n))

/-- The differences after a read: an uncorrectable byte gets the marker (R316). -/
def sramMark (m : Sp Byte) (chk : Sp (BitVec 5)) (a n : Nat) : Sp (BitVec 5) :=
  (sramHits chk a n).foldl (fun c e =>
    if byteDecode (spGet 0 m e.1) e.2 == .uncorrectable then spSet 0 c e.1 bytePoison else c) chk

/-- Bytes written with their own check bits, valid or poisoned. -/
def sramChk (chk : Sp (BitVec 5)) (a : Nat) (l : List PB) : Sp (BitVec 5) :=
  ((List.range l.length).zip l).foldl (fun c e => spSet 0 c (a + e.1) (byteMark e.2.2)) chk

/-! ### Errors of a core -/

/-- A core's map-out becomes pending (12 R333). -/
def pendCore (n : Nat) (code : Code) (s : State) : State :=
  if mem n s.cfg.pendCores then s
  else post code 1 n { s with cfg := { s.cfg with pendCores := addOnce n s.cfg.pendCores } }

/-- The banks that a store size uses (03 R78). -/
def storeBanks (size : Nat) : Nat := if size = 0x100000 then 32 else if size = 0x80000 then 16 else 8

/-- The bank of a core-store address under a store size (03 R78); the banks outside the size stand at the addresses from it on. -/
def storeBank (size a : Nat) : Nat := if a < size then (a / 32) % storeBanks size else a / 0x8000

/-- The word within its bank of a core-store address (03 R78). -/
def storeWord (size a : Nat) : Nat := if a < size then a / (32 * storeBanks size) else a % 0x8000 / 32

/-- The place of a core-store address: bank × 32 KiB + offset within the bank (03 R78). -/
def storePlace (size a : Nat) : Nat := storeBank size a * 0x8000 + storeWord size a * 32 + a % 32

/-- The address of a place under a store size. -/
def storeAt (size pl : Nat) : Nat :=
  if pl / 0x8000 < storeBanks size then pl % 0x8000 / 32 * (32 * storeBanks size) + pl / 0x8000 * 32 + pl % 32 else pl

/-- A store's contents keyed by the addresses of another size: every place keeps its byte (03 R78). -/
def rekey {α : Type} [DecidableEq α] (d : α) (old new : Nat) (m : Sp α) : Sp α :=
  m.foldl (fun t e => spSet d t (storeAt new (storePlace old e.1)) e.2) []

/-- The number under which a core keeps the word of an error: memory (0 core store, 1 instruction, 2 template, 3 control memory) ×
2^16 + word. -/
def coreWord (m a : Nat) : Nat := m * 0x10000 + a / 32

/-- KIND, BANK and ROW_SET of the word of a core's error (R332). -/
def wordFields (size w : Nat) : Nat × Nat × Nat :=
  if w < 0x10000 then (3, storeBank size (32 * w), storeWord size (32 * w)) else (4, 0, w % 0x10000)

/-- A core with another store size: what its store held stays in its banks, at other addresses (03 R78). -/
def resize (new : Nat) (c : Core) : Core :=
  let at_ := fun (a : Nat) => storeAt new (storePlace c.size a)
  let word := fun (w : Nat) => if w < 0x10000 then at_ (32 * w) / 32 else w
  if c.size = new then c
  else { c with
    size := new, store := rekey 0 c.size new c.store, storeChk := rekey 0 c.size new c.storeChk, injected := c.injected.map at_,
    testQ := c.testQ.map word, errs := c.errs.map (fun e => (word e.1, e.2)) }

/-- A byte error in memory `m` of a core (R332). -/
def coreError (code : Code) (by_ m action corr : Nat) (unc : Bool) (n a : Nat) (delta : BitVec 5) (s : State) : State :=
  let c := getCore s n
  let w := coreWord m a
  let fs := wordFields c.size w
  let inj := m == 0 && mem a c.injected
  let s1 := recordErr
    { code := code, kind := fs.1, foundBy := by_, cls := errClass inj false c.testQ.length, action := action, corrected := corr,
      uncorrectable := unc, unit := n, bank := fs.2.1, rowSet := fs.2.2, part := c.part, byteNo := a % 32, syndrome := byteSyn delta } s
  if inj then s1
  else
    let es := recent s.ftime dayNs c.errs ++ [(w, s.ftime)]
    let s2 := modCore n (fun c => { c with testQ := if c.testQ.length < testRoom then c.testQ ++ [w] else c.testQ, errs := es }) s1
    if 16 < (recent s.ftime secNs es).length then pendCore n 0x2261 s2 else s2

/-- The errors of a read of memory `k` of a core, whose bytes are m, recorded. -/
def sramErrors (by_ k n : Nat) (m : Sp Byte) (hits : List (Nat × BitVec 5)) (s : State) : State :=
  hits.foldl (fun t e => match byteDecode (spGet 0 m e.1) e.2 with
    | .corrected _ => coreError 0x0220 by_ k 1 1 false n e.1 e.2 t
    | .uncorrectable => coreError 0x2210 by_ k 2 0 true n e.1 e.2 t
    | _ => t) s

/-! ### The core store -/

/-- The state of a bank (03 R79). -/
def bankState (c : Core) (b : Nat) : BankState := spGet .on c.banks b

/-- The code an access of n bytes at an address meets: 0x2121 beyond the size, 0x2120 in a bank not On (03 R78, R79). -/
def storeCode (c : Core) (a : Int) (n : Nat) : Option Code :=
  if a < 0 ∨ (c.size : Int) < a + n then some 0x2121
  else if c.banks.isEmpty then none
  else if (List.range ((a.toNat + n - 1) / 32 + 1 - a.toNat / 32)).any (fun i =>
      bankState c (storeBank c.size (a.toNat + 32 * i)) != .on) then some 0x2120
  else none

/-- A core that is switched off or mapped out: Ifewin has set every bank Off (03 R79). -/
def darkCore : Core := { banks := (List.range 32).map (fun b => (b, .off)) }

/-- n bytes of a core's store. -/
def storeRead (n a len : Nat) (s : State) : State × List PB :=
  let c := getCore s n
  let hits := sramHits c.storeChk a len
  let l := sramBytes c.store c.storeChk a len
  if hits.isEmpty then (s, l)
  else (modCore n (fun c => { c with storeChk := sramMark c.store c.storeChk a len }) (sramErrors 0 0 n c.store hits s), l)

/-- Bytes written to a core's store. -/
def storeWrite (n a : Nat) (l : List PB) (s : State) : State :=
  modCore n (fun c => { c with
    store := spWrite c.store a (pbData l),
    storeChk := if c.storeChk.isEmpty && !pbPoison l then [] else sramChk c.storeChk a l,
    injected := c.injected.filter (fun x => decide (x < a ∨ a + l.length ≤ x)) }) s

/-! ### The control core's own memories -/

/-- Reading control memory. -/
def cmemRead (n a len : Nat) (s : State) : State × List PB :=
  let c := getCore s n
  let hits := sramHits c.cmemChk a len
  let l := sramBytes c.cmem c.cmemChk a len
  if hits.isEmpty then (s, l)
  else (modCore n (fun c => { c with cmemChk := sramMark c.cmem c.cmemChk a len }) (sramErrors 0 3 n c.cmem hits s), l)

/-- Writing control memory. -/
def cmemWrite (n a : Nat) (l : List Byte) (s : State) : State :=
  modCore n (fun c => { c with cmem := spWrite c.cmem a l, cmemChk := if c.cmemChk.isEmpty then [] else sramChk c.cmemChk a (pbOf false l) }) s

/-- A byte list as a sparse memory. -/
def toSp (l : List Byte) : Sp Byte := spWrite [] 0 l

/-- Reading the instruction memory, which holds the resident images' code. -/
def codeRead (n a len : Nat) (s : State) : State × List PB :=
  let c := getCore s n
  if c.codeChk.isEmpty then (s, pbOf false (bytesAt c.code a len))
  else
    let m := toSp c.code
    let hits := sramHits c.codeChk a len
    (modCore n (fun c => { c with codeChk := sramMark m c.codeChk a len }) (sramErrors 0 1 n m hits s), sramBytes m c.codeChk a len)

/-- Reading template number k of 32 bytes. -/
def tmplRead (n k : Nat) (s : State) : State × List PB :=
  let c := getCore s n
  let bytes := leBytes ((c.tmpl[k]?).getD 0).toNat 32
  if c.tmplChk.isEmpty then (s, pbOf false bytes)
  else
    let m := spWrite [] (32 * k) bytes
    let hits := sramHits c.tmplChk (32 * k) 32
    (modCore n (fun c => { c with tmplChk := sramMark m c.tmplChk (32 * k) 32 }) (sramErrors 0 2 n m hits s),
     sramBytes m c.tmplChk (32 * k) 32)

end Sys2Proof.Machine
end

