-- ==== Sys2Proof/Machine/Operands.lean ====
section
/-!
DEFINITION. Every operand form of an engine command: loop records and their points (06 R147 to R149), tensor descriptors, the
step from a point to its elements, clamping and discarding (07 R183 to R189), block-coordinate lists (07 R190 to R192), the
checks made before a command starts (06 R164, 07 R197), and reading and writing a point's unit.
-/

namespace Sys2Proof.Machine

/-! ### Loop records (06 R147, R148) -/

/-- One level of a loop record. -/
structure Level where
  stride : Int
  dim : Nat
  count : Nat
deriving DecidableEq, Repr

/-- A loop record as read; `poison`: a byte of it was poisoned (05 R122). -/
structure LoopRec where
  space : Nat
  lcore : Nat := 0
  base : Int
  desc : Nat := 0
  levels : List Level
  poison : Bool := false
deriving DecidableEq, Repr

/-- Level l of the 512 bits. -/
def levelAt (x l : Nat) : Level :=
  ⟨sx 32 (fld x (64 * l + 63) (64 * l + 32)), fld x (64 * l + 26) (64 * l + 24), fld x (64 * l + 23) (64 * l)⟩

/-- The points a record yields. -/
def LoopRec.count (r : LoopRec) : Nat := r.levels.foldl (fun a l => a * l.count) 1

/-- A loop record from its 512 bits; none for any breach of R147 or R148, or of R149's rule that DIM is zero outside SPACE 1.
Every breach gives 0x1104 (log entry 36). -/
def loopParse (x : Nat) : Option LoopRec :=
  let space := fld x 439 438
  let n := fld x 435 432
  let base := fld x 431 384
  let desc := fld x 467 448
  let lv := (List.range n).map (levelAt x)
  let r : LoopRec :=
    { space := space, lcore := if space = 2 then base / 2 ^ 40 else 0,
      base := if space = 1 then sx 48 base else ((base % 2 ^ 20 : Nat) : Int), desc := desc, levels := lv }
  let bad :=
    decide (x / 2 ^ 468 ≠ 0) || fld x 447 440 != 0 || fld x 437 436 != 0 || space == 3 || n == 0 || decide (6 < n)
    || (List.range 6).any (fun l =>
        if l < n then fld x (64 * l + 31) (64 * l + 27) != 0 || (levelAt x l).dim == 7 || (levelAt x l).count == 0
          || (space != 1 && (levelAt x l).dim != 0)
        else fld x (64 * l + 63) (64 * l) != 0)
    || desc % 64 != 0 || (space != 1 && desc != 0)
    || (space == 0 && decide (2 ^ 20 ≤ base)) || (space == 2 && fld base 39 20 != 0)
    || decide (2 ^ 40 < r.count)
  if bad then none else some r

/-- The index tuples of some levels, the first level fastest (R148). -/
def indexTuples : List Nat → List (List Nat)
  | [] => [[]]
  | c :: t => (indexTuples t).flatMap (fun r => (List.range c).map (fun i => i :: r))

/-- The byte addresses of a record's points, in order (R148). -/
def LoopRec.addrs (r : LoopRec) : List Int :=
  (indexTuples (r.levels.map (·.count))).map (fun ix =>
    r.base + (List.zipWith (fun (i : Nat) (l : Level) => (i : Int) * l.stride) ix r.levels).foldl (· + ·) 0)

/-- The lowest point address. -/
def LoopRec.low (r : LoopRec) : Int := r.levels.foldl (fun a l => if l.stride < 0 then a + ((l.count : Int) - 1) * l.stride else a) r.base

/-- The highest point address. -/
def LoopRec.high (r : LoopRec) : Int := r.levels.foldl (fun a l => if 0 < l.stride then a + ((l.count : Int) - 1) * l.stride else a) r.base

/-! ### Descriptors (07 R183, R184) -/

/-- One dimension of a descriptor. -/
structure Dim where
  extent : Nat
  tile : Nat
  stride : Int
  sstride : Int
  origin : Int
  wdrop : Bool
deriving DecidableEq, Repr

/-- A tensor descriptor; `poison`: a byte of it was poisoned (05 R122). -/
structure Desc where
  fmt : Fmt
  base : Nat
  sbase : Nat
  dims : List Dim
  poison : Bool := false
deriving DecidableEq, Repr

/-- Dimension d of the 1,024 bits. -/
def dimAt (x d : Nat) : Dim :=
  let b := 128 + 128 * d
  ⟨fld x (b + 23) b, fld x (b + 31) (b + 24) + 1, sx 40 (fld x (b + 71) (b + 32)), sx 40 (fld x (b + 111) (b + 72)),
   sx 16 (fld x (b + 127) (b + 112)), tbit x (8 + d)⟩

/-- The bytes of one stored block of 32 elements, scales aside (07 R184). -/
def Fmt.blockBytes (f : Fmt) : Nat := 4 * f.bits

/-- What R183 asks of a descriptor whatever its format. -/
def descPlain (x : Nat) : Bool :=
  let nd := fld x 7 5
  nd == 0 || nd == 7 || decide (x / 2 ^ 896 ≠ 0) || fld x 127 112 != 0 || fld x 15 14 != 0
  || (List.range 6).any (fun d => if d < nd then (dimAt x d).extent == 0 else fld x (128 + 128 * d + 127) (128 + 128 * d) != 0 || tbit x (8 + d))

/-- SBASE_VA or an SSTRIDE in use is not zero (R183). -/
def descScales (x : Nat) : Bool := fld x 111 64 != 0 || (List.range (fld x 7 5)).any (fun d => (dimAt x d).sstride != 0)

/-- A descriptor from its 1,024 bits, or the codes of R183 and R184 it breaks. A reserved format is no MX format. -/
def descParse (x : Nat) : Except (List Code) Desc :=
  match Fmt.ofCode (fld x 4 0) with
  | none => .error ([0x1201] ++ when_ (descPlain x || descScales x) 0x1180)
  | some f =>
    let d0 := dimAt x 0
    let bad := descPlain x || (!f.isMx && descScales x)
      || (f.packed && (d0.extent % 32 != 0 || d0.tile % 32 != 0 || d0.origin % 32 != 0 || decide (d0.stride.natAbs < f.blockBytes)))
    if bad then .error [0x1180]
    else .ok { fmt := f, base := fld x 63 16, sbase := fld x 111 64, dims := (List.range (fld x 7 5)).map (dimAt x) }

/-- STRIDE of dimension i. -/
def Desc.stride (d : Desc) (i : Nat) : Int := match d.dims[i]? with
  | some x => x.stride
  | none => 0

/-- T of dimension i. -/
def Desc.tile (d : Desc) (i : Nat) : Nat := match d.dims[i]? with
  | some x => x.tile
  | none => 1

/-- 32 times the byte stride s_d of a dimension (R149, R184: a packed dimension 0 strides STRIDE_0 / 32). -/
def Desc.s32 (d : Desc) (i : Nat) : Int :=
  let st := d.stride i
  if d.fmt.packed ∧ i = 0 then st else 32 * st

/-- The bytes of a unit (R187). -/
def Desc.unitSize (d : Desc) : Nat :=
  let n := d.dims.foldl (fun a x => a * x.tile) 1
  if d.fmt.packed then n / 32 * (d.fmt.blockBytes + if d.fmt.isMx then 1 else 0) else n * (d.fmt.bits / 8)

/-- A unit is one element of w bytes (R187). -/
def Desc.oneElem (d : Desc) (w : Nat) : Bool := !d.fmt.packed && d.dims.all (fun x => x.tile == 1) && d.fmt.bits == 8 * w

/-! ### From a point to its elements (07 R185 to R189) -/

/-- A run of bytes of a point's unit: its address, whether a write of it is discarded, whether it was clamped, and for a clamped
packed block the element whose copies a read returns (bits and index). -/
structure Piece where
  addr : Int
  len : Nat
  drop : Bool := false
  clamp : Bool := false
  rep : Option (Nat × Nat) := none
deriving DecidableEq, Repr

/-- The steps of a descriptor's dimensions in elements for one level; none when R149 or R184 rejects it. -/
def levelStep (d : Desc) (l : Level) : Option Int :=
  if l.dim = 0 then some 0
  else if d.dims.length < l.dim then none
  else
    let s := d.s32 (l.dim - 1)
    if s = 0 then none
    else if (32 * l.stride) % s ≠ 0 then none
    else
      let q := (32 * l.stride) / s
      if d.fmt.packed ∧ l.dim = 1 ∧ q % 32 ≠ 0 then none else some q

/-- The dimensions with a nonzero stride in descending order of its magnitude, the higher first on ties (R185). -/
def strideOrder (d : Desc) : List Nat :=
  let ds := (List.range d.dims.length).filter (fun i => d.stride i != 0)
  let m := fun i => (d.stride i).natAbs
  sortBy (fun a b => decide (m b < m a) || (decide (m b = m a) && decide (b ≤ a))) ds

/-- The starting indices that BASE decomposes into, by dimension (R185). -/
def baseIndices (d : Desc) (base : Int) : Option (List Int) :=
  let r := (strideOrder d).foldl (fun (t : Int × Sp Int × Bool) i =>
    let s := d.s32 i
    let q := Int.tdiv t.1 s
    (t.1 - q * s, spPut t.2.1 i q, t.2.2 && !(d.fmt.packed && i == 0 && q % 32 != 0))) (32 * base, [], true)
  if r.1 = 0 ∧ r.2.2 then some ((List.range d.dims.length).map (fun i => spGet 0 r.2.1 i)) else none

/-- One coordinate clamped (R188): the index used, whether it was clamped, whether a write is discarded there (R189). -/
def clampIdx (x : Dim) (y : Int) : Int × Bool × Bool :=
  if y < 0 then (0, true, x.wdrop)
  else if (x.extent : Int) ≤ y then ((x.extent : Int) - 1, true, x.wdrop)
  else (y, false, false)

/-- The element offsets of a unit, dimension 0 innermost; a packed dimension 0 advances by blocks (R186, R187). -/
def unitOffsets (d : Desc) : List (List Int) :=
  let counts := (List.range d.dims.length).map (fun i =>
    let t := d.tile i
    if d.fmt.packed ∧ i = 0 then t / 32 else t)
  (indexTuples counts).map (fun ix => (List.range ix.length).map (fun i =>
    let v := ((ix[i]?).getD 0 : Nat)
    if d.fmt.packed ∧ i = 0 then 32 * (v : Int) else (v : Int)))

/-- The element piece, and for an MX format the scale piece, of the element or block at indices y with address offset u. -/
def elemPiece (d : Desc) (u : Int) (y : List Int) : Piece × Option Piece :=
  let cs := List.zipWith clampIdx d.dims y
  let cl := cs.any (·.2.1)
  let dr := cs.any (·.2.2)
  let ys := cs.map (·.1)
  let y0 := ys.headD 0
  let rest := (List.zipWith (fun (x : Dim) v => v * x.stride) d.dims ys).tail.foldl (· + ·) 0
  let srest := (List.zipWith (fun (x : Dim) v => v * x.sstride) d.dims ys).tail.foldl (· + ·) 0
  let st0 := d.stride 0
  let ss0 := match d.dims.head? with
    | some x => x.sstride
    | none => 0
  let cl0 := (cs.head?.map (·.2.1)).getD false
  if d.fmt.packed then
    ({ addr := (d.base : Int) + u + (y0 / 32) * st0 + rest, len := d.fmt.blockBytes, drop := dr, clamp := cl,
       rep := if cl0 then some (d.fmt.bits, (y0 % 32).toNat) else none },
     if d.fmt.isMx then some { addr := (d.sbase : Int) + (y0 / 32) * ss0 + srest, len := 1, drop := dr, clamp := cl } else none)
  else ({ addr := (d.base : Int) + u + y0 * st0 + rest, len := d.fmt.bits / 8, drop := dr, clamp := cl }, none)

/-- The pieces of one point's unit: the elements or blocks, then their scales (R187). -/
def pointPieces (d : Desc) (u : Int) (x : List Int) : List Piece :=
  let es := (unitOffsets d).map (fun e => elemPiece d u (List.zipWith (· + ·) x e))
  es.map (·.1) ++ es.filterMap (·.2)

/-- The starting indices and address offset of every point of a SPACE 1 record (R186); none when R149 or R185 rejects it. -/
def descPoints (r : LoopRec) (d : Desc) : Option (List (Int × List Int)) :=
  match baseIndices d r.base with
  | none => none
  | some delta =>
    if r.levels.any (fun l => (levelStep d l).isNone) then none
    else
      let org := List.zipWith (fun (x : Dim) e => x.origin + e) d.dims delta
      some ((indexTuples (r.levels.map (·.count))).map (fun ix =>
        let il := ix.zip r.levels
        (il.foldl (fun a e => if e.2.dim = 0 then a + (e.1 : Int) * e.2.stride else a) 0,
         (List.range d.dims.length).map (fun k => il.foldl (fun a e =>
           if e.2.dim = k + 1 then a + (e.1 : Int) * ((levelStep d e.2).getD 0) else a) ((org[k]?).getD 0)))))

/-! ### Block-coordinate lists (07 R190 to R192) -/

/-- A list as read: per entry, whether it is skipped and what it adds to each dimension; `poison`: a byte of it was poisoned. -/
structure BlockList where
  entries : List (Bool × List Int)
  poison : Bool := false
deriving DecidableEq, Repr

/-- The dimensions that a list header names. -/
def listDims (hdr : Nat) : List Nat := (List.range (fld hdr 2 0)).map (fun i => fld hdr (5 + 3 * i) (3 + 3 * i))

/-- Coordinate i of an entry. -/
def listCoord (e i : Nat) : Int := sx 32 (fld e (32 * i + 31) (32 * i))

/-- A breach of R190 by the header or an entry, under a descriptor of nd dimensions whose format is packed or not. -/
def listBad (nd : Nat) (packed : Bool) (hdr : Nat) (es : List Nat) : Bool :=
  let nc := fld hdr 2 0
  let dims := listDims hdr
  decide (hdr / 2 ^ 13 ≠ 0) || nc == 0 || decide (3 < nc) || decide ((dedup dims).length ≠ dims.length)
  || dims.any (fun k => decide (nd ≤ k)) || (List.range 3).any (fun i => decide (nc ≤ i) && fld hdr (5 + 3 * i) (3 + 3 * i) != 0)
  || es.any (fun e =>
    fld e 126 96 != 0 || (List.range 3).any (fun i => decide (nc ≤ i) && listCoord e i != 0)
    || (packed && !tbit hdr 12 && ((List.range nc).zip dims).any (fun i => i.2 == 0 && listCoord e i.1 % 32 != 0)))

/-- A list from its header and entries against a descriptor; none for a breach of R190. -/
def listParse (d : Desc) (hdr : Nat) (es : List Nat) : Option BlockList :=
  if listBad d.dims.length d.fmt.packed hdr es then none
  else some { entries := es.map (fun e => (tbit e 127, (List.range d.dims.length).map (fun k =>
    match indexOf k (listDims hdr) with
    | none => 0
    | some i => listCoord e i * (if tbit hdr 12 then (d.tile k : Nat) else 1)))) }

/-! ### An operand before the command starts -/

/-- Where an operand's points lie. -/
inductive Place where
  | own
  | store (core : Nat)
  | va
deriving DecidableEq, Repr

/-- One point of an operand: its pieces, and whether a SKIP entry owns it. -/
structure Point where
  pieces : List Piece
  skip : Bool := false
deriving DecidableEq, Repr

/-- An operand ready to walk: its place, its points, the bytes of a unit, whether R197 translated it before start, and whether its
loop record, descriptor or list was poisoned. -/
structure Operand where
  place : Place
  points : List Point
  unit : Nat
  known : Bool := true
  ctl : Bool := false
deriving DecidableEq, Repr

/-- The physical core of a logical core of the kernel that runs on a core. -/
def physCore (s : State) (n lc : Nat) : Option Nat :=
  match (getCore s n).part with
  | none => none
  | some p => (getPart s p).kernel.bind (fun k => k.cores[lc]?)

/-- The loop record at a core-store address, or the codes that reading it meets. -/
def loadLoop (n a : Nat) (s : State) : State × Except (List Code) LoopRec :=
  if a % 64 ≠ 0 then (s, .error [0x1104])
  else match storeCode (getCore s n) a 64 with
    | some c => (s, .error [c])
    | none =>
      let (s1, l) := storeRead n a 64 s
      match loopParse (ofLe (pbData l)) with
      | none => (s1, .error [0x1104])
      | some r => (s1, .ok { r with poison := pbPoison l })

/-- A descriptor as read: its 1,024 bits, their poison, and the descriptor or the codes of R183; no bits where the store refuses the
read. -/
structure DescRead where
  bits : Option Nat
  res : Except (List Code) Desc

/-- The descriptor at a core-store address. -/
def loadDesc (n a : Nat) (s : State) : State × DescRead :=
  match storeCode (getCore s n) a 128 with
  | some c => (s, ⟨none, .error [c]⟩)
  | none =>
    let (s1, l) := storeRead n a 128 s
    let x := ofLe (pbData l)
    (s1, ⟨some x, match descParse x with
      | .ok d => .ok { d with poison := pbPoison l }
      | .error cs => .error cs⟩)

/-- The descriptors that the SPACE 1 records of a command name, each read once (R150). -/
def loadDescs (n : Nat) (rs : List (Except (List Code) LoopRec)) (s : State) : State × List (Nat × DescRead) :=
  let as_ := dedup (rs.filterMap (fun r => match r with
    | .ok r => if r.space = 1 then some r.desc else none
    | .error _ => none))
  as_.foldl (fun (t : State × List (Nat × DescRead)) a => let (s1, d) := loadDesc n a t.1; (s1, t.2 ++ [(a, d)])) (s, [])

/-- The descriptor of a record among those read. -/
def descOf (ds : List (Nat × DescRead)) (r : LoopRec) : DescRead :=
  ((ds.find? (fun e => e.1 == r.desc)).map (·.2)).getD ⟨none, .error []⟩

/-- A level breaks R149 by NDIM or by a STRIDE of 0, which a reserved format does not hide. -/
def levelsBad (x : Nat) (r : LoopRec) : Bool :=
  r.levels.any (fun l => l.dim != 0 && (decide (fld x 7 5 < l.dim) || (dimAt x (l.dim - 1)).stride == 0))

/-- The bytes of a piece list, lowest and highest address touched, pieces of discarded writes aside when writing. -/
def pieceBounds (write : Bool) (ps : List Piece) : Option (Int × Int) :=
  (ps.filter (fun p => !(write && p.drop))).foldl (fun (a : Option (Int × Int)) p =>
    let hi := p.addr + p.len - 1
    match a with
    | none => some (p.addr, hi)
    | some (l, h) => some (min l p.addr, max h hi)) none

/-- An address as the 48 bits of FAULT_VA (05 R140). -/
def vaOf (a : Int) : Nat := wrap 48 a

/-- The code an access of one exact address meets: a negative one is outside the virtual space (R194, R196). -/
def intCode (s : State) (p : Nat) (a : Int) (n : Need) : Option Code := if a < 0 then some 0x2150 else xlateCode s p a.toNat n

/-- The starts of the 64 KiB blocks below address 0 that a footprint meets, at most k of them (fuel): no entry maps them (R197). -/
def negStarts : Nat → Int → Int → List Int
  | 0, _, _ => []
  | k + 1, lo, hi => if 0 ≤ lo ∨ hi < lo then [] else lo :: negStarts k ((lo / 0x10000 + 1) * 0x10000) hi

/-- The page starts between two addresses, counted as R197 counts them, at most 65 of each sign. -/
def boundsPages (s : State) (p : Nat) (b : Option (Int × Int)) : List Int :=
  match b with
  | none => []
  | some (l, h) => negStarts 65 l h ++ if h < 0 then [] else (pageStarts (getPart s p).ptab 65 l.toNat h.toNat).map (fun a => (a : Int))

/-- A SPACE 1 operand checked before start (R197): known, with the codes of its pages, or larger than 64 pages. The element plane and
the scale plane of an MX operand are one range each (DEDUCED, log entry 120). -/
def checkFootprint (s : State) (p : Nat) (need : Need) (pts : List Point) (scales : Bool) : Bool × List Code :=
  let ps := pts.flatMap (·.pieces)
  let el := if scales then ps.filter (fun x => x.len != 1) else ps
  let sc := if scales then ps.filter (fun x => x.len == 1) else []
  let pages := boundsPages s p (pieceBounds need.w el) ++ boundsPages s p (pieceBounds need.w sc)
  if 64 < pages.length then (false, []) else (true, pages.filterMap (fun v => intCode s p v need))

/-- A point of one plain run. -/
def plainPoint (len : Nat) (a : Int) : Point := { pieces := [{ addr := a, len := len }] }

/-- The codes of the store accesses of every point (R149, 03 R78, R79). -/
def storePointCodes (c : Core) (len : Nat) (r : LoopRec) : List Code :=
  when_ (decide (r.low < 0 ∨ (c.size : Int) < r.high + len)) 0x2121
  ++ if c.banks.isEmpty then [] else r.addrs.filterMap (fun a => storeCode c a len)

/-- An operand of a record in SPACE 0 or 2 with units of len bytes (03 R62): a logical core that the kernel does not hold is not a core of
its partition to it, 0x2104 (DEDUCED, log entry 36); the store of a core Absent or Off gives 0x2102. -/
def storeOperand (s : State) (n len : Nat) (r : LoopRec) : Except (List Code) Operand :=
  let pts := r.addrs.map (plainPoint len)
  if r.space = 0 then
    match storePointCodes (getCore s n) len r with
    | [] => .ok { place := .own, points := pts, unit := len, ctl := r.poison }
    | cs => .error cs
  else match physCore s n r.lcore with
    | none => .error [0x2104]
    | some m =>
      if !unitOn s s.units.core m then .error [0x2102]
      else match storePointCodes (getCore s m) len r with
        | [] => .ok { place := .store m, points := pts, unit := len, ctl := r.poison }
        | cs => .error cs

/-- The points of a SPACE 1 record, each list entry in turn when there is a list (R191). -/
def vaPoints (d : Desc) (base : List (Int × List Int)) (list : Option BlockList) : List Point :=
  match list with
  | none => base.map (fun b => { pieces := pointPieces d b.1 b.2 })
  | some bl => bl.entries.flatMap (fun e => base.map (fun b =>
      { pieces := pointPieces d b.1 (List.zipWith (· + ·) b.2 e.2), skip := e.1 }))

/-- An operand of a SPACE 1 record through a descriptor; `fit` gives the codes of R187 for the command at hand. -/
def vaOperand (s : State) (p : Nat) (need : Need) (r : LoopRec) (d : Desc) (list : Option BlockList) (fit : Desc → List Code) :
    Except (List Code) Operand :=
  let dim0 := when_ (d.fmt.isMx && r.levels.any (fun l => l.dim == 0)) 0x1181
  match descPoints r d with
  | none => .error ([0x1104] ++ dim0 ++ fit d)
  | some b =>
    let pts := vaPoints d b list
    let chk := if list.isSome then (false, []) else checkFootprint s p need pts d.fmt.isMx
    match fit d ++ dim0 ++ chk.2 with
    | [] => .ok { place := .va, points := pts, unit := d.unitSize, known := chk.1,
                  ctl := r.poison || d.poison || (list.map (·.poison)).getD false }
    | cs => .error cs

/-! ### Reading and writing units -/

/-- 32 copies of one element of a block (R188). -/
def copies (bits idx : Nat) (blk : List PB) : List PB :=
  pbOf (pbPoison blk) (packBytes bits (List.replicate 32 (packedElem bits (pbData blk) idx)))

/-- The bytes of a piece. -/
def readPiece (n p : Nat) (pl : Place) (x : Piece) (s : State) : Res (List PB) :=
  let raw : Res (List PB) := match pl with
    | .own => let (s1, l) := storeRead n x.addr.toNat x.len s; .ok s1 l
    | .store m => let (s1, l) := storeRead m x.addr.toNat x.len s; .ok s1 l
    | .va => if x.addr < 0 then .err s 0x2150 (vaOf x.addr) else vaRead p x.addr.toNat x.len s
  match x.rep with
  | none => raw
  | some (b, i) => andThen raw (fun s1 l => .ok s1 (copies b i l))

/-- The bytes of a point's unit; a skipped point reads zero bytes (R192). -/
def readPoint (n p : Nat) (o : Operand) (x : Point) (s : State) : Res (List PB) :=
  if x.skip then .ok s (pbOf false (List.replicate o.unit 0))
  else resFold (fun s acc y => andThen (readPiece n p o.place y s) (fun s1 l => .ok s1 (acc ++ l))) x.pieces [] s

/-- Writing a piece; a discarded one writes nothing (R189). -/
def writePiece (n p : Nat) (pl : Place) (x : Piece) (l : List PB) (s : State) : Res Unit :=
  if x.drop then .ok s ()
  else match pl with
    | .own => .ok (storeWrite n x.addr.toNat l s) ()
    | .store m => .ok (storeWrite m x.addr.toNat l s) ()
    | .va => if x.addr < 0 then .err s 0x2150 (vaOf x.addr) else vaWrite p x.addr.toNat l s

/-- Writing a point's unit, its pieces in order; a skipped point writes nothing (R192). -/
def writePoint (n p : Nat) (o : Operand) (x : Point) (l : List PB) (s : State) : Res Unit :=
  if x.skip then .ok s ()
  else andThen (resFold (fun s (rest : List PB) y =>
    andThen (writePiece n p o.place y (rest.take y.len) s) (fun s1 _ => .ok s1 (rest.drop y.len))) x.pieces l s)
    (fun s1 _ => .ok s1 ())

/-- Any access of an operand was clamped (R121). -/
def Operand.clamped (o : Operand) : Bool := o.points.any (fun p => !p.skip && p.pieces.any (·.clamp))

/-- The address ranges of an operand's points. -/
def Operand.ranges (o : Operand) : List (Int × Int) :=
  o.points.flatMap (fun p => if p.skip then [] else p.pieces.map (fun x => (x.addr, x.addr + x.len)))

/-- The address ranges that an operand's points write: discarded pieces aside (07 R189). -/
def Operand.written (o : Operand) : List (Int × Int) :=
  o.points.flatMap (fun p => if p.skip then [] else (p.pieces.filter (fun x => !x.drop)).map (fun x => (x.addr, x.addr + x.len)))

/-- A source and a destination share bytes other than at exactly the same addresses with the same width (06 R157). -/
def badOverlap (a b : Operand) : Bool :=
  decide (a.place = b.place) && decide (a.ranges ≠ b.ranges) &&
  a.ranges.any (fun x => b.written.any (fun y => decide (x.1 < y.2 ∧ y.1 < x.2)))

/-- The bytes that a point writes are poisoned somewhere: those of discarded pieces and of skipped points are not written. -/
def writtenPoison : List Piece → List PB → Bool
  | [], _ => false
  | y :: t, l => (!y.drop && pbPoison (l.take y.len)) || writtenPoison t (l.drop y.len)

/-- Bytes that the spec leaves open, drawn one after another (log entries 6 and 26). -/
def freeBytes (n : Nat) (s : State) : State × List Byte :=
  ({ s with free := s.free + n }, (List.range n).map (fun i => Config.freeByte (s.free + i)))

/-- An output whose result R157 does not define: as many free bytes as the command would have written. -/
def maybeFree (undef : Bool) (l : List PB) (s : State) : State × List PB :=
  if undef then
    let (s1, bs) := freeBytes l.length s
    (s1, List.zipWith (fun b x => (b, x.2)) bs l)
  else (s, l)

end Sys2Proof.Machine
end

