-- ==== Sys2Proof/Machine/Kernel.lean ====
section
/-!
DEFINITION. What all commands of a kernel share: an engine's queue and completion words (05 R119 to R121), waits and increments
(R123 to R127), halts and their records (R138 to R141), and the frame every engine command runs in (06 R163, R164).
-/

namespace Sys2Proof.Machine

/-- Engine number q: 0 ME, 1 VE, 2 MV, 3 TT (06 R144). -/
def getEng (c : Core) (q : Nat) : Engine := if q = 0 then c.me else if q = 1 then c.ve else if q = 2 then c.mv else c.tt

/-- Changing it. -/
def modEng (q : Nat) (g : Engine → Engine) (c : Core) : Core :=
  if q = 0 then { c with me := g c.me } else if q = 1 then { c with ve := g c.ve }
  else if q = 2 then { c with mv := g c.mv } else { c with tt := g c.tt }

/-- The partition a core works for. -/
def corePart (s : State) (n : Nat) : Nat := (getCore s n).part.getD 0

/-- The kernel that runs on a core: its partition's, where that kernel has the core. -/
def coreKernel (s : State) (n : Nat) : Option Kernel :=
  ((getCore s n).part.bind (fun p => (getPart s p).kernel)).filter (fun k => k.cores.contains n)

/-- Ordered Reduction Mode of a core's partition (02 R54). -/
def coreOrdered (s : State) (n : Nat) : Bool := (getPart s (corePart s n)).params.ordered

/-! ### Halts (05 R138 to R140) -/

/-- The part of a halt record that every halt fills alike. -/
def haltBase (s : State) (n : Nat) (code : Code) : HaltRec :=
  { code := code, core := n, lcore := (getCore s n).lcore, pushed := (getCore s n).pushes, tHalt := s.ftime }

/-- The record of a halt whose cause is a command of queue q. -/
def queueRec (s : State) (n q : Nat) (e : QEnt) (code : Code) (partially : Bool) (va : Nat) : HaltRec :=
  { haltBase s n code with
    queue := q, part := partially, slot := e.ordinal % 64, ordinal := e.ordinal, faultVa := va % 2 ^ 48, command := e.cmd }

/-- The record of a halt of the control core. -/
def ctrlRec (s : State) (n : Nat) (code : Code) : HaltRec := { haltBase s n code with ctrl := true }

/-- The halt records of a partition with one more: the last 64, or all of the kernel's when they are more (R140). -/
def addHaltRec (pt : Part) (r : HaltRec) (ofKernel : Nat) : List HaltRec := lastN (max 64 ofKernel) (pt.haltRecs ++ [r])

/-- The number of a kernel's cores that have halted. -/
def haltedCores (s : State) (k : Kernel) : Nat := (k.cores.filter (fun n => (getCore s n).mode == .halted)).length

/-- A halt of one core starts the kernel's halt, unless it is a stop at a count that all cores share (R139, 06 R180). -/
def startsHalt (k : Kernel) (r : HaltRec) : Bool := !(r.code == 0x0110 && k.stopCore == 0xFF)

/-- A halt record of a core written (R140); the first record of a kernel starts its halt. -/
def writeHalt (n : Nat) (r : HaltRec) (s : State) : State :=
    let c := getCore s n
    let s1 := modCore n (fun c => { c with mode := .halted, halt := some r }) s
    match c.part with
    | none => s1
    | some p => modPart p (fun pt => { pt with
        haltRecs := addHaltRec pt r ((pt.kernel.map (fun k => haltedCores s1 k)).getD 0),
        kernel := pt.kernel.map (fun k =>
          if k.halting.isNone && startsHalt k r then { k with halting := some (r.code, c.lcore) } else k) }) s1

/-- A core halts: its queues and its control core stop at their command boundaries, which every command boundary here is, and
one record is written; a core already halted writes no second record (R139, R140). -/
def haltCore (n : Nat) (r : HaltRec) (s : State) : State := if (getCore s n).mode = .halted then s else writeHalt n r s

/-- A queue halts with its head command (R138). -/
def haltQueue (n q : Nat) (e : QEnt) (code : Code) (partially : Bool) (va : Nat) (s : State) : State :=
  haltCore n (queueRec s n q e code partially va) s

/-- The control core halts. -/
def haltCtrl (n : Nat) (code : Code) (s : State) : State := haltCore n (ctrlRec s n code) s

/-! ### Counters (05 R123 to R127) -/

/-- A counter's value. -/
def ctr (c : Core) (i : Nat) : BitVec 32 := spGet 0 c.ctrs i

/-- No increment reaches a core whose partition is Halted (R139, R142). -/
def frozen (s : State) (n : Nat) : Bool :=
  match (getCore s n).part with
  | some p => (getPart s p).st == .halted
  | none => false

/-- An increment by an amount: past 2^32 − 1 the counter stays there and the core that holds it halts with the record given
(R127). -/
def incr (n i amt : Nat) (ovr : HaltRec) (s : State) : State :=
  if frozen s n then s
  else
    let v := (ctr (getCore s n) i).toNat + amt
    if 2 ^ 32 ≤ v then haltCore n ovr (modCore n (fun c => { c with ctrs := spSet 0 c.ctrs i (BitVec.ofNat 32 (2 ^ 32 - 1)) }) s)
    else modCore n (fun c => { c with ctrs := spSet 0 c.ctrs i (BitVec.ofNat 32 v) }) s

/-- The record of an overflow from outside the core: CTRL = 1, FAULT_VA the sending logical core or 0xFF (R127). -/
def outsideRec (s : State) (n lc : Nat) : HaltRec := { ctrlRec s n 0x1110 with faultVa := lc }

/-- A remote increment: of the counter of a logical core of the kernel (R126). -/
def incrRemote (n lc i amt : Nat) (s : State) : State :=
  match physCore s n lc with
  | none => s
  | some m => incr m i amt (outsideRec s m (getCore s n).lcore) s

/-- A wait is met (R123). -/
def waitMet (c : Core) (en i v : Nat) : Bool := en == 0 || decide (v ≤ (ctr c i).toNat)

/-- Both waits of a command are met. -/
def waitsMet (c : Core) (x : Nat) : Bool :=
  waitMet c (fld x 8 8) (fld x 14 9) (fld x 95 64) && waitMet c (fld x 15 15) (fld x 21 16) (fld x 127 96)

/-- One increment field of a completed command (R124). -/
def incrField (n q : Nat) (e : QEnt) (en remote i lc : Nat) (s : State) : State :=
  if en = 0 then s
  else if remote = 1 then incrRemote n lc i 1 s
  else incr n i 1 (queueRec s n q e 0x1110 false 0) s

/-- Increment 0 of a completed command. -/
def incr0 (n q : Nat) (e : QEnt) (s : State) : State :=
  let x := e.cmd.toNat
  incrField n q e (fld x 22 22) (fld x 29 29) (fld x 28 23) (fld x 47 40) s

/-- Increment 1 of a completed command. -/
def incr1 (n q : Nat) (e : QEnt) (s : State) : State :=
  let x := e.cmd.toNat
  incrField n q e (fld x 38 38) (fld x 39 39) (fld x 37 32) (fld x 55 48) s

/-! ### Completion (05 R120, R121) -/

/-- What a completed command leaves in its completion word. -/
structure Done where
  ev : Events := 0
  poison : Bool := false
  clamped : Bool := false
  waited : Bool := false
  info : Code := 0
deriving DecidableEq, Repr

/-- The completion word (R121). -/
def Done.word (d : Done) : BitVec 32 :=
  BitVec.ofNat 32 (put d.info 16 + put (b2n d.clamped) 8 + put (b2n d.poison) 7 + put (b2n d.waited) 6 + d.ev.toNat)

/-- The head command leaves its queue and its word enters the slot of its ordinal; what its engine computed in is gone (R131, R132). -/
def retire (n q : Nat) (e : QEnt) (d : Done) (s : State) : State :=
  modCore n (fun c => { modEng q (fun g => { g with
    queue := g.queue.tail, doneOrd := e.ordinal + 1, slots := spSet 0 g.slots (e.ordinal % 64) d.word,
    events := g.events ||| d.ev, poison := g.poison || d.poison, headSince := s.ftime }) c with scratch := {} }) s

/-- A command completes: its word, then its increments (R124). -/
def complete (n q : Nat) (e : QEnt) (d : Done) (s : State) : State := incr1 n q e (incr0 n q e (retire n q e d s))

/-! ### The frame of an engine command -/

/-- The core executes engine commands: a kernel runs on it and it has not halted. -/
def engActive (c : Core) : Bool := c.mode != .idle && c.mode != .halted

/-- A command pushed after a bank-state change that has not taken effect waits for it (03 R80). -/
def behindBank (c : Core) (q : Nat) (e : QEnt) : Bool := c.bankReqs.any (fun r => decide ((r.after[q]?).getD 0 ≤ e.ordinal))

/-- The head of queue q when it is the engine's opcode and can start (R120, R123). -/
def readyHead (s : State) (n q opc : Nat) : Option QEnt :=
  let c := getCore s n
  match (getEng c q).queue with
  | [] => none
  | e :: _ =>
    if engActive c && fld e.cmd.toNat 5 0 == opc && waitsMet c e.cmd.toNat && !e.waited && !behindBank c q e then some e else none

/-- What the work of a command answers: it completed, or a check rejected it before it did anything. -/
abbrev EngWork := Except Code Done

/-- The command at the head of queue q, if it has the opcode and can start: rejected, stopped partial, or completed (R138,
R164). With no such command the row cannot occur and nothing happens (log entry 1). -/
def runEngine (n q opc : Nat) (body : QEnt → State → Res EngWork) (s : State) : State :=
  match readyHead s n q opc with
  | none => s
  | some e =>
    match body e s with
    | .ok s1 (.ok d) => complete n q e d s1
    | .ok s1 (.error c) => haltQueue n q e c false 0 s1
    | .err s1 c va => haltQueue n q e c true va s1

/-- SYNC of any engine (06 R146): words 4 to 7 must be zero. -/
def syncBody (e : QEnt) (s : State) : Res EngWork :=
  if 2 ^ 128 ≤ e.cmd.toNat then .ok s (.error 0x1101) else .ok s (.ok {})

/-- A list of codes as a rejection with the lowest, or the rest of the work (06 R164). -/
def orReject (codes : List Code) (s : State) (k : State → Res EngWork) : Res EngWork :=
  match lowest codes with
  | some c => .ok s (.error c)
  | none => k s

/-- A rejection when the operand's checks failed. -/
def codesOf {α : Type} : Except (List Code) α → List Code
  | .error cs => cs
  | .ok _ => []

/-! ### Launch (06 R165, R175; 05 R119, R121, R123) -/

/-- An engine at launch: empty, slots 0. -/
def freshEngine (now : Nat) : Engine := { headSince := now }

/-- A core at launch under an image: registers, P and counters 0, the argument block at the start of control memory, STORE_INIT at
the start of the store, the store size of the image. -/
def launchCore (img : Image) (args : List Byte) (p lc now : Nat) (c : Core) : Core :=
  let size := if img.storeSize = 0 then 0x100000 else if img.storeSize = 1 then 0x80000 else 0x40000
  let c := resize size c
  { c with
    regs := [], p := 0, pc := img.entry, mode := .run, waitSince := now, code := img.code, codeChk := [], tmpl := img.templates,
    tmplChk := [], cmem := spWrite c.cmem 0 args, cmemChk := if c.cmemChk.isEmpty then [] else sramChk c.cmemChk 0 (pbOf false args),
    me := freshEngine now, ve := freshEngine now, mv := freshEngine now, tt := freshEngine now, ctrs := [], pushes := 0,
    store := spWrite c.store 0 img.storeInit,
    storeChk := if c.storeChk.isEmpty then [] else sramChk c.storeChk 0 (pbOf false img.storeInit),
    bankReqs := [], lcore := lc, part := some p, lastPush := 0, lastPushQ := 0, lastPushOrd := 0, halt := none,
    stopping := false }

/-- The physical channels of an image's logical channels: the placement's where a KIND 2 relocation binds one to a channel the
partition still has, else ascending (R173, R175; log entry 122). -/
def bindChans (img : Image) (chans : List Nat) : List Nat :=
  ((List.range chans.length).zip chans).map (fun e =>
    match img.binding.find? (fun b => b.1 == 2 && b.2.1 == e.1) with
    | some b => if mem b.2.2 chans then b.2.2 else e.2
    | none => e.2)

/-- A kernel launched on a partition: logical cores to the first present cores, ascending, logical channels as bindChans (R175). -/
def launchKernel (p : Nat) (img : Image) (args : List Byte) (diag : Bool) (stopN stopCore : Nat) (s : State) : State :=
  let pt := getPart s p
  let cs := (presentOf s.units.core (sortNat pt.cores)).take img.lcores
  let hs := (bindChans img (presentOf s.units.chan (sortNat pt.chans))).take img.lchannels
  let s1 := modPart p (fun x => { x with
    kernel := some { image := img, cores := cs, chans := hs, diag := diag, stopN := stopN, stopCore := stopCore },
    launches := x.launches + 1 }) s
  ((List.range cs.length).zip cs).foldl (fun t e => modCore e.2 (launchCore img args p e.1 s.ftime) t) s1

/-- The SCU commands of a partition that have not raised their ready bit. -/
def scuBusy (s : State) (p : Nat) : Bool := s.chans.any (fun e => e.2.queue.any (fun x => x.part == p))

/-- An engine command in progress, which only a DISPATCH that waits for space can be (04 R89). -/
def inProgress (c : Core) : Bool := c.mv.queue.any (fun e => e.waited)

end Sys2Proof.Machine
end

