-- ==== Sys2Proof/Machine/Blocks.lean ====
section
/-!
DEFINITION. Blocks of 32 elements in the core store (06 R152, R463): their sizes, reading them as exact values, and converting
values into them; the alignment rule of a command's segment range (06 R151).
-/

namespace Sys2Proof.Machine

/-- The bytes of a block's scale (R463). -/
def Fmt.scaleBytes (f : Fmt) : Nat :=
  if f.isMx then 1 else match f with
    | .int8 => 4
    | .int4 => 4
    | .kv4 => 4
    | _ => 0

/-- The bytes of a point of a VE operand (R463). -/
def Fmt.pointBytes (f : Fmt) : Nat := f.blockBytes + f.scaleBytes

/-- The value of a block's scale bytes; 1 for a format without one. -/
def Fmt.scaleVal (f : Fmt) (l : List Byte) : Val :=
  if f.isMx then e8m0Val (numAt l 0 1) else match f with
    | .int8 => f32 (numAt l 0 4)
    | .int4 => f32 (numAt l 0 4)
    | .kv4 => Machine.fp16.decode (numAt l 0 2)
    | _ => .num false 1 0

/-- An element with its scale, exactly (02 R35, R37). -/
def Fmt.value (f : Fmt) (scale : Val) (bits : Nat) : Val := if f.scaleBytes = 0 then f.elem bits else (f.elem bits).mul scale

/-- The bytes that hold element i of a packed run are poisoned. -/
def elemPoison (w : Nat) (l : List PB) (i : Nat) : Bool :=
  pbPoison ((l.drop (i * w / 8)).take ((i * w + w - 1) / 8 + 1 - i * w / 8))

/-- The first n values of a block and their poison, its elements and its scale given apart. -/
def blockValues (f : Fmt) (n : Nat) (elems scale : List PB) : List (Val × Bool) :=
  let sv := f.scaleVal (pbData scale)
  let sp := pbPoison scale
  let ed := pbData elems
  (List.range n).map (fun i => (f.value sv (packedElem f.bits ed i), sp || elemPoison f.bits elems i))

/-- The first n values of a VE point. -/
def pointValues (f : Fmt) (n : Nat) (l : List PB) : List (Val × Bool) :=
  blockValues f n (l.take f.blockBytes) (l.drop f.blockBytes)

/-- The poison of packed output bytes from the poison of their elements. -/
def packPoison (w : Nat) (ps : List Bool) : List Bool :=
  (List.range (cdiv (w * ps.length) 8)).map (fun b =>
    ((List.range ps.length).zip ps).any (fun e => e.2 && decide (e.1 * w / 8 ≤ b ∧ b ≤ (e.1 * w + w - 1) / 8)))

/-- Packed elements with their poison. -/
def packPB (w : Nat) (es : List Nat) (ps : List Bool) : List PB := List.zip (packBytes w es) (packPoison w ps)

/-- A converted block: its elements, its scale bytes, its events. -/
structure OutBlock where
  elems : List PB
  scale : List PB
  ev : Events

/-- One value converted to a format without a shared scale (02 R45, R464). -/
def convPlain (f : Fmt) (sat : Bool) (v : Val) : Nat × Events :=
  match f with
  | .fp32 => toF32 v
  | .e8m0 => convE8m0 sat v
  | g => match g.fp with
    | some l => convFp l sat v
    | none => (0, 0)

/-- One value converted to an integer element under a given scale (R46). -/
def convScaled (f : Fmt) (scale v : Val) : Nat × Events :=
  match f with
  | .int8 => convInt 8 127 v scale
  | _ => convInt 4 7 v scale

/-- Values converted into a block (R463): an MX scale is chosen (R48, R49), a given scale is used and left in place. A poisoned
value poisons its element, and an MX block as a whole since the shared scale depends on every value (05 R122). -/
def convBlock (f : Fmt) (sat : Bool) (rule : Nat) (old : List PB) (vs : List (Val × Bool)) : OutBlock :=
  let xs := vs.map (·.1)
  let ps := vs.map (·.2)
  if f.isMx then
    let (sc, es, ev) := convMx f sat rule xs
    let p := ps.any id
    ⟨packPB f.bits es (ps.map (fun _ => p)), [(BitVec.ofNat 8 sc, p)], ev⟩
  else if f.scaleBytes = 0 then
    let rs := xs.map (convPlain f sat)
    ⟨packPB f.bits (rs.map (·.1)) ps, [], orEv (rs.map (·.2))⟩
  else
    let sv := f.scaleVal (pbData old)
    let rs := xs.map (convScaled f sv)
    ⟨packPB f.bits (rs.map (·.1)) (ps.map (fun p => p || pbPoison old)), old, orEv (rs.map (·.2))⟩

/-- The bytes of a converted block as a VE point. -/
def OutBlock.bytes (b : OutBlock) : List PB := b.elems ++ b.scale

/-- SAT and SCALE_RULE of a conversion target (02 R45, R48; 06 R151, R154): reserved where the target takes none, and a reserved
rule. -/
def satRuleCodes (f : Fmt) (sat rule : Nat) (satOk : Bool) : List Code :=
  when_ ((sat != 0 && !satOk) || (rule != 0 && !f.isMx)) 0x1101 ++ when_ (f.isMx && decide (2 ≤ rule)) 0x1204

/-- A segment range [first, first + len) is aligned, its end at the last segment or not (R151). -/
def segAligned (first len : Nat) (last : Bool) : Bool :=
  (List.range 26).any (fun j => decide (first % 2 ^ j = 0) && (if last then decide (len ≤ 2 ^ j) else decide (len = 2 ^ j)))

/-- A format field, with 0x1201 for a reserved code. -/
def fmtField (x : Nat) : Fmt × List Code := match Fmt.ofCode x with
  | some f => (f, [])
  | none => (.fp32, [0x1201])

/-- The loop records of a command, in the order given: each with its codes or its record. A record that two operands name is read once
(06 R150). -/
def loadLoops (n : Nat) (as_ : List Nat) (s : State) : State × List (Except (List Code) LoopRec) :=
  let (s1, seen) := (dedup as_).foldl (fun (t : State × List (Nat × Except (List Code) LoopRec)) a =>
    let (s1, r) := loadLoop n a t.1
    (s1, t.2 ++ [(a, r)])) (s, [])
  (s1, as_.map (fun a => ((seen.find? (fun e => e.1 == a)).map (·.2)).getD (.error [])))

/-- The codes of some loaded records. -/
def loopCodes (rs : List (Except (List Code) LoopRec)) : List Code := rs.flatMap codesOf

/-- The record of a loaded operand, when it loaded. -/
def recOf (rs : List (Except (List Code) LoopRec)) (i : Nat) : LoopRec := match rs[i]? with
  | some (.ok r) => r
  | _ => { space := 0, base := 0, levels := [] }

/-- All the records that loaded. -/
def goodRecs (rs : List (Except (List Code) LoopRec)) : List LoopRec := rs.filterMap (fun r => match r with
  | .ok x => some x
  | .error _ => none)

/-- A loaded record was poisoned, so every output of its command is (05 R122). -/
def ctlPoison (rs : List (Except (List Code) LoopRec)) : Bool := (goodRecs rs).any (·.poison)

/-- Bytes that are poisoned where p holds. -/
def pbAlso (p : Bool) (l : List PB) : List PB := if p then pbOf true (pbData l) else l

/-- Two loaded records disagree in their point counts, taken a and b times (06 R158, R162). -/
def countsDiffer (a : Nat) (x : Except (List Code) LoopRec) (b : Nat) (y : Except (List Code) LoopRec) : Bool :=
  match x, y with
  | .ok x, .ok y => decide (a * x.count ≠ b * y.count)
  | _, _ => false

/-- 0x1105 when a loaded record lies outside SPACE 0 (05 R118). -/
def ownOnly (rs : List (Except (List Code) LoopRec)) : List Code := when_ ((goodRecs rs).any (fun r => r.space != 0)) 0x1105

/-- The store codes of a loaded SPACE 0 record with units of len bytes. -/
def ownCodes (s : State) (n : Nat) (rs : List (Except (List Code) LoopRec)) (i len : Nat) : List Code := match rs[i]? with
  | some (.ok r) => if r.space = 0 then storePointCodes (getCore s n) len r else []
  | _ => []

end Sys2Proof.Machine
end

