-- ==== Sys2Proof/Machine/Ctl.lean ====
section
/-!
DEFINITION. The control core: fetching, the reserved fields and faults of 06 R169, and one meaning per instruction of 06 R166,
R167. A row runs the instruction at its core's program counter when that is one of the row's (log entry 5).
-/

namespace Sys2Proof.Machine

/-- A unit number checked against 00 R4 (log entry 16). -/
def onUnit (what : String) (n bound : Nat) (k : Host.Outcome State Fault Refusal) : Host.Outcome State Fault Refusal :=
  if n < bound then k else .fault (.noSuchUnit what n)

/-- A row of a core. -/
def onCore (n : Nat) (s : State) : Host.Outcome State Fault Refusal := onUnit "core" n 144 (.next s)

/-! ### Registers and fields (06 R165) -/

/-- Register i; g0 reads 0. -/
def reg (c : Core) (i : Nat) : Word := if i = 0 then 0 else spGet 0 c.regs i

/-- Writing register i; a write of g0 is discarded. -/
def setReg (i : Nat) (v : Word) (c : Core) : Core := if i = 0 then c else { c with regs := spSet 0 c.regs i v }

def fRd (w : Nat) : Nat := fld w 25 21
def fRa (w : Nat) : Nat := fld w 20 16
def fRb (w : Nat) : Nat := fld w 15 11
def fImm (w : Nat) : Nat := fld w 15 0
/-- ra of the B and P forms, which stands where rd does. -/
def pRa (w : Nat) : Nat := fld w 25 21
/-- rb of the B and P forms. -/
def pRb (w : Nat) : Nat := fld w 20 16
def sImm (w : Nat) : Word := BitVec.ofInt 64 (sx 16 (fImm w))
def zImm (w : Nat) : Word := BitVec.ofNat 64 (fImm w)

/-! ### Fetch (06 R165, R169) -/

/-- What fetching at the program counter gives. -/
inductive Fetched where
  | none
  | fault (s : State) (code : Code)
  | word (s : State) (w : Nat)

/-- The instruction at the program counter of a running core: beyond the image's code 0x1122, a poisoned byte 0x1125. -/
def fetchInsn (n : Nat) (s : State) : Fetched :=
  let c := getCore s n
  if c.mode ≠ .run then .none
  else if c.code.length < c.pc + 4 ∨ c.pc % 4 ≠ 0 then .fault s 0x1122
  else
    let (s1, l) := codeRead n c.pc 4 s
    if pbPoison l then .fault s1 0x1125 else .word s1 (ofLe (pbData l))

/-- The instruction of a row at a core: `sel` tells the row's words, `bad` lists the faults R169 gives the word (a reserved field
first, then the lowest, log entry 37), `eff` is its effect. A fetch fault halts whichever row comes next. -/
def runInsn (n : Nat) (sel : Nat → Bool) (bad : State → Core → Nat → List Code) (eff : Nat → State → State) (s : State) : State :=
  match fetchInsn n s with
  | .none => s
  | .fault s1 c => haltCtrl n c s1
  | .word s1 w =>
    if sel w then
      match lowest (bad s1 (getCore s1 n) w) with
      | some c => haltCtrl n c s1
      | none => eff w s1
    else s

/-- The words of an opcode. -/
def opIs (k w : Nat) : Bool := w / 2 ^ 26 == k

/-- The program counter moves to the next instruction. -/
def nextPc (c : Core) : Core := { c with pc := c.pc + 4 }

/-- A result written to rd, and the next instruction. -/
def setRd (n i : Nat) (v : Word) (s : State) : State := modCore n (fun c => nextPc (setReg i v c)) s

/-- A reserved field that is not zero (0x1121). -/
def resv (b : Bool) : List Code := when_ b 0x1121

/-- A value, address or selector out of range (0x1124). -/
def badVal (b : Bool) : List Code := when_ b 0x1124

/-! ### Arithmetic (06 R166, R167) -/

/-- The 64-bit result of FUNC on two registers. -/
def aluOp (f : Nat) (a b : Word) : Word :=
  match f with
  | 0 => a + b
  | 1 => a - b
  | 2 => a * b
  | 3 => BitVec.ofNat 64 (a.toNat * b.toNat / 2 ^ 64)
  | 4 => a &&& b
  | 5 => a ||| b
  | 6 => a ^^^ b
  | 7 => a <<< (b.toNat % 64)
  | 8 => a >>> (b.toNat % 64)
  | 9 => a.sshiftRight (b.toNat % 64)
  | 10 => if a.toInt < b.toInt then 1 else 0
  | 11 => if a.toNat < b.toNat then 1 else 0
  | 12 => if b.toInt < a.toInt then b else a
  | 13 => if a.toInt < b.toInt then b else a
  | 14 => if b.toNat < a.toNat then b else a
  | 15 => if a.toNat < b.toNat then b else a
  | 16 => if b = 0 then BitVec.allOnes 64 else a / b
  | _ => if b = 0 then a else a % b

/-- ALU words with a defined FUNC; the others are INSN_UNDEF's. -/
def isAlu (w : Nat) : Bool := opIs 1 w && decide (fld w 10 0 ≤ 17)

def aluEff (n w : Nat) (s : State) : State :=
  let c := getCore s n
  setRd n (fRd w) (aluOp (fld w 10 0) (reg c (fRa w)) (reg c (fRb w))) s

def execAlu (n : Nat) (s : State) : Host.Outcome State Fault Refusal :=
  onCore n (runInsn n isAlu (fun _ _ _ => []) (aluEff n) s)

/-- An instruction rd := f ra with no fault but its reserved fields. -/
def immEff (n : Nat) (f : Word → Nat → Word) (w : Nat) (s : State) : State := setRd n (fRd w) (f (reg (getCore s n) (fRa w)) w) s

def execAddi (n : Nat) (s : State) : Host.Outcome State Fault Refusal :=
  onCore n (runInsn n (opIs 0x02) (fun _ _ _ => []) (immEff n (fun a w => a + sImm w)) s)

def execAndi (n : Nat) (s : State) : Host.Outcome State Fault Refusal :=
  onCore n (runInsn n (opIs 0x03) (fun _ _ _ => []) (immEff n (fun a w => a &&& zImm w)) s)

def execOri (n : Nat) (s : State) : Host.Outcome State Fault Refusal :=
  onCore n (runInsn n (opIs 0x04) (fun _ _ _ => []) (immEff n (fun a w => a ||| zImm w)) s)

def execXori (n : Nat) (s : State) : Host.Outcome State Fault Refusal :=
  onCore n (runInsn n (opIs 0x05) (fun _ _ _ => []) (immEff n (fun a w => a ^^^ zImm w)) s)

/-- IMM[15:6] of a shift is reserved. -/
def shiftResv (_ : State) (_ : Core) (w : Nat) : List Code := resv (fld w 15 6 != 0)

def execShli (n : Nat) (s : State) : Host.Outcome State Fault Refusal :=
  onCore n (runInsn n (opIs 0x06) shiftResv (immEff n (fun a w => a <<< fld w 5 0)) s)

def execShri (n : Nat) (s : State) : Host.Outcome State Fault Refusal :=
  onCore n (runInsn n (opIs 0x07) shiftResv (immEff n (fun a w => a >>> fld w 5 0)) s)

def execSari (n : Nat) (s : State) : Host.Outcome State Fault Refusal :=
  onCore n (runInsn n (opIs 0x08) shiftResv (immEff n (fun a w => a.sshiftRight (fld w 5 0))) s)

def execSlti (n : Nat) (s : State) : Host.Outcome State Fault Refusal :=
  onCore n (runInsn n (opIs 0x09) (fun _ _ _ => []) (immEff n (fun a w => if a.toInt < sx 16 (fImm w) then 1 else 0)) s)

/-- [20:18] of MOVZ and MOVK is reserved. -/
def movResv (_ : State) (_ : Core) (w : Nat) : List Code := resv (fld w 20 18 != 0)

def execMovz (n : Nat) (s : State) : Host.Outcome State Fault Refusal :=
  onCore n (runInsn n (opIs 0x0A) movResv (fun w => setRd n (fRd w) (zImm w <<< (16 * fld w 17 16))) s)

/-- A value with the 16 bits of quarter k replaced. -/
def putQuarter (v : Word) (k imm : Nat) : Word :=
  (v &&& ~~~((0xFFFF : Word) <<< (16 * k))) ||| (BitVec.ofNat 64 imm <<< (16 * k))

def execMovk (n : Nat) (s : State) : Host.Outcome State Fault Refusal :=
  onCore n (runInsn n (opIs 0x0B) movResv
    (fun w s => setRd n (fRd w) (putQuarter (reg (getCore s n) (fRd w)) (fld w 17 16) (fImm w)) s) s)

/-! ### Loads and stores (06 R166, R169) -/

/-- ra + sext(IMM). -/
def memAddr (c : Core) (w : Nat) : Nat := (reg c (fRa w) + sImm w).toNat

/-- Control memory: aligned to 8 and within 16 KiB. -/
def ldcBad (_ : State) (c : Core) (w : Nat) : List Code := badVal (decide (memAddr c w % 8 ≠ 0 ∨ 0x4000 < memAddr c w + 8))

/-- The core store: aligned, within the size, its bank On. -/
def ldsBad (_ : State) (c : Core) (w : Nat) : List Code :=
  let a := memAddr c w
  if a % 8 ≠ 0 ∨ c.size < a + 8 then [0x1124]
  else match storeCode c (a : Int) 8 with
    | some k => [k]
    | none => []

/-- A 64-bit load that read some bytes: a poisoned one faults with 0x1125 and changes no register. -/
def loadRd (n rd : Nat) (r : State × List PB) : State :=
  if pbPoison r.2 then haltCtrl n 0x1125 r.1 else setRd n rd (BitVec.ofNat 64 (ofLe (pbData r.2))) r.1

def execLdc (n : Nat) (s : State) : Host.Outcome State Fault Refusal :=
  onCore n (runInsn n (opIs 0x0C) ldcBad (fun w s => loadRd n (fRd w) (cmemRead n (memAddr (getCore s n) w) 8 s)) s)

def execStc (n : Nat) (s : State) : Host.Outcome State Fault Refusal :=
  onCore n (runInsn n (opIs 0x0D) ldcBad (fun w s =>
    let c := getCore s n
    modCore n nextPc (cmemWrite n (memAddr c w) (leBytes (reg c (fRd w)).toNat 8) s)) s)

def execLds (n : Nat) (s : State) : Host.Outcome State Fault Refusal :=
  onCore n (runInsn n (opIs 0x0E) ldsBad (fun w s => loadRd n (fRd w) (storeRead n (memAddr (getCore s n) w) 8 s)) s)

def execSts (n : Nat) (s : State) : Host.Outcome State Fault Refusal :=
  onCore n (runInsn n (opIs 0x0F) ldsBad (fun w s =>
    let c := getCore s n
    modCore n nextPc (storeWrite n (memAddr c w) (pbOf false (leBytes (reg c (fRd w)).toNat 8)) s)) s)

/-! ### Branches and jumps -/

/-- A target is inside the image's code and at an instruction (R169, log entry 37). -/
def goodTarget (c : Core) (t : Int) : Bool := decide (0 ≤ t ∧ t + 4 ≤ c.code.length ∧ t % 4 = 0)

/-- The target of a B form. -/
def brTarget (c : Core) (w : Nat) : Int := (c.pc : Int) + 4 * sx 16 (fImm w)

/-- A branch under a comparison: a target outside the code faults when the branch is taken (log entry 37). -/
def brBad (t : Word → Word → Bool) (_ : State) (c : Core) (w : Nat) : List Code :=
  when_ (t (reg c (pRa w)) (reg c (pRb w)) && !goodTarget c (brTarget c w)) 0x1122

def brEff (t : Word → Word → Bool) (n w : Nat) (s : State) : State :=
  modCore n (fun c => if t (reg c (pRa w)) (reg c (pRb w)) then { c with pc := (brTarget c w).toNat } else nextPc c) s

/-- One branch row. -/
def branch (k : Nat) (t : Word → Word → Bool) (n : Nat) (s : State) : Host.Outcome State Fault Refusal :=
  onCore n (runInsn n (opIs k) (brBad t) (brEff t n) s)

def execBeq (n : Nat) (s : State) : Host.Outcome State Fault Refusal := branch 0x10 (fun a b => a == b) n s
def execBne (n : Nat) (s : State) : Host.Outcome State Fault Refusal := branch 0x11 (fun a b => a != b) n s
def execBlt (n : Nat) (s : State) : Host.Outcome State Fault Refusal := branch 0x12 (fun a b => decide (a.toInt < b.toInt)) n s
def execBge (n : Nat) (s : State) : Host.Outcome State Fault Refusal := branch 0x13 (fun a b => decide (b.toInt ≤ a.toInt)) n s
def execBltu (n : Nat) (s : State) : Host.Outcome State Fault Refusal := branch 0x14 (fun a b => decide (a.toNat < b.toNat)) n s
def execBgeu (n : Nat) (s : State) : Host.Outcome State Fault Refusal := branch 0x15 (fun a b => decide (b.toNat ≤ a.toNat)) n s

/-- The target of JAL. -/
def jalTarget (c : Core) (w : Nat) : Int := (c.pc : Int) + 4 * sx 21 (fld w 20 0)

/-- The target of JALR. -/
def jalrTarget (c : Core) (w : Nat) : Int := ((reg c (fRa w) + 4 * sImm w).toNat : Int)

/-- rd := PC + 4 and PC := t. -/
def jumpTo (n rd : Nat) (t : Core → Int) (s : State) : State :=
  modCore n (fun c => { setReg rd (BitVec.ofNat 64 (c.pc + 4)) c with pc := (t c).toNat }) s

def execJal (n : Nat) (s : State) : Host.Outcome State Fault Refusal :=
  onCore n (runInsn n (opIs 0x16) (fun _ c w => when_ (!goodTarget c (jalTarget c w)) 0x1122)
    (fun w s => jumpTo n (fRd w) (fun c => jalTarget c w) s) s)

def execJalr (n : Nat) (s : State) : Host.Outcome State Fault Refusal :=
  onCore n (runInsn n (opIs 0x17) (fun _ c w => when_ (!goodTarget c (jalrTarget c w)) 0x1122)
    (fun w s => jumpTo n (fRd w) (fun c => jalrTarget c w) s) s)

/-! ### The push register -/

/-- The template that TPL names: ra + zext(IMM). -/
def tplNo (c : Core) (w : Nat) : Nat := (reg c (fRa w) + zImm w).toNat

def execTpl (n : Nat) (s : State) : Host.Outcome State Fault Refusal :=
  onCore n (runInsn n (opIs 0x20) (fun _ c w => resv (fRd w != 0) ++ badVal (decide (c.tmpl.length ≤ tplNo c w)))
    (fun w s =>
      let r := tmplRead n (tplNo (getCore s n) w) s
      if pbPoison r.2 then haltCtrl n 0x1125 r.1
      else modCore n (fun c => nextPc { c with p := BitVec.ofNat 256 (ofLe (pbData r.2)) }) r.1) s)

/-- P with the W bits from POS replaced. -/
def putField (p : BitVec 256) (pos w v : Nat) : BitVec 256 :=
  BitVec.ofNat 256 (p.toNat - (p.toNat >>> pos) % 2 ^ w * 2 ^ pos + v % 2 ^ w * 2 ^ pos)

def execPset (n : Nat) (s : State) : Host.Outcome State Fault Refusal :=
  onCore n (runInsn n (opIs 0x21) (fun _ _ w => resv (pRb w != 0 || fld w 15 3 != 0))
    (fun w s => modCore n (fun c => nextPc { c with p := putField c.p (32 * fld w 2 0) 32 (reg c (pRa w)).toNat }) s) s)

/-- POS and W of PINS and PADD. -/
def fPos (w : Nat) : Nat := fld w 15 8
def fWid (w : Nat) : Nat := fld w 7 2 + 1

/-- The faults of PINS and PADD. -/
def pinsBad (_ : State) (_ : Core) (w : Nat) : List Code :=
  resv (pRb w != 0 || fld w 1 0 != 0) ++ badVal (decide (256 < fPos w + fWid w))

def execPins (n : Nat) (s : State) : Host.Outcome State Fault Refusal :=
  onCore n (runInsn n (opIs 0x22) pinsBad
    (fun w s => modCore n (fun c => nextPc { c with p := putField c.p (fPos w) (fWid w) (reg c (pRa w)).toNat }) s) s)

def execPadd (n : Nat) (s : State) : Host.Outcome State Fault Refusal :=
  onCore n (runInsn n (opIs 0x23) pinsBad
    (fun w s => modCore n (fun c =>
      nextPc { c with p := putField c.p (fPos w) (fWid w) (c.p.toNat >>> fPos w + (reg c (pRa w)).toNat) }) s) s)

/-- OPC is defined for the engine (R146 and the opcode tables). -/
def opcDefined (eng opc : Nat) : Bool :=
  opc == 0x3F || (opc != 0 && decide (opc ≤ (if eng = 0 then 1 else if eng = 1 then 3 else if eng = 2 then 4 else 2)))

/-- The checks of R163 at push, all the codes that fail. -/
def pushCodes (q lcores x : Nat) : List Code :=
  when_ (!opcDefined q (fld x 5 0)) 0x1100
  ++ when_ (fld x 31 30 != 0 || fld x 63 56 != 0
      || (fld x 8 8 == 0 && (fld x 14 9 != 0 || fld x 95 64 != 0))
      || (fld x 15 15 == 0 && (fld x 21 16 != 0 || fld x 127 96 != 0))
      || (fld x 22 22 == 0 && fld x 28 23 != 0) || (fld x 38 38 == 0 && fld x 37 32 != 0)
      || ((fld x 22 22 == 0 || fld x 29 29 == 0) && fld x 47 40 != 0)
      || ((fld x 38 38 == 0 || fld x 39 39 == 0) && fld x 55 48 != 0)) 0x1101
  ++ when_ (fld x 7 6 != q) 0x1103
  ++ when_ ((fld x 22 22 == 1 && fld x 29 29 == 1 && decide (lcores ≤ fld x 47 40))
      || (fld x 38 38 == 1 && fld x 39 39 == 1 && decide (lcores ≤ fld x 55 48))) 0x1112

/-- A push entered: the command joins the tail, the push is counted, and a core at its stop count stops (R179). -/
def enterPush (n q : Nat) (s : State) : State :=
  let k := coreKernel s n
  modCore n (fun c =>
    let g := getEng c q
    let c1 := modEng q (fun g => { g with
      queue := g.queue ++ [{ cmd := c.p, ordinal := g.nextOrd }], nextOrd := g.nextOrd + 1,
      headSince := if g.queue.isEmpty then s.ftime else g.headSince }) c
    let c2 := { c1 with pushes := c.pushes + 1, lastPush := c.p, lastPushQ := q, lastPushOrd := g.nextOrd }
    let stop := match k with
      | some k => k.stopN != 0 && (k.stopCore == 0xFF || k.stopCore == c.lcore) && k.stopN == c2.pushes
      | none => false
    { nextPc c2 with mode := if stop then .counted else .run }) s

/-- The faults of PUSH: its reserved fields, and the checks of R163 on P. -/
def pushBad (n : Nat) (s : State) (c : Core) (w : Nat) : List Code :=
  if fld w 25 16 != 0 || fld w 15 2 != 0 then resv true
  else pushCodes (fld w 1 0) (((coreKernel s n).map (fun k => k.cores.length)).getD 0) c.p.toNat

/-- PUSH to a queue with room enters it; to a full queue it stalls the control core (05 R119). -/
def pushEff (n w : Nat) (s : State) : State :=
  let q := fld w 1 0
  if (getEng (getCore s n) q).queue.length < 64 then enterPush n q s
  else modCore n (fun c => { c with mode := .stalled q }) s

def execPush (n : Nat) (s : State) : Host.Outcome State Fault Refusal :=
  onCore n (runInsn n (opIs 0x24) (pushBad n) (pushEff n) s)

/-! ### Scoreboard, completion words, banks, identity -/

def execWait (n : Nat) (s : State) : Host.Outcome State Fault Refusal :=
  onCore n (runInsn n (opIs 0x28)
    (fun _ c w => resv (pRb w != 0 || fld w 15 6 != 0) ++ badVal (decide (2 ^ 32 ≤ (reg c (pRa w)).toNat)))
    (fun w s => modCore n (fun c =>
      if (reg c (pRa w)).toNat ≤ (ctr c (fld w 5 0)).toNat then nextPc c
      else { c with mode := .waiting (fld w 5 0) (reg c (pRa w)).toNat, waitSince := s.ftime }) s) s)

/-- The faults of INCR. -/
def incrBad (n : Nat) (s : State) (c : Core) (w : Nat) : List Code :=
  let remote := fld w 6 6 == 1
  let amt := (reg c (pRb w)).toNat
  if (!remote && pRa w != 0) || fld w 15 7 != 0 then resv true
  else when_ (remote && (physCore s n (reg c (pRa w)).toNat).isNone) 0x1112 ++ badVal (amt == 0 || decide (65535 < amt))

def incrEff (n w : Nat) (s : State) : State :=
  let c := getCore s n
  let amt := (reg c (pRb w)).toNat
  let s1 := modCore n nextPc s
  if fld w 6 6 = 1 then incrRemote n (reg c (pRa w)).toNat (fld w 5 0) amt s1
  else incr n (fld w 5 0) amt (ctrlRec s1 n 0x1110) s1

def execIncr (n : Nat) (s : State) : Host.Outcome State Fault Refusal :=
  onCore n (runInsn n (opIs 0x29) (incrBad n) (incrEff n) s)

def execSlot (n : Nat) (s : State) : Host.Outcome State Fault Refusal :=
  onCore n (runInsn n (opIs 0x2A) (fun _ _ w => resv (fld w 15 2 != 0))
    (fun w s =>
      let c := getCore s n
      setRd n (fRd w) (BitVec.ofNat 64 (spGet 0 (getEng c (fld w 1 0)).slots ((reg c (fRa w)).toNat % 64)).toNat) s) s)

/-- Every engine of a core is idle. -/
def enginesIdle (c : Core) : Bool := c.me.queue.isEmpty && c.ve.queue.isEmpty && c.mv.queue.isEmpty && c.tt.queue.isEmpty

/-- The banks a store size uses (03 R78). -/
def banksUsed (size : Nat) : Nat := if size = 0x100000 then 32 else if size = 0x80000 then 16 else 8

/-- The bank state of a BANK code. -/
def bankOfCode (k : Nat) : BankState := if k = 0 then .on else if k = 1 then .retention else .off

def execBank (n : Nat) (s : State) : Host.Outcome State Fault Refusal :=
  onCore n (runInsn n (opIs 0x2B)
    (fun _ c w =>
      let m := (reg c (pRa w)).toNat % 2 ^ 32
      resv (pRb w != 0 || fld w 15 2 != 0)
      ++ badVal (fld w 1 0 == 3 || (m % 2 ^ banksUsed c.size != 0 && !enginesIdle c)))
    (fun w s => modCore n (fun c => nextPc { c with
      bankReqs := c.bankReqs ++ [{ mask := BitVec.ofNat 32 ((reg c (pRa w)).toNat % 2 ^ 32), st := bankOfCode (fld w 1 0),
                                   after := [c.me.nextOrd, c.ve.nextOrd, c.mv.nextOrd, c.tt.nextOrd] }] }) s) s)

/-- The value of an ID selector (R168); selector 5, the local cycle count, is a free value (log entry 27). -/
def idValue (s : State) (n sel : Nat) : Word :=
  let c := getCore s n
  let k := coreKernel s n
  match sel with
  | 0 => BitVec.ofNat 64 c.lcore
  | 1 => BitVec.ofNat 64 ((k.map (fun k => k.cores.length)).getD 0)
  | 2 => BitVec.ofNat 64 ((k.map (fun k => k.image.lchannels)).getD 0)
  | 3 => BitVec.ofNat 64 c.size
  | 4 => BitVec.ofNat 64 (getPart s (corePart s n)).launches
  | 5 => Config.freeWord s.free
  | 6 => BitVec.ofNat 64 s.ftime
  | 7 => BitVec.ofNat 64 n
  | _ => BitVec.ofNat 64 (2 ^ ((k.map (fun k => k.image.waitK)).getD 0))

def execIdSel (n : Nat) (s : State) : Host.Outcome State Fault Refusal :=
  onCore n (runInsn n (opIs 0x2C) (fun _ _ w => resv (fRa w != 0) ++ badVal (decide (9 ≤ fImm w)))
    (fun w s =>
      let s1 := if fImm w = 5 then { s with free := s.free + 1 } else s
      setRd n (fRd w) (idValue s n (fImm w)) s1) s)

/-- The physical channel of a logical channel of the kernel (R175). -/
def physChan (s : State) (n lch : Nat) : Option Nat := (coreKernel s n).bind (fun k => k.chans[lch]?)

def execMapch (n : Nat) (s : State) : Host.Outcome State Fault Refusal :=
  onCore n (runInsn n (opIs 0x2D)
    (fun s c w => resv (fImm w != 0) ++ when_ (physChan s n (reg c (fRa w)).toNat).isNone 0x1123)
    (fun w s => setRd n (fRd w) (BitVec.ofNat 64 ((physChan s n (reg (getCore s n) (fRa w)).toNat).getD 0)) s) s)

def execEndPart (n : Nat) (s : State) : Host.Outcome State Fault Refusal :=
  onCore n (runInsn n (opIs 0x2E) (fun _ _ w => resv (fld w 25 0 != 0))
    (fun _ s => modCore n (fun c => { c with mode := .ended }) s) s)

/-- The opcodes of R166. -/
def opDefined (w : Nat) : Bool :=
  let k := w / 2 ^ 26
  decide (1 ≤ k ∧ k ≤ 0x17) || decide (0x20 ≤ k ∧ k ≤ 0x24) || decide (0x28 ≤ k ∧ k ≤ 0x2E)

/-- A word with an undefined opcode or FUNC. -/
def isUndef (w : Nat) : Bool := !opDefined w || (opIs 1 w && decide (17 < fld w 10 0))

def execInsnUndef (n : Nat) (s : State) : Host.Outcome State Fault Refusal :=
  onCore n (runInsn n isUndef (fun _ _ _ => [0x1120]) (fun _ s => s) s)

/-! ### Events of a core (05 R119, R125, R127, R139; 03 R80; 06 R179) -/

/-- PUSH_RESUMES: a stalled control core pushes when its queue has room. -/
def execPushResumes (n : Nat) (s : State) : Host.Outcome State Fault Refusal :=
  onCore n (match (getCore s n).mode with
    | .stalled q => if (getEng (getCore s n) q).queue.length < 64 then enterPush n q s else s
    | _ => s)

/-- WAIT_RESUMES: a blocked control core goes on once its counter has reached the value. -/
def execWaitResumes (n : Nat) (s : State) : Host.Outcome State Fault Refusal :=
  onCore n (match (getCore s n).mode with
    | .waiting i v => if v ≤ (ctr (getCore s n) i).toNat then modCore n (fun c => nextPc { c with mode := .run }) s else s
    | _ => s)

/-- A bank's bytes gone from a store: they read 0 with valid check bits when the bank is On again (03 R79). -/
def eraseBank (b : Nat) (c : Core) : Core :=
  { c with store := c.store.filter (fun e => storeBank c.size e.1 != b), storeChk := c.storeChk.filter (fun e => storeBank c.size e.1 != b) }

/-- One bank switched; Off loses its contents. -/
def switchBank (st : BankState) (c : Core) (b : Nat) : Core :=
  { (if st = .off then eraseBank b c else c) with banks := spSet .on c.banks b st }

/-- BANK_STATE_EFFECT: the oldest waiting change takes effect once every command pushed before it has completed (03 R80). -/
def execBankStateEffect (n : Nat) (s : State) : Host.Outcome State Fault Refusal :=
  onCore n (match (getCore s n).bankReqs with
    | [] => s
    | r :: _ =>
      let c := getCore s n
      if (List.range 4).all (fun q => decide ((r.after[q]?).getD 0 ≤ (getEng c q).doneOrd)) && c.mode != .halted then
        modCore n (fun c => { (bitsOf 32 r.mask.toNat).foldl (switchBank r.st) c with bankReqs := c.bankReqs.tail }) s
      else s)

/-- The wait limit of a kernel in ns (R127). -/
def waitLimit (s : State) (n : Nat) : Nat := 1000 * 2 ^ (((coreKernel s n).map (fun k => k.image.waitK)).getD 0)

/-- Fabric time moved on to t, if it is not there yet (log entry 2). -/
def timeTo (t : Nat) (s : State) : State := { s with ftime := max s.ftime t }

/-- SB_TIMEOUT: unit 0 to 3 is a queue whose head's waits are not met, 4 the blocked control core; it has waited longer than the
image's limit and halts with 0x1113 (R127). -/
def timeoutEff (n u : Nat) (s : State) : State :=
  let c := getCore s n
  if u < 4 then
    match (getEng c u).queue with
    | [] => s
    | e :: _ =>
      if engActive c && !waitsMet c e.cmd.toNat then
        let s1 := timeTo ((getEng c u).headSince + waitLimit s n + 1) s
        haltQueue n u e 0x1113 false 0 s1
      else s
  else match c.mode with
    | .waiting i v =>
      if (ctr c i).toNat < v then haltCtrl n 0x1113 (timeTo (c.waitSince + waitLimit s n + 1) s) else s
    | _ => s

def execSbTimeout (n u : Nat) (s : State) : Host.Outcome State Fault Refusal :=
  onCore n (if u < 5 then timeoutEff n u s else s)

/-- The record of a stop at the count: QUEUE, SLOT, ORDINAL and COMMAND of the STOP_N-th push (R179). -/
def stopRec (s : State) (n : Nat) : HaltRec :=
  let c := getCore s n
  { haltBase s n 0x0110 with queue := c.lastPushQ, slot := c.lastPushOrd % 64, ordinal := c.lastPushOrd, command := c.lastPush }

/-- STOP_COUNT: a core at its count whose queues are empty halts with 0x0110. -/
def execStopCount (n : Nat) (s : State) : Host.Outcome State Fault Refusal :=
  onCore n (
    let c := getCore s n
    if c.mode = .counted ∧ enginesIdle c = true then haltCore n (stopRec s n) s else s)

/-- HALT_NOTICE: a core of a kernel in which another core halted halts at its boundaries and records 0x1140 with the logical
number of the originating core in FAULT_VA [151:144] (R139, R140). -/
def execHaltNotice (n : Nat) (s : State) : Host.Outcome State Fault Refusal :=
  onCore n (match coreKernel s n with
    | none => s
    | some k => match k.halting with
      | none => s
      | some (_, lc) => haltCore n { ctrlRec s n 0x1140 with faultVa := lc } s)

end Sys2Proof.Machine
end

