-- ==== Sys2Proof/Machine/Vector.lean ====
section
/-!
DEFINITION. The Vector Engine: ELTWISE, REDUCE and COMBINE (06 R154 to R157, R463; 05 R135, R136).
-/

namespace Sys2Proof.Machine

/-! ### ELTWISE (R154) -/

/-- The number of operands of an EOP; none when it is reserved. -/
def eopArity (k : Nat) : Option Nat :=
  if k = 0x00 ∨ (0x07 ≤ k ∧ k ≤ 0x0C) then some 1
  else if k = 0x04 ∨ k = 0x0E then some 3
  else if k ≤ 0x0D ∨ (0x10 ≤ k ∧ k ≤ 0x17) then some 2
  else none

/-- EOPs 0x10 to 0x17, on INT32. -/
def eopInt (k : Nat) : Bool := decide (0x10 ≤ k ∧ k ≤ 0x17)

/-- An FP32 operation on FP32 encodings, its result as an encoding with events (R40, R41). -/
def eopFp (k x y w : Nat) : Nat × Events :=
  match k with
  | 0x00 => (x, readEv (f32 x))
  | 0x01 => f32Add x y
  | 0x02 => f32Sub x y
  | 0x03 => f32Mul x y
  | 0x04 => f32Fma x y w
  | 0x05 => f32Max x y
  | 0x06 => f32Min x y
  | 0x07 => if (f32 x).isNan then (qnan, evNan) else (x % 2 ^ 31, readEv (f32 x))
  | 0x08 => if (f32 x).isNan then (qnan, evNan) else (x ^^^ 2 ^ 31, readEv (f32 x))
  | 0x09 => f32Exp2 x
  | 0x0A => f32Log2 x
  | 0x0B => f32Recip x
  | 0x0C => f32Rsqrt x
  | 0x0D => (if (f32 x).isNan || (f32 y).isNan then 0 else if (f32 x).gtNum (f32 y) then f32One else 0, readEv (f32 x) ||| readEv (f32 y))
  | _ => (if (f32 w).isZero then y else x, readEv (f32 x) ||| readEv (f32 y) ||| readEv (f32 w))

/-- An integer operation on 32-bit codes. -/
def eopI32 (k x y : Nat) : Nat :=
  let a := BitVec.ofNat 32 x
  let b := BitVec.ofNat 32 y
  (match k with
  | 0x10 => a + b
  | 0x11 => a - b
  | 0x12 => a * b
  | 0x13 => a &&& b
  | 0x14 => a ||| b
  | 0x15 => a ^^^ b
  | 0x16 => a <<< (y % 32)
  | _ => a.sshiftRight (y % 32)).toNat

/-- An operand value as the VE holds it: FP32, rounded once (R44; INT32 sets no event). -/
def loadF32 (f : Fmt) (v : Val) : Nat × Events :=
  let (r, e) := toF32 v
  (r, if f = .int32 then 0 else e ||| readEv v)

/-- The words of ELTWISE. -/
structure EltCmd where
  eop : Nat
  xf : Fmt
  yf : Fmt
  zf : Fmt
  sat : Bool
  rule : Nat
  mult : Int

/-- A result multiplied by 2^MULT_EXP, ready to convert. -/
def scaleRes (m : Int) (r : Nat) : Val := (f32 r).scale m

/-- The 32 results of one point of an FP operation from its operands' values. -/
def eltFp (e : EltCmd) (ops : List (List (Val × Bool))) : List (Val × Bool) × Events :=
  let row := fun i (j : Nat) => (((ops[i]?).getD [])[j]?).getD (.num false 0 0, false)
  let rs := (List.range 32).map (fun j =>
    let (x, e1) := loadF32 e.xf (row 0 j).1
    let (y, e2) := loadF32 e.yf (row 1 j).1
    let (w, e3) := loadF32 e.yf (row 2 j).1
    let (r, e4) := eopFp e.eop x y w
    ((scaleRes e.mult r, (row 0 j).2 || (row 1 j).2 || (row 2 j).2), e1 ||| e2 ||| e3 ||| e4))
  (rs.map (·.1), orEv (rs.map (·.2)))

/-- The 32-bit codes of an INT32 point. -/
def i32Codes (l : List PB) : List (Nat × Bool) := (List.range 32).map (fun j => (numAt (pbData l) (4 * j) 4, elemPoison 32 l j))

/-- A poison flag per byte of 32-bit codes. -/
def i32Bytes (l : List (Nat × Bool)) : List PB := l.flatMap (fun e => pbOf e.2 (leBytes e.1 4))

/-- One output point of ELTWISE from its operand points and the bytes already at its place. -/
def eltPoint (e : EltCmd) (ins : List (List PB)) (old : List PB) : List PB × Events :=
  let x := (ins[0]?).getD []
  let y := (ins[1]?).getD []
  if eopInt e.eop then
    (i32Bytes (List.zipWith (fun a b => (eopI32 e.eop a.1 b.1, a.2 || b.2)) (i32Codes x) (i32Codes y)), 0)
  else if e.eop = 0 ∧ e.xf = .int32 then
    if e.zf = .int32 then (i32Bytes (i32Codes x), 0)
    else (i32Bytes ((i32Codes x).map (fun c => ((toF32 ((intVal (sx 32 c.1)).scale e.mult)).1, c.2))), 0)
  else
    let fmts := [e.xf, e.yf, e.yf]
    let (vs, ev) := eltFp e (List.zipWith (fun f l => pointValues f 32 l) fmts ins)
    let b := convBlock e.zf e.sat e.rule (old.drop e.zf.blockBytes) vs
    (b.bytes, ev ||| b.ev)

/-- The checks of ELTWISE's own words (R154). -/
def eltCodes (x : Nat) : List Code :=
  let eop := fld x 231 226
  let ar := eopArity eop
  let (xf, c1) := fmtField (fld x 212 208)
  let (yf, c2) := fmtField (fld x 217 213)
  let (zf, c3) := fmtField (fld x 222 218)
  let unary := ar == some 1
  let ix := c1.isEmpty && xf == .int32
  let iy := !unary && c2.isEmpty && yf == .int32
  let iz := c3.isEmpty && zf == .int32
  let icopy := eop == 0 && ix && iz
  c1 ++ c2 ++ c3 ++ when_ ar.isNone 0x1102 ++ when_ (fld x 239 232 == 0x80) 0x1102
  ++ when_ (if eopInt eop then !(ix && iy && iz) else if eop = 0 then (ix && !(iz || zf == .fp32)) || (iz && !ix) else ix || iy || iz) 0x1201
  ++ when_ ((eopInt eop || icopy) && (fld x 239 232 != 0 || tbit x 223 || fld x 225 224 != 0)) 0x1101
  ++ satRuleCodes zf (fld x 223 223) (fld x 225 224) zf.takesSat
  ++ when_ (fld x 255 240 != 0 || (unary && (fld x 167 148 != 0 || fld x 217 213 != 0)) || (ar != some 3 && fld x 187 168 != 0)) 0x1101

/-- Reading the points of several operands at index i. -/
def readIns (n : Nat) (us : List (Fmt × List Int)) (i : Nat) (s : State) : State × List (List PB) :=
  us.foldl (fun (t : State × List (List PB)) u =>
    let (s1, l) := storeRead n ((u.2[i]?).getD 0).toNat u.1.pointBytes t.1
    (s1, t.2 ++ [l])) (s, [])

/-- Every output point computed, all inputs read before any output is written (R157). -/
def eltAll (n : Nat) (e : EltCmd) (us : List (Fmt × List Int)) (zs : List Int) (s : State) : State × List (List PB) × Events :=
  ((List.range zs.length).zip zs).foldl (fun t z =>
    let (s1, ins) := readIns n us z.1 t.1
    let (s2, old) := if e.zf.scaleBytes = 4 then storeRead n z.2.toNat e.zf.pointBytes s1 else (s1, [])
    let (out, ev) := eltPoint e ins old
    (s2, t.2.1 ++ [out], t.2.2 ||| ev)) (s, [], 0)

/-- The plain operand of some addresses with units of len bytes, for the overlap rule. -/
def plainOperand (len : Nat) (as_ : List Int) : Operand := { place := .own, points := as_.map (plainPoint len), unit := len }

/-- Results written point by point; undefined ones are free bytes (R157, log entry 26). -/
def writeOuts (n : Nat) (undef : Bool) (zs : List Int) (outs : List (List PB)) (s : State) : State :=
  (zs.zip outs).foldl (fun t z => let (s1, l) := maybeFree undef z.2 t; storeWrite n z.1.toNat l s1) s

/-- ELTWISE's work. -/
def eltBody (n : Nat) (q : QEnt) (s : State) : Res EngWork :=
  let x := q.cmd.toNat
  let e : EltCmd :=
    { eop := fld x 231 226, xf := (fmtField (fld x 212 208)).1, yf := (fmtField (fld x 217 213)).1, zf := (fmtField (fld x 222 218)).1,
      sat := tbit x 223, rule := fld x 225 224, mult := sx 8 (fld x 239 232) }
  let ar := (eopArity e.eop).getD 1
  let lrs := [fld x 147 128, fld x 167 148, fld x 187 168].take ar
  let (s1, rs) := loadLoops n (lrs ++ [fld x 207 188]) s
  let fmts := [e.xf, e.yf, e.yf].take ar
  let cnt := (recOf rs ar).count
  let codes := eltCodes x ++ loopCodes rs ++ ownOnly rs
    ++ (((List.range ar).zip fmts).flatMap (fun f => ownCodes s1 n rs f.1 f.2.pointBytes)) ++ ownCodes s1 n rs ar e.zf.pointBytes
    ++ when_ ((loopCodes rs).isEmpty && (List.range ar).any (fun i => decide ((recOf rs i).count ≠ cnt))) 0x1104
  orReject codes s1 (fun s2 =>
    let us := ((List.range ar).zip fmts).map (fun f => (f.2, (recOf rs f.1).addrs))
    let zs := (recOf rs ar).addrs
    let zo := plainOperand e.zf.pointBytes zs
    let undef := us.any (fun u => badOverlap (plainOperand u.1.pointBytes u.2) zo)
    let (s3, res, ev) := eltAll n e us zs s2
    let outs := res.map (pbAlso (ctlPoison rs))
    .ok (writeOuts n undef zs outs s3) (.ok { ev := ev, poison := outs.any pbPoison }))

def execEltwise (n : Nat) (s : State) : Host.Outcome State Fault Refusal := onCore n (runEngine n 1 0x01 (eltBody n) s)

/-! ### REDUCE (R155) -/

/-- A value of REDUCE as the VE loads it: decoded with the scale at its point and rounded once to FP32 (R463, 02 R44), with the events of
that load. -/
def redLoad (f : Fmt) (v : Val) : Val × Events := let (r, e) := loadF32 f v; (f32 r, e)

/-- The values of a group with their load events and poison: its points' blocks, the last cut to LAST_N. -/
def groupValues (f : Fmt) (lastN : Nat) (pts : List (List PB)) : List ((Val × Events) × Bool) :=
  ((List.range pts.length).zip pts).flatMap (fun p =>
    (pointValues f (if p.1 + 1 = pts.length then lastN else 32) p.2).map (fun v => (redLoad f v.1, v.2)))

/-- The load events of some values. -/
def loadEvents (l : List ((Val × Events) × Bool)) : Events := orEv (l.map (fun v => v.1.2))

/-- MAX or MIN of some values, rounded to FP32 (R40). -/
def extremum (join : Nat × Events → Nat × Events → Nat × Events) (vs : List Val) : Nat × Events :=
  (tree join (vs.map (fun v => let (r, e) := toF32 v; (r, e ||| readEv v)))).getD (0, 0)

/-- One result of REDUCE (02 R42, R50, R51; R40 for MAX and MIN). -/
def reduceOp (rop : Nat) (xs ys : List Val) : Nat × Events :=
  let rd := fun (l : List Val) => orEv (l.map readEv)
  match rop with
  | 0 => let (r, e) := reduceTerms xs; (r, e ||| rd xs)
  | 1 => let (r, e) := reduceTerms (xs.map (fun v => v.mul v)); (r, e ||| rd xs)
  | 2 => dotReduce xs ys
  | 3 => extremum joinMax xs
  | _ => extremum joinMin xs

/-- The checks of REDUCE's own words. -/
def redCodes (ordered : Bool) (x : Nat) : List Code :=
  let (_, c1) := fmtField (fld x 192 188)
  let (_, c2) := fmtField (fld x 197 193)
  let rop := fld x 200 198
  let group := fld x 224 201
  let lastN := if fld x 245 241 = 0 then 32 else fld x 245 241
  c1 ++ c2 ++ when_ (decide (5 ≤ rop) || group == 0) 0x1102
  ++ when_ (fld x 255 247 != 0 || (rop != 2 && fld x 167 148 != 0)) 0x1101
  ++ when_ (ordered && group != 0 && !segAligned (fld x 240 225) (cdiv ((group - 1) * 32 + lastN) 1024) (tbit x 246)) 0x1210

/-- REDUCE's work. -/
def redBody (n : Nat) (q : QEnt) (s : State) : Res EngWork :=
  let x := q.cmd.toNat
  let xf := (fmtField (fld x 192 188)).1
  let yf := (fmtField (fld x 197 193)).1
  let rop := fld x 200 198
  let group := fld x 224 201
  let lastN := if fld x 245 241 = 0 then 32 else fld x 245 241
  let dot := rop == 2
  let (s1, rs) := loadLoops n ([fld x 147 128] ++ (if dot then [fld x 167 148] else []) ++ [fld x 187 168]) s
  let zi := if dot then 2 else 1
  let cx := (recOf rs 0).count
  let codes := redCodes (coreOrdered s n) x ++ loopCodes rs ++ ownOnly rs ++ ownCodes s1 n rs 0 xf.pointBytes
    ++ (if dot then ownCodes s1 n rs 1 yf.pointBytes else []) ++ ownCodes s1 n rs zi 4
    ++ when_ ((loopCodes rs).isEmpty && group != 0 &&
        (cx % group != 0 || decide ((recOf rs zi).count ≠ cx / group) || (dot && decide ((recOf rs 1).count ≠ cx)))) 0x1104
  orReject codes s1 (fun s2 =>
    let xa := (recOf rs 0).addrs
    let ya := if dot then (recOf rs 1).addrs else []
    let zs := (recOf rs zi).addrs
    let zo := plainOperand 4 zs
    let undef := badOverlap (plainOperand xf.pointBytes xa) zo || (dot && badOverlap (plainOperand yf.pointBytes ya) zo)
    let (s3, xp) := readBlocksV n xf.pointBytes xa s2
    let (s4, yp) := readBlocksV n yf.pointBytes ya s3
    let gx := (chunksOf group xp).map (groupValues xf lastN)
    let gy := (chunksOf group yp).map (groupValues yf lastN)
    let res := ((List.range gx.length).zip gx).map (fun (g : Nat × List ((Val × Events) × Bool)) =>
      let yv := (gy[g.1]?).getD []
      let (r, e) := reduceOp rop (g.2.map (fun v => v.1.1)) (yv.map (fun v => v.1.1))
      (pbOf (g.2.any (·.2) || yv.any (·.2)) (leBytes r 4), e ||| loadEvents g.2 ||| loadEvents yv))
    let outs := res.map (fun r => pbAlso (ctlPoison rs) r.1)
    .ok (writeOuts n undef zs outs s4) (.ok { ev := orEv (res.map (·.2)), poison := outs.any pbPoison }))
where
  /-- Points of size bytes read from the store. -/
  readBlocksV (n size : Nat) (as_ : List Int) (s : State) : State × List (List PB) :=
    as_.foldl (fun (t : State × List (List PB)) a => let (s1, l) := storeRead n a.toNat size t.1; (s1, t.2 ++ [l])) (s, [])

def execReduce (n : Nat) (s : State) : Host.Outcome State Fault Refusal := onCore n (runEngine n 1 0x02 (redBody n) s)

/-! ### COMBINE (05 R135, R136; R156) -/

/-- A record of a group: first leaf, leaf count, its values (for ATTN with m and l), and its poison. -/
structure CRec where
  first : Nat
  len : Nat
  node : AttnNode
  hdrPoison : Bool
  poison : List Bool

/-- The join of a kind at a tree node (R135). -/
def crecJoin (kind : Nat) (a b : CRec) : CRec :=
  let zip2 := fun (f : Nat → Nat → Nat × Events) =>
    let rs := List.zipWith f a.node.o b.node.o
    ({ m := 0, l := 0, o := rs.map (·.1), ev := a.node.ev ||| b.node.ev ||| orEv (rs.map (·.2)) } : AttnNode)
  { first := a.first, len := a.len + b.len,
    node := if kind = 1 then attnJoin a.node b.node else if kind = 3 then zip2 f32Max else zip2 f32Add,
    hdrPoison := a.hdrPoison || b.hdrPoison, poison := List.zipWith (fun x y => x || y) a.poison b.poison }

/-- The level j of an aligned block of n leaves (R136). -/
def blockLevel (n a len : Nat) : Option Nat :=
  (List.range 18).find? (fun j => decide (a % 2 ^ j = 0 ∧ min (a + 2 ^ j) n = a + len))

/-- One level of R136: the nodes of level j + 1 that are not set, from those of level j. -/
def combLevel (kind n j : Nat) (below above : Sp CRec) : Sp CRec :=
  let c := cdiv n (2 ^ j)
  (List.range (cdiv c 2)).foldl (fun t i =>
    if (spGet? t i).isSome then t
    else match spGet? below (2 * i), (if 2 * i + 1 < c then some (spGet? below (2 * i + 1)) else none) with
      | some a, none => spPut t i a
      | some a, some (some b) => spPut t i (crecJoin kind a b)
      | _, _ => t) above

/-- The tree of R136 from level j up, fuel the levels left; `at_ j` are the records standing at level j. -/
def combTree (kind n : Nat) (at_ : Nat → Sp CRec) : Nat → Nat → Sp CRec → Option CRec
  | 0, _, cur => spGet? cur 0
  | k + 1, j, cur => if n ≤ 2 ^ j then spGet? cur 0 else combTree kind n at_ k (j + 1) (combLevel kind n j cur (at_ (j + 1)))

/-- A leaf range (first, length) stands on an aligned block. -/
def rangeOnBlock (n : Nat) (r : Nat × Nat) : Bool := decide (0 < r.2) && (blockLevel n r.1 r.2).isSome

/-- Some leaf ranges cover [0, n) exactly once. -/
def rangesCover (n : Nat) (rs : List (Nat × Nat)) : Bool :=
  let sorted := sortBy (fun (a b : Nat × Nat) => decide (a.1 ≤ b.1)) rs
  decide (sorted.foldl (fun (a : Nat) (r : Nat × Nat) => if r.1 = a ∧ 0 < r.2 then a + r.2 else n + 1) 0 = n)

/-- The leaf range of a record. -/
def CRec.range (r : CRec) : Nat × Nat := (r.first, r.len)

/-- The records of a group stand on aligned blocks. -/
def recsAligned (n : Nat) (rs : List CRec) : Bool := rs.all (fun r => rangeOnBlock n r.range)

/-- The records of a group cover [0, n) exactly once. -/
def recsCover (n : Nat) (rs : List CRec) : Bool := rangesCover n (rs.map CRec.range)

/-- The records of a group joined: the tree of R136 where they stand aligned and cover exactly, else R51 in table order. -/
def joinGroup (kind n : Nat) (rs : List CRec) : Option CRec :=
  if kind ≠ 3 ∧ recsAligned n rs ∧ recsCover n rs then
    let at_ := fun j => rs.foldl (fun (t : Sp CRec) r =>
      if blockLevel n r.first r.len = some j then spPut t (r.first / 2 ^ j) r else t) []
    combTree kind n at_ 17 0 (at_ 0)
  else tree (crecJoin kind) rs

/-- An FP32 encoding as the device writes it: every NaN is the canonical one (02 R34). -/
def f32Canon (x : Nat) : Nat := if (f32 x).isNan then qnan else x

/-- The final step of a kind (R135): reciprocals of l, or of the count. -/
def combFinal (kind n : Nat) (r : CRec) : List (Nat × Bool) × Events :=
  let mulAll := fun (k : Nat × Events) =>
    let rs := r.node.o.map (fun v => f32Mul v k.1)
    (rs.map (·.1), k.2 ||| orEv (rs.map (·.2)))
  let (vs, ev) := if kind = 1 then mulAll (f32Recip r.node.l) else if kind = 2 then mulAll (f32Recip (f32Round false n 1 0).1)
    else (r.node.o.map f32Canon, 0)
  (List.zip vs (r.poison.map (fun p => p || r.hdrPoison)), ev ||| r.node.ev)

/-- The leaf range of a record of a kind, from its table entry (KIND 0) or its header (R135). -/
def leafRange (kind e hd : Nat) : Nat × Nat :=
  if kind = 0 then (fld e 35 20, fld e 51 36) else if kind = 1 then (fld hd 79 64, fld hd 95 80) else (fld hd 31 16, fld hd 47 32)

/-- The leaf range of a table entry's record before the command starts: none where its header cannot be read. -/
def entryRange (s : State) (n kind e : Nat) : Option (Nat × Nat) :=
  let c := getCore s n
  if kind = 0 then some (leafRange 0 e 0)
  else if (storeCode c ((fld e 19 0 : Nat) : Int) 64).isSome then none
  else some (leafRange kind e (ofLe (pbData (sramBytes c.store c.storeChk (fld e 19 0) 64))))

/-- A record read at its address: KIND 0 has no header. `ep`: its table entry was poisoned. -/
def readRec (n kind L e : Nat) (ep : Bool) (s : State) : State × CRec :=
  let hl := if kind = 0 then 0 else 64
  let (s1, l) := storeRead n (fld e 19 0) (hl + 4 * L) s
  let h := l.take hl
  let hd := ofLe (pbData h)
  let body := l.drop hl
  let (fst, cnt) := leafRange kind e hd
  let o := (List.range L).map (fun i => numAt (pbData body) (4 * i) 4)
  (s1, { first := fst, len := cnt,
         node := { m := if kind = 1 then fld hd 31 0 else 0, l := if kind = 1 then fld hd 63 32 else 0, o := o, ev := orEv (o.map (fun v => readEv (f32 v))) },
         hdrPoison := ep || pbPoison h, poison := (List.range L).map (fun i => elemPoison 32 body i) })

/-- The words of COMBINE. -/
structure CombCmd where
  tbl : Nat
  rcnt : Nat
  nleaf : Nat
  L : Nat
  gcnt : Nat
  z : Nat
  kind : Nat

/-- The checks of COMBINE's own words (R156). -/
def combCodes (m : CombCmd) (x : Nat) : List Code :=
  when_ (x / 2 ^ 235 % 2 ^ 21 != 0) 0x1101
  ++ when_ (decide (4 ≤ m.kind) || m.rcnt == 0 || m.nleaf == 0 || m.L == 0 || m.gcnt == 0 || m.tbl % 8 != 0) 0x1102

/-- The codes of some store ranges (start, length). -/
def rangeCodes (c : Core) (l : List (Nat × Nat)) : List Code := l.filterMap (fun e => storeCode c (e.1 : Int) e.2)

/-- The entries of the block table with their poison. -/
def combEntries (l : List PB) : List (Nat × Bool) := (chunksOf 8 l).map (fun e => (ofLe (pbData e), pbPoison e))

/-- An entry's reserved bits, or its leaf fields in KINDs 1 to 3 (R135). -/
def entryBad (kind e : Nat) : Bool := fld e 63 52 != 0 || (decide (1 ≤ kind ∧ kind ≤ 3) && fld e 51 20 != 0)

/-- The checks of R136 on the leaf ranges of an ordered COMBINE: coverage of each group whose ranges can all be read, alignment of every
range that can. -/
def coverCodes (n : Nat) (groups : List (List (Option (Nat × Nat)))) : List Code :=
  when_ (groups.any (fun g => g.all (·.isSome) && !rangesCover n (g.filterMap id))) 0x1130
  ++ when_ (groups.any (fun g => (g.filterMap id).any (fun (r : Nat × Nat) => !rangeOnBlock n r))) 0x1210

/-- COMBINE's work. -/
def combBody (n : Nat) (q : QEnt) (s : State) : Res EngWork :=
  let x := q.cmd.toNat
  let m : CombCmd :=
    { tbl := fld x 147 128, rcnt := fld x 163 148, nleaf := fld x 179 164, L := fld x 195 180, gcnt := fld x 211 196,
      z := fld x 231 212, kind := fld x 234 232 }
  let c := getCore s n
  let nt := m.gcnt * m.rcnt
  let own := combCodes m x ++ rangeCodes c [(m.tbl, 8 * nt), (m.z, 4 * m.L * m.gcnt)]
  let size := (if m.kind = 0 then 0 else 64) + 4 * m.L
  let readable := decide (m.tbl % 8 = 0) && (rangeCodes c [(m.tbl, 8 * nt)]).isEmpty
  let (s1, tl) := if readable then storeRead n m.tbl (8 * nt) s else (s, [])
  let tab := combEntries tl
  let es := tab.map (·.1)
  let ecodes := when_ (es.any (entryBad m.kind)) 0x1101 ++ rangeCodes c (es.map (fun e => (fld e 19 0, size)))
  let chk := if coreOrdered s n && decide (m.kind < 3) then coverCodes m.nleaf (chunksOf m.rcnt (es.map (entryRange s1 n m.kind))) else []
  orReject (own ++ ecodes ++ chk) s1 (fun s2 =>
    let (s3, recs) := tab.foldl (fun (t : State × List CRec) e =>
      let (t1, r) := readRec n m.kind m.L e.1 e.2 t.1
      (t1, t.2 ++ [r])) (s2, [])
    let outs := (chunksOf m.rcnt recs).map (fun g => match joinGroup m.kind m.nleaf g with
      | some r => combFinal m.kind m.nleaf r
      | none => ([], 0))
    let zs := (List.range m.gcnt).map (fun g => ((m.z + 4 * m.L * g : Nat) : Int))
    let bytes := outs.map (fun o => i32Bytes o.1)
    let zo := plainOperand (4 * m.L) zs
    let hit := fun (a len : Nat) (same : Bool) => zo.ranges.any (fun r => decide (r.1 < a + len ∧ (a : Int) < r.2) && !(same && decide (r.1 = a)))
    let undef := es.any (fun e => hit (fld e 19 0) size (m.kind == 0)) || hit m.tbl (8 * nt) false
    .ok (writeOuts n undef zs bytes s3) (.ok { ev := orEv (outs.map (·.2)), poison := bytes.any pbPoison }))

def execCombine (n : Nat) (s : State) : Host.Outcome State Fault Refusal := onCore n (runEngine n 1 0x03 (combBody n) s)

end Sys2Proof.Machine
end

