-- ==== Sys2Proof/Machine/Move.lean ====
section
/-!
DEFINITION. The Move Engine's copies, maintenance and atomics, and the Turntable: MOVE (06 R158, 07 R187 to R193), CMO (06 R160,
03 R75), ATOMIC (06 R161, 03 R77, 02 R58), LAYOUT and SCALE_EXPAND (06 R162).
-/

namespace Sys2Proof.Machine

/-! ### One side of a command -/

/-- A loop record's operand on any side: through its descriptor in SPACE 1, a run of the store else. A reserved format does not hide a
level that R149 rejects. -/
def sideOperand (n p len : Nat) (need : Need) (list : Option BlockList) (fit : Desc → List Code) (ds : List (Nat × DescRead))
    (r : Except (List Code) LoopRec) (s : State) : Except (List Code) Operand :=
  match r with
  | .error cs => .error cs
  | .ok r =>
    if r.space = 1 then
      let d := descOf ds r
      match d.res with
      | .error cs => .error (cs ++ when_ ((d.bits.map (fun x => levelsBad x r)).getD false) 0x1104)
      | .ok d => vaOperand s p need r d list fit
    else storeOperand s n len r

/-- The operand, or an empty one when its checks failed. -/
def opOf (o : Except (List Code) Operand) : Operand := match o with
  | .ok x => x
  | .error _ => { place := .own, points := [], unit := 0 }

/-- Point i of the source copied to point i of the destination through f (R158, R162): a source point is read and its destination
point written before the next, so a fault leaves the earlier points written (R138, log entry 40). Poison of either side's loop record,
descriptor or list poisons every byte (05 R122). Answers whether a poisoned byte was written. -/
def copyPoints (n p : Nat) (undef : Bool) (src dst : Operand) (f : List PB → List PB) (s : State) : Res Bool :=
  resFold (fun s (po : Bool) (x : Point × Point) =>
    andThen (readPoint n p src x.1 s) (fun s1 l =>
      let (s2, l0) := maybeFree undef (f l) s1
      let l1 := pbAlso (src.ctl || dst.ctl) l0
      andThen (writePoint n p dst x.2 l1 s2) (fun s3 _ => .ok s3 (po || (!x.2.skip && writtenPoison x.2.pieces l1)))))
    (src.points.zip dst.points) false s

/-- What a copy between two operands leaves in the completion word. -/
def copyDone (src dst : Operand) (poison : Bool) : Done := { poison := poison, clamped := src.clamped || dst.clamped }

/-- A source read without the right R and a destination written without W are the needs of a copy. -/
def needR : Need := { r := true }
def needW : Need := { w := true }

/-! ### MOVE (R158, R190 to R193) -/

/-- The words of a block-coordinate list of k entries at a store address, header first, with their poison; or the codes of its place
(R190). -/
def loadList (n a k : Nat) (s : State) : State × Except (List Code) (List Nat × Bool) :=
  if a % 16 ≠ 0 then (s, .error [0x1182])
  else match storeCode (getCore s n) a (16 + 16 * k) with
    | some c => (s, .error [c])
    | none =>
      let (s1, l) := storeRead n a (16 + 16 * k) s
      (s1, .ok ((chunksOf 16 (pbData l)).map ofLe, pbPoison l))

/-- The codes of a list as far as they can be told with `nd` dimensions and packing known. -/
def listCodes (nd : Nat) (packed : Bool) (l : Except (List Code) (List Nat × Bool)) : List Code :=
  match l with
  | .error cs => cs
  | .ok w => when_ (listBad nd packed (w.1.headD 0) w.1.tail) 0x1182

/-- The side of a MOVE that carries the list: SPACE 1 or 0x1105 (R190). Of the faults of its record, descriptor, list and pages all that
can be told count (06 R164). -/
def listSide (n p run : Nat) (need : Need) (l : Except (List Code) (List Nat × Bool)) (ds : List (Nat × DescRead))
    (r : Except (List Code) LoopRec) (s : State) : Except (List Code) Operand :=
  let fit := fun (d : Desc) => when_ (d.unitSize != run) 0x1181
  match r with
  | .error cs => .error (cs ++ listCodes 8 false l)
  | .ok r =>
    if r.space ≠ 1 then .error (0x1105 :: listCodes 8 false l)
    else
      let dr := descOf ds r
      match dr.res with
      | .error _ => .error (codesOf (sideOperand n p run need none fit ds (.ok r) s)
          ++ listCodes ((dr.bits.map (fun x => fld x 7 5)).getD 8) false l)
      | .ok d =>
        match l with
        | .error cs => .error (cs ++ codesOf (vaOperand s p need r d (some { entries := [] }) fit))
        | .ok w =>
          match listParse d (w.1.headD 0) w.1.tail with
          | none => .error (0x1182 :: codesOf (vaOperand s p need r d (some { entries := [] }) fit))
          | some b => vaOperand s p need r d (some { b with poison := w.2 }) fit

/-- MOVE's work. -/
def moveBody (n : Nat) (q : QEnt) (s : State) : Res EngWork :=
  let x := q.cmd.toNat
  let p := corePart s n
  let run := fld x 180 168
  let la := fld x 200 181
  let lk := fld x 216 201
  let dstSide := tbit x 217
  let listed := la != 0 && lk != 0
  let (s1, rs) := loadLoops n [fld x 147 128, fld x 167 148] s
  let (s2, ds) := loadDescs n rs s1
  let (s3, lw) := if listed then loadList n la lk s2 else (s2, .ok ([], false))
  let rec0 := (rs[0]?).getD (.error [])
  let rec1 := (rs[1]?).getD (.error [])
  let side := fun (need : Need) (carries : Bool) r =>
    if listed && carries then listSide n p run need lw ds r s3
    else sideOperand n p run need none (fun d => when_ (d.unitSize != run) 0x1181) ds r s3
  let src := side needR (!dstSide) rec0
  let dst := side needW dstSide rec1
  let times := fun (carries : Bool) => if listed && carries then lk else 1
  let codes := when_ (fld x 255 218 != 0 || (la == 0 && lk != 0)) 0x1101
    ++ when_ (run == 0 || decide (4096 < run) || (la != 0 && lk == 0)) 0x1102 ++ codesOf src ++ codesOf dst
    ++ when_ (countsDiffer (times (!dstSide)) rec0 (times dstSide) rec1) 0x1104
  orReject codes s3 (fun s4 =>
    let so := opOf src
    let d := opOf dst
    andThen (copyPoints n p (badOverlap so d) so d id s4) (fun s5 po => .ok s5 (.ok (copyDone so d po))))

def execMove (n : Nat) (s : State) : Host.Outcome State Fault Refusal := onCore n (runEngine n 2 0x01 (moveBody n) s)

/-! ### CMO (R160, 03 R75) -/

/-- The starts of the pages of a range, each translated for the operation: the codes met. -/
def cmoCodes (s : State) (p va len : Nat) (need : Need) : List Code :=
  if vaEnd < va + len then [0x2150]
  else (pageStarts (getPart s p).ptab 0x1000000 va (va + len - 1)).filterMap (fun a => xlateCode s p a need)

/-- A line number lies in the translated range of a partition. -/
def inVaRange (t : List Pte) (va len L : Nat) : Bool :=
  t.any (fun e =>
    let lo := max va e.va
    let hi := min (va + len) (e.va + pteSize e.bits)
    decide (lo < hi ∧ pteBase e.bits + (lo - e.va) ≤ L * 64 ∧ L * 64 < pteBase e.bits + (hi - e.va)))

/-- CMO's work. -/
def cmoBody (n : Nat) (q : QEnt) (s : State) : Res EngWork :=
  let x := q.cmd.toNat
  let p := corePart s n
  let op := fld x 129 128
  let va := fld x 191 144
  let lines := fld x 226 192
  let need : Need := if op = 0 then { r := true } else { r := true, w := true }
  let own := when_ (fld x 143 130 != 0 || fld x 255 227 != 0) 0x1101
    ++ when_ (op == 3 || lines == 0 || decide (2 ^ 34 < lines)) 0x1102 ++ when_ (va % 64 != 0) 0x2130
  orReject (own ++ if own.isEmpty then cmoCodes s p va (64 * lines) need else []) s (fun s1 =>
    let t := (getPart s1 p).ptab
    let (s2, c) := cmoWhere op (inVaRange t va (64 * lines)) s1
    .ok s2 (.ok { info := if c.discarded = 0 then 0 else 0x0210 }))

def execCmo (n : Nat) (s : State) : Host.Outcome State Fault Refusal := onCore n (runEngine n 2 0x03 (cmoBody n) s)

/-! ### ATOMIC (R161, 03 R77, 02 R58) -/

/-- The bytes of a data type. -/
def atomBytes (dt : Nat) : Nat := if dt = 0 then 4 else if dt = 1 then 8 else if dt = 2 then 4 else 2

/-- The floating-point layout of a data type. -/
def atomFp (dt : Nat) : FpFmt := if dt = 2 then fp32 else if dt = 3 then bf16 else fp16

/-- AOP and DT are a pair that R161 allows. -/
def atomPair (aop dt : Nat) : Bool := (decide (aop ≤ 9) && decide (dt ≤ 1)) || (decide (10 ≤ aop ∧ aop ≤ 12) && decide (2 ≤ dt ∧ dt ≤ 4))

/-- The integer operations of w bits: the value stored after old meets v (c the compare value). -/
def atomInt (w aop old v c : Nat) : Nat :=
  match aop with
  | 0 => (old + v) % 2 ^ w
  | 1 => old &&& v
  | 2 => old ||| v
  | 3 => old ^^^ v
  | 4 => if sx w v < sx w old then v else old
  | 5 => if sx w old < sx w v then v else old
  | 6 => min old v
  | 7 => max old v
  | 8 => v
  | _ => if old = c then v else old

/-- The floating-point operations (R58): one rounding in the element's format; a tie keeps the stored value; NaN wins. -/
def atomFloat (f : FpFmt) (aop old v : Nat) : Nat × Events :=
  let a := f.decode old
  let b := f.decode v
  if aop = 10 then
    let r := a.add b
    let (x, e) := convFp f false r
    (if r.isNan then f.nanBits else x, e ||| readEv a ||| readEv b)
  else if a.isNan || b.isNan then (f.nanBits, evNan ||| readEv a ||| readEv b)
  else if aop = 11 then (if a.gtNum b then v else old, readEv a ||| readEv b)
  else (if b.gtNum a then v else old, readEv a ||| readEv b)

/-- One atomic on an element of dt: the new value and its events. -/
def atomOp (aop dt old v c : Nat) : Nat × Events :=
  if dt ≤ 1 then (atomInt (8 * atomBytes dt) aop old v c, 0) else atomFloat (atomFp dt) aop old v

/-- The format a descriptor of dt's elements holds: 64-bit integers are INT32 elements' addresses taken 8 bytes wide, since R32 has
no 64-bit format (log entry 41). -/
def atomFit (dt : Nat) (d : Desc) : List Code :=
  let f : Fmt := if dt ≤ 1 then .int32 else if dt = 2 then .fp32 else if dt = 3 then .bf16 else .fp16
  when_ (d.fmt != f || d.dims.any (fun x => x.tile != 1)) 0x1181

/-- One atomic at a translated address, in its owning slice (R77): the poison of the element or of an operand stays with the element
(05 R122). Answers the old bytes and the events. -/
def atomAt (dpa aop dt : Nat) (v c : List PB) (s : State) : State × List PB × Events :=
  let w := atomBytes dt
  let (s1, old) := dpaRead 6 dpa w s
  let (x, ev) := atomOp aop dt (ofLe (pbData old)) (ofLe (pbData v)) (ofLe (pbData c))
  (dpaWrite dpa (pbOf (pbPoison old || pbPoison v || pbPoison c) (leBytes x w)) s1, old, ev)

/-- The element address of an atomic's point. -/
def pointAddr (x : Point) : Int := (x.pieces.head?.map (·.addr)).getD 0

/-- A write there is discarded: the element is left alone and its value returned (log entry 41). -/
def pointDrop (x : Point) : Bool := x.pieces.any (·.drop)

/-- The rights an atomic needs: it reads, writes and is an atomic (R196, log entry 39). -/
def needAtom : Need := { r := true, w := true, atom := true }

/-- The checks of one element's translation, R77's after R196's. -/
def atomWhere (s : State) (p : Nat) (a : Int) : Except Code Nat :=
  match if a < 0 then .error 0x2150 else xlateHome s p a.toNat needAtom with
  | .error c => .error c
  | .ok d => if pagePinned s (pageOf d) then .error 0x2111 else .ok d

/-- The words of ATOMIC. -/
structure AtomCmd where
  aop : Nat
  dt : Nat
  ret : Bool

/-- One point of an ATOMIC: operand values read from the store, the atomic, the old value returned; `ctl`: a loop record or the
descriptor was poisoned, and with it every output (05 R122). -/
def atomPoint (n p : Nat) (m : AtomCmd) (ctl : Bool) (x : Point) (va ca ra : Int) (t : State) (acc : Done) : Res Done :=
  let w := atomBytes m.dt
  let (s1, v0) := storeRead n va.toNat w t
  let v := pbAlso ctl v0
  let (s2, c) := if m.aop = 9 then storeRead n ca.toNat w s1 else (s1, [])
  match atomWhere s2 p (pointAddr x) with
  | .error k => .err s2 k (vaOf (pointAddr x))
  | .ok d =>
    let (s3, old, ev) := if pointDrop x then (let (t1, l) := dpaRead 6 d w s2; (t1, l, (0 : Events))) else atomAt d m.aop m.dt v c s2
    let s4 := if m.ret then storeWrite n ra.toNat (pbAlso ctl old) s3 else s3
    .ok s4 { acc with ev := acc.ev ||| ev, poison := acc.poison || pbPoison old || pbPoison v || pbPoison c }

/-- The addresses of a SPACE 0 record, or of none. -/
def addrsOf (rs : List (Except (List Code) LoopRec)) (i : Nat) : List Int := (recOf rs i).addrs

/-- ATOMIC's work. -/
def atomicBody (n : Nat) (q : QEnt) (s : State) : Res EngWork :=
  let x := q.cmd.toNat
  let p := corePart s n
  let m : AtomCmd := { aop := fld x 211 208, dt := fld x 214 212, ret := fld x 207 188 != 0 }
  let cas := m.aop == 9
  let w := atomBytes m.dt
  let (s1, rs) := loadLoops n ([fld x 147 128, fld x 167 148] ++ (if cas then [fld x 187 168] else []) ++ (if m.ret then [fld x 207 188] else [])) s
  let ri := if cas then 3 else 2
  let target := (rs[0]?).getD (.error [])
  let spaces := when_ ((goodRecs rs.tail).any (fun r => r.space != 0) || (goodRecs (rs.take 1)).any (fun r => r.space != 1)) 0x1105
  let (s2, ds) := loadDescs n (rs.take 1) s1
  let tgt := match target with
    | .ok r => if r.space = 1 then sideOperand n p w needAtom none (atomFit m.dt) ds target s2 else .error [0x1105]
    | .error cs => .error cs
  let pts := (opOf tgt).points
  let own := when_ (fld x 255 215 != 0 || (!cas && fld x 187 168 != 0)) 0x1101 ++ when_ (!atomPair m.aop m.dt) 0x1102
    ++ when_ (coreOrdered s n && decide (10 ≤ m.aop ∧ m.aop ≤ 12)) 0x1211
  let shape := when_ (rs.tail.any (countsDiffer 1 target 1)) 0x1104
  let stores := (List.range rs.length).tail.flatMap (fun i => ownCodes s2 n rs i w)
  let align := when_ (pts.any (fun a => decide (pointAddr a % (w : Int) ≠ 0))) 0x2112
  let pinned := if (opOf tgt).known then pts.filterMap (fun a => match atomWhere s2 p (pointAddr a) with
      | .error c => some c
      | .ok _ => none) else []
  let ctl := ctlPoison rs || (opOf tgt).ctl
  orReject (own ++ loopCodes rs ++ spaces ++ codesOf tgt ++ shape ++ stores ++ align ++ pinned) s2 (fun s3 =>
    andThen (resFold (fun t acc i =>
      match pts[i]? with
      | none => .ok t acc
      | some a => atomPoint n p m ctl a (((addrsOf rs 1)[i]?).getD 0) (((addrsOf rs 2)[i]?).getD 0) (((addrsOf rs ri)[i]?).getD 0) t acc)
      (List.range pts.length) { clamped := (opOf tgt).clamped } s3) (fun s4 d => .ok s4 (.ok d)))

def execAtomic (n : Nat) (s : State) : Host.Outcome State Fault Refusal := onCore n (runEngine n 2 0x04 (atomicBody n) s)

/-! ### The Turntable (R162) -/

/-- The bytes of an ESIZE code. -/
def esize (k : Nat) : Nat := 2 ^ k

/-- SPACE 2 is not one of the Turntable's spaces (07 R199): 0x1105. -/
def ttSpace (rs : List (Except (List Code) LoopRec)) : List Code := when_ ((goodRecs rs).any (fun r => r.space == 2)) 0x1105

/-- LAYOUT's work. -/
def layoutBody (n : Nat) (q : QEnt) (s : State) : Res EngWork :=
  let x := q.cmd.toNat
  let p := corePart s n
  let k := fld x 170 168
  let w := esize k
  let (s1, rs) := loadLoops n [fld x 147 128, fld x 167 148] s
  let fit := fun (d : Desc) => when_ (!d.oneElem w) 0x1181
  let (s2, ds) := loadDescs n rs s1
  let rec0 := (rs[0]?).getD (.error [])
  let rec1 := (rs[1]?).getD (.error [])
  let src := sideOperand n p w needR none fit ds rec0 s2
  let dst := sideOperand n p w needW none fit ds rec1 s2
  let codes := when_ (fld x 255 171 != 0) 0x1101 ++ when_ (decide (6 ≤ k)) 0x1102 ++ ttSpace rs ++ codesOf src ++ codesOf dst
    ++ when_ (countsDiffer 1 rec0 1 rec1) 0x1104
  orReject codes s2 (fun s4 =>
    let so := opOf src
    let d := opOf dst
    andThen (copyPoints n p (badOverlap so d) so d id s4) (fun s5 po => .ok s5 (.ok (copyDone so d po))))

def execLayout (n : Nat) (s : State) : Host.Outcome State Fault Refusal := onCore n (runEngine n 3 0x01 (layoutBody n) s)

/-- A scale widened to FP32 (R44): BF16 exactly; a NaN becomes the canonical one. -/
def widenScale (bf : Bool) (l : List PB) : List PB :=
  let b := numAt (pbData l) 0 (if bf then 2 else 4)
  let v := if bf then bf16.decode b else fp32.decode b
  pbOf (pbPoison l) (leBytes (if v.isNan then qnan else if bf then b <<< 16 else b) 4)

/-- SCALE_EXPAND's work: source point i goes to destination points i × REPEAT to i × REPEAT + REPEAT − 1. -/
def expandBody (n : Nat) (q : QEnt) (s : State) : Res EngWork :=
  let x := q.cmd.toNat
  let p := corePart s n
  let bf := tbit x 168
  let w := if bf then 2 else 4
  let rep := fld x 192 169
  let (s1, rs) := loadLoops n [fld x 147 128, fld x 167 148] s
  let fit := fun (k : Nat) (d : Desc) => when_ (!d.oneElem k) 0x1181
  let (s2, ds) := loadDescs n rs s1
  let rec0 := (rs[0]?).getD (.error [])
  let rec1 := (rs[1]?).getD (.error [])
  let src := sideOperand n p w needR none (fit w) ds rec0 s2
  let dst := sideOperand n p 4 needW none (fit 4) ds rec1 s2
  let codes := when_ (fld x 255 193 != 0) 0x1101 ++ when_ (rep == 0) 0x1102 ++ ttSpace rs ++ codesOf src ++ codesOf dst
    ++ when_ (countsDiffer rep rec0 1 rec1) 0x1104
  orReject codes s2 (fun s4 =>
    let so := { opOf src with points := (opOf src).points.flatMap (fun a => List.replicate rep a) }
    let d := opOf dst
    andThen (copyPoints n p (badOverlap (opOf src) d) so d (widenScale bf) s4) (fun s5 po => .ok s5 (.ok (copyDone so d po))))

def execScaleExpand (n : Nat) (s : State) : Host.Outcome State Fault Refusal := onCore n (runEngine n 3 0x02 (expandBody n) s)

end Sys2Proof.Machine
end

