-- ==== Sys2Proof/Machine/Send.lean ====
section
/-!
DEFINITION. Sending SCU commands: the record's fields (04 R91), the checks a core makes before it sends (04 R111 with R88, R92 and
R95 to R104), DISPATCH and DISPATCH_WAIT (06 R159, 04 R89).
-/

namespace Sys2Proof.Machine

/-! ### The record's common fields (R91) -/

def rOp (x : Nat) : Nat := fld x 7 0
def rFmt (x : Nat) : Nat := fld x 12 8
def rReturn (x : Nat) : Bool := tbit x 18

/-- A per-target address field at rank k (R88). -/
def perTgt (a x k : Nat) : Nat := a + k * fld x 127 112 * 0x200000

/-- An SCU domain is On (04 R116); its reset state is Off. -/
def scuOn (s : State) (c : Nat) : Bool := decide (spGet 1 s.units.scu c = 0) && !s.boot.domainsOff

/-- The target set of R88, ascending: present channels that the partition owns. -/
def targetsOf (s : State) (p x : Nat) : List Nat :=
  let own := presentOf s.units.chan (sortNat (getPart s p).chans)
  let tgt := fld x 31 24
  match fld x 17 16 with
  | 0 => own.filter (· == tgt)
  | 1 => own.filter (fun c => c / 32 == tgt % 8)
  | 2 => own
  | _ => []

/-- The codes of the target set (R88, R91, R116). -/
def targetCodes (s : State) (p x : Nat) : List Code :=
  let m := fld x 17 16
  let ts := targetsOf s p x
  if m = 3 then [0x1303]
  else when_ ((m == 1 && fld x 31 27 != 0) || (m == 2 && fld x 31 24 != 0)) 0x1300
    ++ when_ ts.isEmpty 0x1302 ++ when_ (ts.any (fun c => !scuOn s c)) 0x6110

/-- The operation writes results (R92). -/
def hasResults (op : Nat) : Bool := decide (1 ≤ op ∧ op ≤ 3)

/-- The operation is defined (R92). -/
def scuOpOk (op : Nat) : Bool := decide (1 ≤ op ∧ op ≤ 7) || op == 0x0E || op == 0x0F

/-- The bytes of a core's store as they read, errors not recorded. -/
def peekStore (s : State) (n a len : Nat) : List Byte :=
  let c := getCore s n
  pbData (sramBytes c.store c.storeChk a len)

/-- A number in a core's store, where the store can be read. -/
def peekNum (s : State) (n a len : Nat) : Option Nat :=
  if (storeCode (getCore s n) (a : Int) len).isSome then none else some (numAt (peekStore s n a len) 0 len)

/-- The codes of a store range. -/
def storeRange (s : State) (n a len : Nat) : List Code := if len = 0 then [] else (storeCode (getCore s n) (a : Int) len).toList

/-- The checks of the common fields (R91, R92, R104), `dst` the conversion target if there is one. An operation that is reserved has no
results and no conversion, so that the fields that are zero without them count as reserved (DESIGN CHOICE, log entry 123). -/
def commonCodes (s : State) (n x ntgt : Nat) (dst : Option Fmt) : List Code :=
  let op := rOp x
  let sat := tbit x 13
  let rule := fld x 15 14
  let mx := (dst.map (·.isMx)).getD false
  let satOk := (dst.map (fun f => f.isFp8 || f.isMx)).getD false
  when_ (fld x 23 19 != 0 || fld x 63 48 != 0 || fld x 191 176 != 0) 0x1300
  ++ when_ (!scuOpOk op) 0x1301
  ++ when_ ((sat && !satOk) || (rule != 0 && !mx)) 0x1300 ++ when_ (mx && decide (2 ≤ rule)) 0x1204
  ++ when_ (fld x 111 64 % 64 != 0 || fld x 231 212 % 64 != 0) 0x1303
  ++ when_ (!rReturn x && fld x 211 192 != 0) 0x1300 ++ when_ (fld x 211 192 % 64 != 0) 0x1303
  ++ (if hasResults op then
        when_ (fld x 175 128 % 64 != 0) 0x1303
        ++ (if rReturn x then (List.range ntgt).flatMap (fun k => storeRange s n (fld x 211 192 + k * fld x 231 212) (64 * fld x 255 232)) else [])
      else when_ (fld x 175 128 != 0 || fld x 255 232 != 0) 0x1300)

/-! ### GEMV (R95, R96) -/

/-- The element range of a target of rank k. -/
def gemvRange (x k : Nat) : Nat × Nat :=
  let F := fld x 471 464 * 1024
  let kl := fld x 415 400
  let kt := fld x 495 480
  if tbit x 421 then (F + k * kl, min (F + (k + 1) * kl) kt) else (F, F + kl)

/-- Bytes of a vector element. -/
def gemvEsz (x : Nat) : Nat := if tbit x 420 then 2 else 4

/-- Elements of one vector in the core store. -/
def gemvTotal (x : Nat) : Nat := if tbit x 421 then fld x 495 480 - fld x 471 464 * 1024 else fld x 415 400

/-- The vectors' runs in the core store. -/
def gemvRuns (x : Nat) : List (Nat × Nat) :=
  (List.range (fld x 419 416 + 1)).map (fun b => (fld x 447 428 + b * fld x 463 448 * 32, gemvTotal x * gemvEsz x))

/-- The checks of GEMV. -/
def gemvCodes (s : State) (n x ntgt : Nat) (ordered : Bool) : List Code :=
  let (f, c1) := fmtField (rFmt x)
  let F := fld x 471 464 * 1024
  let kl := fld x 415 400
  let kt := fld x 495 480
  let ranges := (List.range ntgt).map (gemvRange x)
  let held := ranges.foldl (fun a r => max a (r.2 - r.1)) 0
  let seg := (tbit x 421 && (kl % 1024 != 0 || decide (kt ≤ F) || (kl != 0 && decide (ntgt ≠ cdiv (kt - F) kl))))
    || ranges.any (fun r => decide (kt < r.2) || decide (r.2 ≤ r.1) || (r.2 % 1024 != 0 && decide (r.2 ≠ kt)))
  c1 ++ when_ (c1.isEmpty && !f.scuOk) 0x1201
  ++ when_ (fld x 427 422 != 0 || fld x 479 472 != 0 || fld x 511 496 != 0 || (!f.isMx && (fld x 367 320 != 0 || fld x 383 368 != 0))) 0x1300
  ++ when_ (fld x 319 304 == 0 || fld x 399 384 == 0 || kl == 0 || decide (32768 < kl) || kt == 0
      || (f.isMx && decide (fld x 383 368 < cdiv kl 32))) 0x1303
  ++ when_ seg 0x1305
  ++ when_ (decide (65536 < (fld x 419 416 + 1) * held * gemvEsz x)) 0x1304
  ++ when_ (ordered && ranges.any (fun r => !alignedRange (r.1 / 1024) (cdiv r.2 1024) (cdiv kt 1024))) 0x1210
  ++ (gemvRuns x).flatMap (fun r => storeRange s n r.1 r.2)

/-! ### ATTN (R97, R99) -/

/-- The head width of D_CODE; 0 for the reserved code. -/
def attnD (x : Nat) : Nat := match fld x 341 340 with
  | 0 => 64
  | 1 => 128
  | 2 => 256
  | _ => 0

/-- The largest T of Paged KV-4 (08 R203), searched down from t. -/
def kv4Tokens (h d : Nat) : Nat → Nat
  | 0 => 0
  | t + 1 => if h * (t + 1) * d + 2 * h * cdiv (t + 1) 32 ≤ 65536 then t + 1 else kv4Tokens h d t

/-- Tokens per page (08 R203). -/
def pageTokens (f : Fmt) (h d : Nat) : Nat :=
  if f = .kv4 then kv4Tokens h d (65536 / (h * d)) else 32768 / (h * d)

/-- A KV page format (08 R202). -/
def Fmt.isKv (f : Fmt) : Bool := f.isFp8 || decide (f = .kv4)

/-- Bytes of a query element. -/
def attnEsz (x : Nat) : Nat := if tbit x 352 then 2 else 4

/-- The number of query vectors. -/
def attnRows (x : Nat) : Nat := fld x 372 368 * fld x 346 342 * fld x 351 347

/-- The bytes of the query block, mask words included. -/
def attnBlock (x : Nat) : Nat := attnRows x * attnD x * attnEsz x + (if tbit x 353 then 2 * fld x 351 347 else 0)

/-- The checks of ATTN. -/
def attnCodes (s : State) (n x : Nat) : List Code :=
  let (f, c1) := fmtField (rFmt x)
  let g := fld x 346 342
  let nodes := fld x 351 347
  let np := fld x 287 276
  let ctx := fld x 307 288
  let hc := fld x 372 368
  let ht := fld x 423 416
  let bad := fld x 341 340 == 3 || g == 0 || decide (16 < g) || nodes == 0 || decide (16 < nodes) || decide (64 < g * nodes)
    || np == 0 || decide (2048 < np) || ctx == 0 || hc == 0 || decide (16 < hc) || ht == 0 || decide (ht < fld x 367 360 + hc)
    || (fld x 341 340 != 3 && ht != 0 && decide (np * pageTokens f ht (attnD x) < ctx))
  let reads := storeRange s n (fld x 275 256) (4 * np) ++ storeRange s n (fld x 339 320) (attnBlock x)
  let word := fun (i : Nat) => fld x 339 320 + attnRows x * attnD x * attnEsz x + 2 * i
  let mask := tbit x 353 && (List.range nodes).any (fun i => decide (2 ^ nodes ≤ (peekNum s n (word i) 2).getD 0))
  c1 ++ when_ (c1.isEmpty && !f.isKv) 0x1201
  ++ when_ (fld x 319 308 != 0 || fld x 359 354 != 0 || fld x 383 373 != 0 || fld x 511 424 != 0) 0x1300
  ++ when_ (bad || mask) 0x1303 ++ when_ (decide (65536 < attnBlock x)) 0x1304 ++ reads

/-! ### GATHER (R100) -/

/-- The scalar formats of GATHER and ELEM. -/
def Fmt.scalarOk (f : Fmt) : Bool := match f with
  | .fp32 => true
  | .bf16 => true
  | .fp16 => true
  | .e4m3 => true
  | .e5m2 => true
  | _ => false

/-- The bytes of the index list. -/
def gatherList (x : Nat) : Nat := 4 * fld x 416 404 + 2 * fld x 425 417

/-- Row indices and bag ends of a list. -/
def gatherIdx (x : Nat) (l : List Byte) : List Nat := (List.range (fld x 416 404)).map (fun i => numAt l (4 * i) 4)
def gatherEnds (x : Nat) (l : List Byte) : List Nat := (List.range (fld x 425 417)).map (fun i => numAt l (4 * fld x 416 404 + 2 * i) 2)

/-- Neighbours, both readable, that do not ascend strictly. -/
def descends : List (Option Nat) → Bool
  | some a :: some b :: t => decide (b ≤ a) || descends (some b :: t)
  | _ :: t => descends t
  | [] => false

/-- The checks of GATHER. -/
def gatherCodes (s : State) (n x : Nat) : List Code :=
  let (f, c1) := fmtField (rFmt x)
  let el := fld x 319 304
  let ni := fld x 416 404
  let nb := fld x 425 417
  let rd := storeRange s n (fld x 403 384) (gatherList x)
  let ends := (List.range nb).map (fun i => peekNum s n (fld x 403 384 + 4 * ni + 2 * i) 2)
  c1 ++ when_ (c1.isEmpty && !f.scalarOk) 0x1201 ++ when_ (fld x 351 336 != 0 || fld x 511 428 != 0) 0x1300
  ++ when_ (el == 0 || decide (16384 < el) || decide (fld x 335 320 * 64 < el * (f.bits / 8)) || fld x 383 352 == 0 || ni == 0
      || decide (4096 < ni) || nb == 0 || decide (256 < nb) || fld x 427 426 == 3
      || descends ends || ((ends.getLast?).bind id).any (· != ni)) 0x1303 ++ rd

/-! ### COPY, FILL, CONVERT, ELEM (R101 to R103) -/

/-- The checks of COPY and FILL; a line address that is not aligned to 64 bytes is a field out of range (DESIGN CHOICE, log entry 123). -/
def copyCodes (s : State) (n x : Nat) : List Code :=
  let fill := rOp x == 5
  when_ (rFmt x != 0 || fld x 319 304 != 0 || fld x 383 368 != 0 || fld x 511 428 != 0 || (fill && fld x 303 256 != 0)
      || (!fill && fld x 427 408 != 0)) 0x1300
  ++ when_ (fld x 407 384 == 0 || decide (32768 < fld x 407 384) || fld x 367 320 % 64 != 0 || (!fill && fld x 303 256 % 64 != 0)) 0x1303
  ++ (if fill then storeRange s n (fld x 427 408) 64 else [])

/-- The operation converts KV pages. -/
def convKv (x : Nat) : Bool := rFmt x == 14 || fld x 372 368 == 14

/-- The pair of formats is one of R102. -/
def convPair (a b : Fmt) : Bool :=
  let src := !(decide (a = .int8) || decide (a = .int4) || decide (a = .int32) || decide (a = .e8m0))
  if a = .kv4 ∨ b = .kv4 then (a.isFp8 && decide (b = .kv4)) || (decide (a = .kv4) && b.isFp8)
  else src && (decide (b = .bf16) || decide (b = .fp16) || b.isFp8 || b.isMx)

/-- The checks of CONVERT. -/
def convertCodes (x : Nat) : List Code :=
  let (a, c1) := fmtField (rFmt x)
  let (b, c2) := fmtField (fld x 372 368)
  c1 ++ c2 ++ when_ (c1.isEmpty && c2.isEmpty && !convPair a b) 0x1201
  ++ when_ (fld x 383 381 != 0 || fld x 447 432 != 0 || fld x 511 496 != 0 || (!a.isMx && fld x 431 384 != 0) || (!b.isMx && fld x 495 448 != 0)) 0x1300
  ++ when_ (fld x 380 373 == 0x80 || fld x 319 304 == 0 || (convKv x && decide (32 < fld x 319 304))) 0x1303

/-- The checks of ELEM. -/
def elemCodes (x : Nat) : List Code :=
  let (a, c1) := fmtField (rFmt x)
  let (b, c2) := fmtField (fld x 375 371)
  let eop := fld x 370 368
  c1 ++ c2 ++ when_ (c1.isEmpty && c2.isEmpty && !(a.scalarOk && b.scalarOk)) 0x1201
  ++ when_ (fld x 383 376 != 0 || fld x 447 432 != 0 || fld x 511 480 != 0 || (eop == 3 && fld x 367 320 != 0)) 0x1300
  ++ when_ (decide (6 ≤ eop) || fld x 319 304 == 0) 0x1303

/-- The conversion target of an operation, when it has one. -/
def convTarget (x : Nat) : Option Fmt :=
  if rOp x = 6 then Fmt.ofCode (fld x 372 368) else if rOp x = 7 then Fmt.ofCode (fld x 375 371) else none

/-- Every code that R111 gives a record, at the core. -/
def recCodes (s : State) (n x : Nat) : List Code :=
  let p := corePart s n
  let k := (targetsOf s p x).length
  targetCodes s p x ++ commonCodes s n x k (convTarget x) ++
  (match rOp x with
  | 1 => gemvCodes s n x k (coreOrdered s n)
  | 2 => attnCodes s n x
  | 3 => gatherCodes s n x
  | 4 => copyCodes s n x
  | 5 => copyCodes s n x
  | 6 => convertCodes x
  | 7 => elemCodes x
  | 14 => when_ (rFmt x != 0 || fld x 511 128 != 0) 0x1300
  | 15 => when_ (rFmt x != 0 || fld x 511 128 != 0) 0x1300
  | _ => [])

/-- The runs of the core store that travel with a record (R86). -/
def recRuns (x : Nat) : List (Nat × Nat) :=
  match rOp x with
  | 1 => gemvRuns x
  | 2 => [(fld x 339 320, attnBlock x), (fld x 275 256, 4 * fld x 287 276)]
  | 3 => [(fld x 403 384, gatherList x)]
  | 5 => [(fld x 427 408, 64)]
  | _ => []

/-! ### DISPATCH (06 R159; 04 R88, R89) -/

/-- The k records from a store address, with their poison. -/
def loadRecs (n a : Nat) : Nat → State → State × List (Nat × Bool)
  | 0, s => (s, [])
  | k + 1, s =>
    let (s1, l) := storeRead n a 64 s
    let (s2, t) := loadRecs n (a + 64) k s1
    (s2, (ofLe (pbData l), pbPoison l) :: t)

/-- One send of a dispatch: record index, rank, channel, record and its poison. -/
structure Send where
  idx : Nat
  rank : Nat
  chan : Nat
  record : Nat
  poison : Bool

/-- The sends of a dispatch in order: for each record, each target. -/
def sendList (s : State) (n : Nat) (recs : List (Nat × Bool)) : List Send :=
  ((List.range recs.length).zip recs).flatMap (fun r =>
    let ts := targetsOf s (corePart s n) r.2.1
    ((List.range ts.length).zip ts).map (fun t => { idx := r.1, rank := t.1, chan := t.2, record := r.2.1, poison := r.2.2 }))

/-- One command accepted by an SCU: counted in its SEQ (R94) and appended to its queue (R89); and whether bytes sent were poisoned. -/
def acceptScu (n : Nat) (q : QEnt) (d : Send) (s : State) : State × Bool :=
  let x := d.record
  let (s1, data) := (recRuns x).foldl (fun (t : State × List PB) r =>
    let (t1, l) := storeRead n r.1 r.2 t.1
    (t1, t.2 ++ l)) (s, [])
  let p := corePart s n
  let ts := targetsOf s p x
  let cmd := q.cmd.toNat
  (modChan d.chan (fun ch => { ch with
    seq := (ch.seq + 1) % 2 ^ 32,
    queue := ch.queue ++ [{ record := BitVec.ofNat 512 x, part := p, core := n, rank := d.rank, nTargets := ts.length, recIdx := d.idx,
                            ctr := if tbit cmd 22 then some (fld cmd 28 23) else none, cmd := q.cmd, ordinal := q.ordinal,
                            data := pbData data, dataPoison := data.map (·.2), recPoison := d.poison, targets := ts,
                            seq := (ch.seq + 1) % 2 ^ 32 }] }) s1, d.poison || pbPoison data)

/-- Sends from a list until an SCU is full: the state, how many were sent, and whether bytes sent were poisoned. -/
def sendAll (n : Nat) (q : QEnt) : List Send → State → State × Nat × Bool
  | [], s => (s, 0, false)
  | d :: t, s =>
    if 16 ≤ (getChan s d.chan).queue.length then (s, 0, false)
    else
      let (s1, po) := acceptScu n q d s
      let (s2, m, po2) := sendAll n q t s1
      (s2, m + 1, po || po2)

/-- The head of the Move Engine's queue changed. -/
def setMvHead (n : Nat) (e : QEnt) (s : State) : State :=
  modCore n (fun c => { c with mv := { c.mv with queue := e :: c.mv.queue.tail } }) s

/-- A dispatch sends what it can: done, it completes with increment 1 (increment 0 comes from the ready bits); held by a full SCU, it
stays at the head with its progress (R89). POISON tells that a byte it sent was poisoned (05 R122). -/
def dispatchGo (n : Nat) (e : QEnt) (recs : List (Nat × Bool)) (s : State) : State :=
  let l := sendList s n recs
  let (s1, m, po) := sendAll n e (l.drop e.sent) s
  if e.sent + m = l.length then incr1 n 2 e (retire n 2 e { waited := e.waited, poison := e.poison || po } s1)
  else setMvHead n { e with sent := e.sent + m, waited := true, poison := e.poison || po } s1

/-- The checks of DISPATCH's own words. -/
def dispatchCodes (s : State) (n x : Nat) : List Code :=
  when_ (fld x 255 154 != 0) 0x1101
  ++ when_ (fld x 153 148 == 0 || fld x 147 128 % 64 != 0 || (tbit x 22 && tbit x 29)) 0x1102
  ++ storeRange s n (fld x 147 128) (64 * fld x 153 148)

def execDispatch (n : Nat) (s : State) : Host.Outcome State Fault Refusal :=
  onCore n (match readyHead s n 2 0x02 with
    | none => s
    | some e =>
      let x := e.cmd.toNat
      let own := dispatchCodes s n x
      let (s1, recs) := if own.isEmpty then loadRecs n (fld x 147 128) (fld x 153 148) s else (s, [])
      match lowest (own ++ recs.flatMap (fun r => recCodes s1 n r.1)) with
      | some c => haltQueue n 2 e c false 0 s1
      | none => dispatchGo n e recs s1)

/-- DISPATCH_WAIT: a held dispatch goes on once the SCU it waits for has space. -/
def execDispatchWait (n : Nat) (s : State) : Host.Outcome State Fault Refusal :=
  onCore n (match (getCore s n).mv.queue with
    | [] => s
    | e :: _ =>
      if e.waited then
        let x := e.cmd.toNat
        let (s1, recs) := loadRecs n (fld x 147 128) (fld x 153 148) s
        dispatchGo n e recs s1
      else s)

end Sys2Proof.Machine
end

