-- ==== Sys2Proof/Machine/Scu.lean ====
section
/-!
DEFINITION. The Stack Compute Units: the checks a target makes before its first bank access (04 R90), the status record (R94), and
what each operation reads, computes and writes (R95 to R104), with refresh (R107). A row runs the command at the head of its SCU's
queue when that is one of the row's.
-/

namespace Sys2Proof.Machine

/-! ### A target's memory (R86, R90) -/

def needSr : Need := { r := true, scu := true }
def needSw : Need := { w := true, scu := true }

/-- The codes of one page at a target whose pages may lie on the channels given: R196, 0x2103, 0x2140 and 0x2110, every one that applies
(R90, R111, 07 R196). -/
def scuPageOn (s : State) (p : Nat) (chans : List Nat) (need : Need) (va : Nat) : List Code :=
  match xlateHome s p va need with
  | .error c => [c]
  | .ok d =>
    if !pagePinned s (pageOf d) then [0x2103]
    else when_ (!mem (homeOf (pageOf d)) chans) 0x2140 ++ when_ (frameCached s (pageOf d)) 0x2110

/-- The codes of one page that must lie on the target's own channel. -/
def scuPage (s : State) (p chan : Nat) (need : Need) (va : Nat) : List Code := scuPageOn s p [chan] need va

/-- The codes of every page of a range. -/
def scuRange (s : State) (p chan : Nat) (need : Need) (va len : Nat) : List Code :=
  if len = 0 then [] else (pageStarts (getPart s p).ptab 0x1000000 va (va + len - 1)).flatMap (scuPage s p chan need)

/-- The DPA pieces of a range, one per page (start, length). -/
def scuPieces (s : State) (p va len : Nat) : List (Nat × Nat) :=
  if len = 0 then []
  else
    let t := (getPart s p).ptab
    (pageStarts t 0x1000000 va (va + len - 1)).filterMap (fun a =>
      (pteAt t a).map (fun e => (pteBase e.bits + (a - e.va), min (va + len) (e.va + pteSize e.bits) - a)))

/-- Two lists of pieces share a byte. -/
def piecesMeet (a b : List (Nat × Nat)) : Bool :=
  a.any (fun x => b.any (fun y => decide (x.1 < y.1 + y.2 ∧ y.1 < x.1 + x.2)))

/-- The sweep rows that some pieces touch (R87). -/
def sweepRows (ps : List (Nat × Nat)) : List Nat :=
  dedup (ps.flatMap (fun e =>
    let o := e.1 % chanBytes
    (List.range ((o + e.2 - 1) / 0x18000 + 1 - o / 0x18000)).map (fun i => o / 0x18000 + i)))

/-- A run of channel offsets has a byte in the bank-row of a bank and row, eight chunks of 256 bytes (03 R60). -/
def inBankRow (bank row : Nat) (run : Nat × Nat) : Bool :=
  (List.range 8).any (fun j =>
    let c := row * 0x18000 + j * 0x3000 + bank * 256
    decide (c < run.1 % chanBytes + run.2 ∧ run.1 % chanBytes < c + 256))

/-- The reads of a command's operand regions (R87): in ascending sweep rows, each bank-row that holds a byte of a region whole; within a
sweep row by ascending offset (the order is the SCU's own; log entry 123). Only a line with a check difference shows that it was read. -/
def sweep (chan : Nat) (ps : List (Nat × Nat)) (s : State) : State :=
  (s.mem.chk.filter (fun e => decide (e.1 * 64 / chanBytes = chan)
      && ps.any (inBankRow (bankOf (e.1 * 64 % chanBytes)) (dramRow (e.1 * 64 % chanBytes))))).foldl
    (fun t e => (stackRead 0 chan (e.1 * 64 % chanBytes) t).1) s

/-- What a sweep that has read a line holds of it. -/
def lineHeld (s : State) (chan off : Nat) : List PB :=
  let data := rawLine s chan off
  if (getChan s chan).failed then pbOf true data
  else match lineDecode (rawChk s chan off) with
    | .good => pbOf false data
    | .corrected es => pbOf false (applyFix data es)
    | _ => pbOf true data

/-- n bytes of a region of a target's channel as its sweep has read them, past the cache. -/
def scuRead (s : State) (p va n : Nat) : List PB :=
  (lineSpans va n).flatMap (fun sp =>
    match xlate (getPart s p).ptab (sp.1 * 64) needSr with
    | .error _ => []
    | .ok d => ((lineHeld s (homeOf (pageOf d)) (d % chanBytes)).drop sp.2.1).take sp.2.2)

/-- One piece of a write: a whole line, or bytes over those the line holds (log entry 44); and whether the line is written poisoned. -/
def scuWriteLine (c o off : Nat) (mine : List PB) (s : State) : State × Bool :=
  if mine.length = 64 then (stackWrite c o mine s, pbPoison mine)
  else
    let (s1, old) := stackRead 6 c o s
    let l := old.take off ++ mine ++ old.drop (off + mine.length)
    (stackWrite c o l s1, pbPoison l)

/-- Bytes written by a target to its channel in whole lines, and whether any line was written poisoned (R94). -/
def scuWrite (p va : Nat) (bytes : List PB) (s : State) : State × Bool :=
  let r := (lineSpans va bytes.length).foldl (fun (t : (State × Bool) × List PB) sp =>
    match xlate (getPart t.1.1 p).ptab (sp.1 * 64) needSw with
    | .error _ => (t.1, t.2.drop sp.2.2)
    | .ok d =>
      let w := scuWriteLine (homeOf (pageOf d)) (d % chanBytes) sp.2.1 (t.2.take sp.2.2) t.1.1
      ((w.1, t.1.2 || w.2), t.2.drop sp.2.2)) ((s, false), bytes)
  r.1

/-- Outputs of a command whose record was poisoned depend on it (05 R122, R112). -/
def ScuEnt.taint (e : ScuEnt) (l : List PB) : List PB := if e.recPoison then pbOf true (pbData l) else l

/-! ### The status record (R94) -/

/-- What a target reports. -/
structure ScuDone where
  ev : Events := 0
  poison : Bool := false
  units : Nat := 0
  rows : Nat := 0
  nblocks : Nat := 0
deriving DecidableEq, Repr

/-- The 64 bytes of a status record. -/
def statusBytes (e : ScuEnt) (chan state : Nat) (code : Code) (tStart tEnd pauses : Nat) (d : ScuDone) : List Byte :=
  let x := e.record.toNat
  leBytes (fld x 47 32 + put (rOp x) 16 + put state 24 + put code 32 + put d.ev.toNat 48 + put (b2n d.poison) 53 + put chan 64
    + put e.rank 72 + put (d.units % 2 ^ 32) 96 + put (tStart % 2 ^ 64) 128 + put (tEnd % 2 ^ 64) 192 + put (d.rows % 2 ^ 32) 256
    + put (pauses % 2 ^ 16) 288 + put (d.nblocks % 2 ^ 16) 304 + put e.seq 320) 64

/-- STATUS_VA at a target. -/
def statusVa (e : ScuEnt) : Nat := perTgt (fld e.record.toNat 111 64) e.record.toNat e.rank

/-- Writing the status record, where the target can write it. -/
def writeStatus (e : ScuEnt) (chan state : Nat) (code : Code) (tStart tEnd pauses : Nat) (d : ScuDone) (s : State) : State :=
  if (scuRange s e.part chan needSw (statusVa e) 64).isEmpty then
    (scuWrite e.part (statusVa e) (pbOf false (statusBytes e chan state code tStart tEnd pauses d)) s).1
  else s

/-! ### Ready bits and rejections (R88, R111) -/

/-- The dispatch command as a queue entry, for records that name it. -/
def ScuEnt.asQEnt (e : ScuEnt) : QEnt := { cmd := e.cmd, ordinal := e.ordinal }

/-- The ready bit: increment 0 of the dispatch, counted at the issuing core; an overflow names the dispatch (05 R127). -/
def raiseReady (e : ScuEnt) (s : State) : State :=
  match e.ctr with
  | none => s
  | some i => incr e.core i 1 (queueRec s e.core 2 e.asQEnt 0x1110 false 0) s

/-- The halt of the issuing core for a code from a target: FAULT_VA holds channel, rank and record index (05 R140). -/
def scuHalt (e : ScuEnt) (chan : Nat) (code : Code) (s : State) : State :=
  haltQueue e.core 2 e.asQEnt code false (chan + e.rank * 256 + e.recIdx * 65536) s

/-- The command at the head leaves the SCU. -/
def popScu (chan : Nat) (s : State) : State := modChan chan (fun c => { c with queue := c.queue.tail, refPauses := 0 }) s

/-- Results: written from RES_VA padded to whole lines with +0 (R93), then copied to the issuing core's store if asked; and whether a
line was written poisoned. -/
def writeResults (e : ScuEnt) (bytes : List PB) (s : State) : State × Bool :=
  let x := e.record.toNat
  let out := e.taint bytes ++ pbOf false (List.replicate (64 * cdiv bytes.length 64 - bytes.length) 0)
  let lines := (chunksOf 64 out).flatMap (fun l => pbOf (pbPoison l) (pbData l))
  let r := scuWrite e.part (perTgt (fld x 175 128) x e.rank) lines s
  (if rReturn x then storeWrite e.core (fld x 211 192 + e.rank * fld x 231 212) lines r.1 else r.1, r.2)

/-- The codes of a result region of n bytes (R93, R90): RES_LEN, and the pages of the lines that are written (DESIGN CHOICE, log entry
123: a page of the region that no result reaches is not looked at). -/
def resultCodes (s : State) (e : ScuEnt) (chan n : Nat) : List Code :=
  let x := e.record.toNat
  if fld x 255 232 < cdiv n 64 then [0x1306] else scuRange s e.part chan needSw (perTgt (fld x 175 128) x e.rank) (64 * cdiv n 64)

/-- The pieces of a result region. -/
def resultPieces (s : State) (e : ScuEnt) (n : Nat) : List (Nat × Nat) :=
  let x := e.record.toNat
  scuPieces s e.part (perTgt (fld x 175 128) x e.rank) (64 * cdiv n 64)

/-- The command at the head of an SCU, when it is one of operation op: rejected with the lowest code, or run (R90, R94, R111). The Running
record has the start in T_START and 0 in T_END (DESIGN CHOICE, log entry 123). -/
def runScu (chan op : Nat) (check : State → ScuEnt → List Code) (work : ScuEnt → State → State × ScuDone) (s : State) : State :=
  match (getChan s chan).queue with
  | [] => s
  | e :: _ =>
    if rOp e.record.toNat ≠ op ∨ !scuOn s chan then s
    else
      let t := s.ftime
      match lowest (scuRange s e.part chan needSw (statusVa e) 64 ++ check s e) with
      | some c => scuHalt e chan c (raiseReady e (popScu chan (writeStatus e chan 3 c 0 t 0 {} s)))
      | none =>
        let pauses := (getChan s chan).refPauses
        let (s1, d) := work e (writeStatus e chan 1 0 t 0 0 {} s)
        raiseReady e (popScu chan (writeStatus e chan 2 0 t s1.ftime pauses d s1))

/-- The sweep rows of a command: those read and those written (log entry 42). -/
def rowCount (rd wr : List (Nat × Nat)) : Nat := (sweepRows rd).length + (sweepRows wr).length

/-! ### GEMV (R95, R96) -/

/-- The planes of a target: element plane and scale plane, start and length. -/
structure GemvPlan where
  lo : Nat
  hi : Nat
  rb : Nat
  pitch : Nat
  wva : Nat
  wlen : Nat
  sva : Nat
  spitch : Nat
  slen : Nat

def gemvPlan (e : ScuEnt) : GemvPlan :=
  let x := e.record.toNat
  let f := (fmtField (rFmt x)).1
  let (lo, hi) := gemvRange x e.rank
  let nb := cdiv (hi - lo) 32
  let rb := if f.isMx then nb * f.blockBytes else (hi - lo) * (f.bits / 8)
  let pitch := fld x 319 304 * 64
  let rows := fld x 399 384
  { lo := lo, hi := hi, rb := rb, pitch := pitch, wva := perTgt (fld x 303 256) x e.rank, wlen := (rows - 1) * pitch + max pitch rb,
    sva := perTgt (fld x 367 320) x e.rank, spitch := fld x 383 368,
    slen := if f.isMx then (rows - 1) * fld x 383 368 + nb else 0 }

/-- The bytes of the results of a GEMV target. -/
def gemvBytes (x : Nat) : Nat := (fld x 419 416 + 1) * fld x 399 384 * 4

def gemvCheck (chan : Nat) (s : State) (e : ScuEnt) : List Code :=
  let g := gemvPlan e
  scuRange s e.part chan needSr g.wva g.wlen ++ scuRange s e.part chan needSr g.sva g.slen
  ++ resultCodes s e chan (gemvBytes e.record.toNat)

/-- The k weights of a row from its bytes and, in an MX format, its scales (02 R35, R36). -/
def rowWeights (f : Fmt) (k : Nat) (w sc : List Byte) : List Val :=
  let es := (unpack f.bits k w).map f.elem
  if f.isMx then ((List.range k).zip es).map (fun v => v.2.mul (e8m0Val (((sc[v.1 / 32]?).getD 0).toNat))) else es

/-- Elements of a slice of vector b that travelled with the command. -/
def vecSlice (e : ScuEnt) (lo hi b : Nat) : List Val × Bool :=
  let x := e.record.toNat
  let z := gemvEsz x
  let off := (b * gemvTotal x + (lo - fld x 471 464 * 1024)) * z
  let n := hi - lo
  ((List.range n).map (fun i => let v := numAt e.data (off + i * z) z; if z = 2 then bf16.decode v else f32 v),
   ((e.dataPoison.drop off).take (n * z)).any id)

/-- One result y[b][r], its poison and events. -/
def gemvCell (f : Fmt) (g : GemvPlan) (w sc : List PB) (xv : List Val × Bool) (r : Nat) : (Nat × Events) × Bool :=
  let k := g.hi - g.lo
  let row := (w.drop (r * g.pitch)).take g.rb
  let srow := (sc.drop (r * g.spitch)).take (cdiv k 32)
  (dotReduce (rowWeights f k (pbData row) (pbData srow)) xv.1, pbPoison row || (f.isMx && pbPoison srow) || xv.2)

def gemvWork (chan : Nat) (e : ScuEnt) (s : State) : State × ScuDone :=
  let x := e.record.toNat
  let f := (fmtField (rFmt x)).1
  let g := gemvPlan e
  let ps := scuPieces s e.part g.wva g.wlen ++ scuPieces s e.part g.sva g.slen
  let s1 := sweep chan ps s
  let w := scuRead s1 e.part g.wva g.wlen
  let sc := scuRead s1 e.part g.sva g.slen
  let cells := (List.range (fld x 419 416 + 1)).flatMap (fun b =>
    let xv := vecSlice e g.lo g.hi b
    (List.range (fld x 399 384)).map (gemvCell f g w sc xv))
  let bytes := cells.flatMap (fun c => pbOf c.2 (leBytes c.1.1 4))
  let r := writeResults e bytes s1
  (r.1, { ev := orEv (cells.map (·.1.2)), poison := r.2, units := fld x 399 384, rows := rowCount ps (resultPieces s e bytes.length) })

/-- A row of an SCU channel. -/
def onChan (n : Nat) (s : State) : Host.Outcome State Fault Refusal := if n < 256 then .next s else .fault (.noSuchUnit "channel" n)

def execGemv (chan : Nat) (s : State) : Host.Outcome State Fault Refusal := onChan chan (runScu chan 1 (gemvCheck chan) (gemvWork chan) s)

/-! ### ATTN (R97 to R99; 08 R204 to R206) -/

/-- The maximal aligned blocks of ascending leaf positions among n (02 R55), fuel the positions left. -/
def alignedBlocks (n : Nat) : Nat → List Nat → List (List Nat)
  | 0, _ => []
  | _, [] => []
  | k + 1, a :: t =>
    let len := fun (j : Nat) => min (a + 2 ^ j) n - a
    let ok := fun (j : Nat) => decide (a % 2 ^ j = 0) && decide ((a :: t).take (len j) = (List.range (len j)).map (a + ·))
    let j := ((List.range 18).reverse.find? ok).getD 0
    (a :: t).take (max 1 (len j)) :: alignedBlocks n k ((a :: t).drop (max 1 (len j)))

/-- The list entries of an ATTN command: the virtual addresses of its pages. -/
def attnList (e : ScuEnt) : List Nat :=
  let x := e.record.toNat
  (List.range (fld x 287 276)).map (fun i => numAt e.data (attnBlock x + 4 * i) 4 * 65536)

/-- The codes of a list entry at a target: every entry is translated and checked, those of the other targets too (R90, R98). -/
def listPage (s : State) (e : ScuEnt) (va : Nat) : List Code := scuPageOn s e.part e.targets needSr va

/-- The list positions whose pages lie on the target's own channel, with their addresses. -/
def ownPages (s : State) (e : ScuEnt) (chan : Nat) : List (Nat × Nat) :=
  let l := attnList e
  ((List.range l.length).zip l).filter (fun p => match xlateHome s e.part p.2 needSr with
    | .ok d => decide (homeOf (pageOf d) = chan)
    | .error _ => false)

/-- The blocks of list positions a target writes records for (R98); a target that holds no position writes none (DESIGN CHOICE, log entry
123). -/
def attnBlocks (s : State) (e : ScuEnt) (pos : List Nat) : List (List Nat) :=
  if pos.isEmpty then []
  else if (getPart s e.part).params.ordered then alignedBlocks (fld e.record.toNat 287 276) pos.length pos else [pos]

/-- The bytes of one ATTN record. -/
def attnRec (x : Nat) : Nat := 64 + 4 * attnD x

/-- Query rows of one head. -/
def headRows (x : Nat) : Nat := fld x 346 342 * fld x 351 347

def attnCheck (chan : Nat) (s : State) (e : ScuEnt) : List Code :=
  let x := e.record.toNat
  (attnList e).flatMap (listPage s e)
  ++ resultCodes s e chan ((attnBlocks s e ((ownPages s e chan).map (·.1))).length * fld x 372 368 * headRows x * attnRec x)

/-- The byte ranges of one head of a page: keys, values and (Paged KV-4) scales, for nt slots (08 R204 to R206). -/
def kvRuns (f : Fmt) (ht d T h nt : Nat) : List (Nat × Nat) :=
  if f = .kv4 then
    [(h * T * d, nt * (d / 2)), (h * T * d + T * (d / 2), nt * (d / 2)), (ht * T * d + 2 * (h * cdiv T 32), 2 * cdiv nt 32)]
  else [(h * 2 * T * d, nt * d), (h * 2 * T * d + T * d, nt * d)]

/-- The vector of slot j in a run of keys or values. -/
def kvVec (f : Fmt) (d : Nat) (l sc : List Byte) (j : Nat) : List Val :=
  if f = .kv4 then
    let sv := fp16.decode (numAt sc (2 * (j / 32)) 2)
    (List.range d).map (fun i => (intVal (sx 4 (packedElem 4 (bytesAt l (j * (d / 2)) (d / 2)) i))).mul sv)
  else (List.range d).map (fun i => f.elem (numAt l (j * d + i) 1))

/-- The pieces of one head of one page. -/
def headPieces (s : State) (e : ScuEnt) (f : Fmt) (ht d T h nt va : Nat) : List (Nat × Nat) :=
  (kvRuns f ht d T h nt).flatMap (fun r => scuPieces s e.part (va + r.1) r.2)

/-- One head of one page read: keys and values of nt slots, and their poison. -/
def readHead (s : State) (e : ScuEnt) (f : Fmt) (ht d T h nt va : Nat) : List (List Val × List Val) × Bool :=
  let rs := (kvRuns f ht d T h nt).map (fun r => scuRead s e.part (va + r.1) r.2)
  let dat := fun (i : Nat) => pbData ((rs[i]?).getD [])
  ((List.range nt).map (fun j => (kvVec f d (dat 0) (dat 2) j, kvVec f d (dat 1) (dat 2) j)), rs.any pbPoison)

/-- The token at a position is visible to query node n (R99). -/
def attnSees (x : Nat) (masks : List Nat) (pos n : Nat) : Bool :=
  let p : Int := (fld x 307 288 : Int) - fld x 351 347
  if (pos : Int) < p then true
  else
    let j := ((pos : Int) - p).toNat
    if tbit x 353 then tbit ((masks[n]?).getD 0) j else decide (j ≤ n)

/-- The query vector of a row, its poison included. -/
def attnQuery (e : ScuEnt) (i : Nat) : List Val × Bool :=
  let x := e.record.toNat
  let z := attnEsz x
  let off := i * attnD x * z
  ((List.range (attnD x)).map (fun k => let v := numAt e.data (off + k * z) z; if z = 2 then bf16.decode v else f32 v),
   ((e.dataPoison.drop off).take (attnD x * z)).any id)

/-- What a target holds of one page and head: list position, tokens, poison. -/
structure HeadPage where
  pos : Nat
  toks : List (List Val × List Val)
  poison : Bool

/-- One leaf: one page for one query row (02 R52). -/
def attnLeaf (x T : Nat) (masks : List Nat) (q : List Val) (node : Nat) (hp : HeadPage) : AttnNode :=
  let ts := ((List.range hp.toks.length).zip hp.toks).filter (fun t => attnSees x masks (hp.pos * T + t.1) node)
  attnPage q (fld x 415 384) (attnD x) T (ts.map (fun t => (t.1, t.2.1, t.2.2)))

/-- The record of a block for one head and query row: bytes, events. -/
def attnRecord (first len head row : Nat) (poison : Bool) (n : AttnNode) : List PB :=
  pbOf poison (leBytes (n.m + put n.l 32 + put first 64 + put len 80 + put head 96 + put row 104) 64 ++ n.o.flatMap (fun v => leBytes v 4))

/-- The records of one block and one head. -/
def headRecords (e : ScuEnt) (T hc : Nat) (masks : List Nat) (all : Bool) (blk : List HeadPage) : List (List PB × Events) :=
  let x := e.record.toNat
  let first := ((blk.head?).map (·.pos)).getD 0
  let last := ((blk.getLast?).map (·.pos)).getD 0
  let kp := blk.any (·.poison) || all
  (List.range (headRows x)).map (fun row =>
    let q := attnQuery e (hc * headRows x + row)
    let leaves := blk.map (attnLeaf x T masks q.1 (row % fld x 351 347))
    let n := (tree attnJoin leaves).getD (attnEmpty (attnD x))
    (attnRecord first (last + 1 - first) (fld x 367 360 + hc) row (kp || q.2) n, n.ev))

/-- The pieces that a pass over the own pages reads for one head. -/
def passPieces (s : State) (e : ScuEnt) (f : Fmt) (T : Nat) (pages : List (Nat × Nat)) (hc : Nat) : List (Nat × Nat) :=
  let x := e.record.toNat
  pages.flatMap (fun p => headPieces s e f (fld x 423 416) (attnD x) T (fld x 367 360 + hc) (min T (fld x 307 288 - p.1 * T)) p.2)

/-- Every head of the own pages read, one pass a head in ascending order (R98; 08 R220). -/
def readPages (chan : Nat) (e : ScuEnt) (f : Fmt) (T : Nat) (pages : List (Nat × Nat)) (s : State) : State × List (List HeadPage) :=
  let x := e.record.toNat
  (List.range (fld x 372 368)).foldl (fun (t : State × List (List HeadPage)) hc =>
    let s1 := sweep chan (passPieces s e f T pages hc) t.1
    (s1, t.2 ++ [pages.map (fun p =>
      let (toks, po) := readHead s1 e f (fld x 423 416) (attnD x) T (fld x 367 360 + hc) (min T (fld x 307 288 - p.1 * T)) p.2
      { pos := p.1, toks := toks, poison := po })])) (s, [])

def attnWork (chan : Nat) (e : ScuEnt) (s : State) : State × ScuDone :=
  let x := e.record.toNat
  let f := (fmtField (rFmt x)).1
  let T := pageTokens f (fld x 423 416) (attnD x)
  let vecs := attnRows x * attnD x * attnEsz x
  let masks := if tbit x 353 then (List.range (fld x 351 347)).map (fun i => numAt e.data (vecs + 2 * i) 2) else []
  let all := ((e.dataPoison.drop vecs)).any id
  let pages := ownPages s e chan
  let (s1, heads) := readPages chan e f T pages s
  let blocks := attnBlocks s e (pages.map (·.1))
  let recs := blocks.flatMap (fun b => ((List.range heads.length).zip heads).flatMap (fun h =>
    headRecords e T h.1 masks all (h.2.filter (fun p => mem p.pos b))))
  let bytes := recs.flatMap (·.1)
  let rd := (List.range (fld x 372 368)).flatMap (passPieces s e f T pages)
  let r := writeResults e bytes s1
  (r.1, { ev := orEv (recs.map (·.2)), poison := r.2, units := pages.length, nblocks := recs.length,
          rows := rowCount rd (resultPieces s e bytes.length) })

def execAttn (chan : Nat) (s : State) : Host.Outcome State Fault Refusal := onChan chan (runScu chan 2 (attnCheck chan) (attnWork chan) s)

/-! ### GATHER (R100) -/

/-- The bags of a list: the indices of each, in order. -/
def gatherBags (x : Nat) (l : List Byte) : List (List Nat) :=
  let ix := gatherIdx x l
  ((gatherEnds x l).foldl (fun (t : Nat × List (List Nat)) b => (b, t.2 ++ [(ix.drop t.1).take (b - t.1)])) (0, [])).2

/-- The rows of a bag that a target holds: position in the bag and local row. -/
def heldRows (x rank : Nat) (bag : List Nat) : List (Nat × Nat) :=
  ((List.range bag.length).zip bag).filterMap (fun p =>
    if p.2 / fld x 383 352 = rank then some (p.1, p.2 % fld x 383 352) else none)

/-- The groups of held rows that get a record each: the maximal aligned blocks in an ordered partition for sum and mean, else all
the rows held (log entry 43). -/
def gatherGroups (ordered : Bool) (red n : Nat) (held : List (Nat × Nat)) : List (List (Nat × Nat)) :=
  if held.isEmpty then []
  else if ordered && red != 2 then
    (alignedBlocks n held.length (held.map (·.1))).map (fun b => held.filter (fun h => mem h.1 b))
  else [held]

/-- The bytes of one GATHER record. -/
def gatherRec (x : Nat) : Nat := 64 + 64 * cdiv (4 * fld x 319 304) 64

/-- All the groups of a target: bag number, rows in the bag, rows of the group. -/
def gatherPlan (s : State) (e : ScuEnt) : List (Nat × Nat × List (Nat × Nat)) :=
  let x := e.record.toNat
  let bags := gatherBags x e.data
  ((List.range bags.length).zip bags).flatMap (fun b =>
    (gatherGroups (getPart s e.part).params.ordered (fld x 427 426) b.2.length (heldRows x e.rank b.2)).map (fun g => (b.1, b.2.length, g)))

/-- The address of a local row. -/
def tableRow (e : ScuEnt) (r : Nat) : Nat :=
  let x := e.record.toNat
  perTgt (fld x 303 256) x e.rank + r * (fld x 335 320 * 64)

/-- The bytes of a row. -/
def rowBytes (x : Nat) : Nat := fld x 319 304 * ((fmtField (rFmt x)).1.bits / 8)

def gatherCheck (chan : Nat) (s : State) (e : ScuEnt) : List Code :=
  let x := e.record.toNat
  let plan := gatherPlan s e
  when_ ((gatherIdx x e.data).any (fun i => decide (e.nTargets ≤ i / fld x 383 352))) 0x1307
  ++ (plan.flatMap (fun g => g.2.2.flatMap (fun r => scuRange s e.part chan needSr (tableRow e r.2) (rowBytes x))))
  ++ resultCodes s e chan (plan.length * gatherRec x)

/-- The elementwise join of two partial results. -/
def gatherJoin (red : Nat) (a b : List (Nat × Events) × Bool) : List (Nat × Events) × Bool :=
  (List.zipWith (if red = 2 then joinMax else joinAdd) a.1 b.1, a.2 || b.2)

/-- A row that was read, widened to FP32. -/
def gatherLeaf (s : State) (e : ScuEnt) (r : Nat) : List (Nat × Events) × Bool :=
  let x := e.record.toNat
  let f := (fmtField (rFmt x)).1
  let l := scuRead s e.part (tableRow e r) (rowBytes x)
  ((unpack f.bits (fld x 319 304) (pbData l)).map (fun v => let y := f.elem v; ((toF32 y).1, readEv y)), pbPoison l)

/-- One record of a group. In an unordered partition the R51 tree takes the rows held of a bag as consecutive leaves whatever their
positions, and the header's length is the last position less the first, plus one (DESIGN CHOICE, log entries 43 and 123). -/
def gatherOne (s : State) (e : ScuEnt) (g : Nat × Nat × List (Nat × Nat)) : List PB × Events :=
  let x := e.record.toNat
  let red := fld x 427 426
  let leaves := g.2.2.map (fun r => gatherLeaf s e r.2)
  let root := (tree (gatherJoin red) leaves).getD ([], false)
  let whole := decide (g.2.2.length = g.2.1)
  let k := f32Recip (f32Round false g.2.1 1 0).1
  let vals := if red = 1 ∧ whole = true then root.1.map (fun v => let (r, e) := f32Mul v.1 k.1; (r, v.2 ||| e)) else root.1
  let first := ((g.2.2.head?).map (·.1)).getD 0
  let last := ((g.2.2.getLast?).map (·.1)).getD 0
  let hdr := leBytes (g.1 + put first 16 + put (last + 1 - first) 32 + put (b2n (red == 1 && !whole)) 48) 64
  let body := vals.flatMap (fun v => leBytes v.1 4)
  (pbOf (root.2 || e.dataPoison.any id) (hdr ++ padTo (64 * cdiv body.length 64) body), orEv (vals.map (·.2)))

/-- GATHER: the rows held are swept in ascending local order; the leaf order fixes the result. -/
def gatherWork (chan : Nat) (e : ScuEnt) (s : State) : State × ScuDone :=
  let plan := gatherPlan s e
  let held := plan.flatMap (fun g => g.2.2)
  let ps := held.flatMap (fun r => scuPieces s e.part (tableRow e r.2) (rowBytes e.record.toNat))
  let s1 := sweep chan ps s
  let recs := plan.map (gatherOne s1 e)
  let bytes := recs.flatMap (·.1)
  let r := writeResults e bytes s1
  (r.1, { ev := orEv (recs.map (·.2)), poison := r.2, units := held.length, nblocks := recs.length,
          rows := rowCount ps (resultPieces s e bytes.length) })

def execGather (chan : Nat) (s : State) : Host.Outcome State Fault Refusal := onChan chan (runScu chan 3 (gatherCheck chan) (gatherWork chan) s)

/-! ### COPY and FILL (R101) -/

/-- Source and destination of the operations on planes. -/
def srcVa (e : ScuEnt) : Nat := perTgt (fld e.record.toNat 303 256) e.record.toNat e.rank
def dstVa (e : ScuEnt) : Nat := perTgt (fld e.record.toNat 367 320) e.record.toNat e.rank
def lineBytesOf (e : ScuEnt) : Nat := 64 * fld e.record.toNat 407 384

/-- The checks of COPY. Overlap is judged where the bytes lie, so two virtual addresses of one page overlap (DESIGN CHOICE, log entry
123). -/
def scuCopyCheck (chan : Nat) (s : State) (e : ScuEnt) : List Code :=
  let n := lineBytesOf e
  scuRange s e.part chan needSr (srcVa e) n ++ scuRange s e.part chan needSw (dstVa e) n
  ++ when_ (piecesMeet (scuPieces s e.part (srcVa e) n) (scuPieces s e.part (dstVa e) n)) 0x1308

def scuCopyWork (chan : Nat) (e : ScuEnt) (s : State) : State × ScuDone :=
  let n := lineBytesOf e
  let ps := scuPieces s e.part (srcVa e) n
  let s1 := sweep chan ps s
  let r := scuWrite e.part (dstVa e) (e.taint (scuRead s1 e.part (srcVa e) n)) s1
  (r.1, { poison := r.2, units := n / 64, rows := rowCount ps (scuPieces s e.part (dstVa e) n) })

def execScuCopy (chan : Nat) (s : State) : Host.Outcome State Fault Refusal := onChan chan (runScu chan 4 (scuCopyCheck chan) (scuCopyWork chan) s)

def scuFillCheck (chan : Nat) (s : State) (e : ScuEnt) : List Code := scuRange s e.part chan needSw (dstVa e) (lineBytesOf e)

def scuFillWork (e : ScuEnt) (s : State) : State × ScuDone :=
  let n := lineBytesOf e
  let r := scuWrite e.part (dstVa e) (e.taint (List.replicate (n / 64) (pbOf (e.dataPoison.any id) e.data)).flatten) s
  (r.1, { poison := r.2, units := n / 64, rows := rowCount [] (scuPieces s e.part (dstVa e) n) })

def execScuFill (chan : Nat) (s : State) : Host.Outcome State Fault Refusal := onChan chan (runScu chan 5 (scuFillCheck chan) scuFillWork s)

/-! ### CONVERT (R102) -/

/-- The regions of a CONVERT at a target: source and destination planes, each start and length. -/
structure ConvPlan where
  src : List (Nat × Nat)
  dst : List (Nat × Nat)

def convPlan (e : ScuEnt) : ConvPlan :=
  let x := e.record.toNat
  let a := (fmtField (rFmt x)).1
  let b := (fmtField (fld x 372 368)).1
  let n := fld x 319 304
  if convKv x then { src := [(srcVa e, 65536 * n)], dst := [(dstVa e, 65536 * n)] }
  else
    { src := [(srcVa e, n * a.blockBytes)] ++ (if a.isMx then [(perTgt (fld x 431 384) x e.rank, n)] else []),
      dst := [(dstVa e, n * b.blockBytes)] ++ (if b.isMx then [(perTgt (fld x 495 448) x e.rank, n)] else []) }

/-- The pieces of some regions. -/
def regionPieces (s : State) (p : Nat) (l : List (Nat × Nat)) : List (Nat × Nat) := l.flatMap (fun r => scuPieces s p r.1 r.2)

/-- The overlap rule of R102 and R103: element planes of one width may coincide, nothing else may meet. -/
def planesMeet (s : State) (p : Nat) (sameWidth : Bool) (src dst : List (Nat × Nat)) : Bool :=
  ((List.range src.length).zip src).any (fun a => ((List.range dst.length).zip dst).any (fun b =>
    let x := scuPieces s p a.2.1 a.2.2
    let y := scuPieces s p b.2.1 b.2.2
    piecesMeet x y && !(sameWidth && a.1 == 0 && b.1 == 0 && decide (x = y))))

def convCheck (chan : Nat) (s : State) (e : ScuEnt) : List Code :=
  let x := e.record.toNat
  let g := convPlan e
  let a := (fmtField (rFmt x)).1
  let b := (fmtField (fld x 372 368)).1
  g.src.flatMap (fun r => scuRange s e.part chan needSr r.1 r.2) ++ g.dst.flatMap (fun r => scuRange s e.part chan needSw r.1 r.2)
  ++ when_ (planesMeet s e.part (a.bits == b.bits && !convKv x) g.src g.dst) 0x1308

/-- One block of 32 converted: elements, scale and events (02 R44, R45, R48, R49). -/
def convOne (x : Nat) (elems scale : List PB) : OutBlock :=
  let a := (fmtField (rFmt x)).1
  let b := (fmtField (fld x 372 368)).1
  let vs := (blockValues a 32 elems (if a.isMx then scale else [])).map (fun v => (v.1.scale (sx 8 (fld x 380 373)), v.2))
  let o := convBlock b (tbit x 13) (fld x 15 14) [] vs
  { o with ev := o.ev ||| orEv (vs.map (fun v => readEv v.1)) }

/-- Region i of some regions, as a sweep has read it. -/
def regionRead (s : State) (e : ScuEnt) (l : List (Nat × Nat)) (i : Nat) : List PB := match l[i]? with
  | some r => scuRead s e.part r.1 r.2
  | none => []

/-- Bytes written to region i of some regions, after writes that may have been poisoned. -/
def regionWrite (e : ScuEnt) (l : List (Nat × Nat)) (i : Nat) (bytes : List PB) (t : State × Bool) : State × Bool := match l[i]? with
  | some r => let w := scuWrite e.part r.1 (e.taint bytes) t.1; (w.1, t.2 || w.2)
  | none => t

/-- Plain CONVERT: every block of the planes. -/
def convPlanes (chan : Nat) (e : ScuEnt) (s : State) : State × ScuDone :=
  let x := e.record.toNat
  let a := (fmtField (rFmt x)).1
  let n := fld x 319 304
  let g := convPlan e
  let s1 := sweep chan (regionPieces s e.part g.src) s
  let el := regionRead s1 e g.src 0
  let sc := regionRead s1 e g.src 1
  let outs := (List.range n).map (fun i => convOne x ((el.drop (i * a.blockBytes)).take a.blockBytes) ((sc.drop i).take 1))
  let r := regionWrite e g.dst 1 (outs.flatMap (·.scale)) (regionWrite e g.dst 0 (outs.flatMap (·.elems)) (s1, false))
  (r.1, { ev := orEv (outs.map (·.ev)), poison := r.2, units := n,
          rows := rowCount (regionPieces s e.part g.src) (regionPieces s e.part g.dst) })

/-- A page of FP8 made Paged KV-4, or the reverse, one head: slot j to slot j (log entry 45). The group of R46 is 32 slots; slots beyond
the FP8 page's T hold no token and are stored as code 0 (08 R207). -/
def kvHead (toKv : Bool) (f8 : Fmt) (sat : Bool) (mult : Int) (d T4 : Nat) (toks : List (List Val × List Val)) :
    List (List Nat × List Nat) × List Nat × Events :=
  if toKv then
    let sc := fun (ts : List (List Val × List Val)) => ts.map (fun t => (t.1.map (Val.scale mult), t.2.map (Val.scale mult)))
    let groups := (chunksOf 32 toks).map sc
    let pad : List (List (List Val × List Val)) := List.replicate (cdiv T4 32 - groups.length) []
    let scales := (groups ++ pad).map (fun g => kv4Scale (g.flatMap (fun t => t.1 ++ t.2)))
    let els := (List.zip scales groups).flatMap (fun g => g.2.map (fun t => (t.1.map (kv4Elem g.1.1), t.2.map (kv4Elem g.1.1))))
    let z := List.replicate d (0, (0 : Events))
    let all := els ++ List.replicate (T4 - els.length) (z, z)
    (all.map (fun t => (t.1.map (·.1), t.2.map (·.1))), scales.map (·.1),
     orEv (scales.map (·.2)) ||| orEv (els.map (fun t => orEv ((t.1 ++ t.2).map (·.2)))))
  else
    let cv := fun (v : Val) => convPlain f8 sat (v.scale mult)
    let els := toks.map (fun t => (t.1.map cv, t.2.map cv))
    (els.map (fun t => (t.1.map (·.1), t.2.map (·.1))), [],
     orEv (els.map (fun t => orEv ((t.1 ++ t.2).map (·.2)))) ||| orEv (toks.map (fun t => orEv ((t.1 ++ t.2).map readEv))))

/-- The runs of a written head: keys, values, scales. -/
def kvHeadWrite (e : ScuEnt) (b : Fmt) (h H d T va : Nat) (po : Bool) (r : List (List Nat × List Nat) × List Nat)
    (s : State × Bool) : State × Bool :=
  let runs := kvRuns b H d T h r.1.length
  let data := [r.1.flatMap (fun t => packBytes b.bits t.1), r.1.flatMap (fun t => packBytes b.bits t.2), r.2.flatMap (fun v => leBytes v 2)]
  (List.zip runs data).foldl (fun t w => let u := scuWrite e.part (va + w.1.1) (e.taint (pbOf po w.2)) t.1; (u.1, t.2 || u.2)) s

/-- CONVERT of whole KV pages under the partition's KV geometry. With none loaded the layout is not given: the destination pages take
free bytes (log entry 45). -/
def convPages (chan : Nat) (e : ScuEnt) (s : State) : State × ScuDone :=
  let x := e.record.toNat
  let a := (fmtField (rFmt x)).1
  let b := (fmtField (fld x 372 368)).1
  let n := fld x 319 304
  let g := convPlan e
  let base : ScuDone := { units := n, rows := rowCount (regionPieces s e.part g.src) (regionPieces s e.part g.dst) }
  match (getPart s e.part).model.bind (·.kv) with
  | none =>
    let (s1, bs) := freeBytes (65536 * n) (sweep chan (regionPieces s e.part g.src) s)
    let r := scuWrite e.part (dstVa e) (e.taint (pbOf false bs)) s1
    (r.1, { base with poison := r.2 })
  | some k =>
    let Ta := pageTokens a k.h k.d
    let Tb := pageTokens b k.h k.d
    let nt := min Ta Tb
    let s0 := sweep chan (regionPieces s e.part g.src) s
    let r := ((List.range n).flatMap (fun i => (List.range k.h).map (fun h => (i, h)))).foldl (fun (t : (State × Bool) × Events) ih =>
      let (toks, po) := readHead s0 e a k.h k.d Ta ih.2 nt (srcVa e + 65536 * ih.1)
      let (els, scs, ev) := kvHead (b == .kv4) b (tbit x 13) (sx 8 (fld x 380 373)) k.d Tb toks
      (kvHeadWrite e b ih.2 k.h k.d Tb (dstVa e + 65536 * ih.1) po (els, scs) t.1, t.2 ||| ev)) ((s0, false), (0 : Events))
    (r.1.1, { base with ev := r.2, poison := r.1.2 })

def convWork (chan : Nat) (e : ScuEnt) (s : State) : State × ScuDone :=
  if convKv e.record.toNat then convPages chan e s else convPlanes chan e s

def execScuConvert (chan : Nat) (s : State) : Host.Outcome State Fault Refusal := onChan chan (runScu chan 6 (convCheck chan) (convWork chan) s)

/-! ### ELEM (R103) -/

/-- X, Y and Z of ELEM. -/
def elemPlan (e : ScuEnt) : ConvPlan :=
  let x := e.record.toNat
  let a := (fmtField (rFmt x)).1
  let b := (fmtField (fld x 375 371)).1
  let n := fld x 319 304
  { src := [(srcVa e, n * a.blockBytes)] ++ (if fld x 370 368 = 3 then [] else [(dstVa e, n * a.blockBytes)]),
    dst := [(perTgt (fld x 431 384) x e.rank, n * b.blockBytes)] }

def elemCheck (chan : Nat) (s : State) (e : ScuEnt) : List Code :=
  let x := e.record.toNat
  let g := elemPlan e
  let same := (fmtField (rFmt x)).1.bits == (fmtField (fld x 375 371)).1.bits
  let z := regionPieces s e.part g.dst
  g.src.flatMap (fun r => scuRange s e.part chan needSr r.1 r.2) ++ g.dst.flatMap (fun r => scuRange s e.part chan needSw r.1 r.2)
  ++ when_ (g.src.any (fun r => let y := scuPieces s e.part r.1 r.2; piecesMeet y z && !(same && decide (y = z)))) 0x1308

/-- One element of ELEM in FP32 (02 R40). -/
def elemOp (eop sc x y : Nat) : Nat × Events :=
  match eop with
  | 0 => f32Add x y
  | 1 => f32Mul x y
  | 2 => f32Fma sc x y
  | 3 => f32Mul sc x
  | 4 => f32Max x y
  | _ => f32Min x y

def elemWork (chan : Nat) (e : ScuEnt) (s : State) : State × ScuDone :=
  let x := e.record.toNat
  let a := (fmtField (rFmt x)).1
  let b := (fmtField (fld x 375 371)).1
  let n := fld x 319 304
  let g := elemPlan e
  let s1 := sweep chan (regionPieces s e.part g.src) s
  let xl := regionRead s1 e g.src 0
  let yl := regionRead s1 e g.src 1
  let w := a.bits / 8
  let cell := fun (i : Nat) =>
    let u := a.elem (numAt (pbData ((xl.drop (i * w)).take w)) 0 w)
    let v := a.elem (numAt (pbData ((yl.drop (i * w)).take w)) 0 w)
    let (r, e1) := elemOp (fld x 370 368) (fld x 479 448) (toF32 u).1 (toF32 v).1
    let (o, e2) := convPlain b (tbit x 13) (f32 r)
    (pbOf (pbPoison ((xl.drop (i * w)).take w) || pbPoison ((yl.drop (i * w)).take w)) (leBytes o (b.bits / 8)),
     e1 ||| e2 ||| readEv u ||| (if yl.isEmpty then 0 else readEv v))
  let cells := (List.range (32 * n)).map cell
  let r := regionWrite e g.dst 0 (cells.flatMap (·.1)) (s1, false)
  (r.1, { ev := orEv (cells.map (·.2)), poison := r.2, units := n,
          rows := rowCount (regionPieces s e.part g.src) (regionPieces s e.part g.dst) })

def execScuElem (chan : Nat) (s : State) : Host.Outcome State Fault Refusal := onChan chan (runScu chan 7 (elemCheck chan) (elemWork chan) s)

/-! ### STATUS and FENCE (R104), REFRESH (R107) -/

/-- STATUS and FENCE write the record once, Done, T_START the fabric time of their start (R94); at the head of the queue a FENCE has
every earlier command of its SCU behind it. -/
def statusOnly (chan op : Nat) (s : State) : State :=
  match (getChan s chan).queue with
  | [] => s
  | e :: _ =>
    if rOp e.record.toNat ≠ op ∨ !scuOn s chan then s
    else match lowest (scuRange s e.part chan needSw (statusVa e) 64) with
      | some c => scuHalt e chan c (raiseReady e (popScu chan s))
      | none => raiseReady e (popScu chan (writeStatus e chan 2 0 s.ftime s.ftime 0 {} s))

def execScuStatus (chan : Nat) (s : State) : Host.Outcome State Fault Refusal := onChan chan (statusOnly chan 0x0E s)

def execScuFence (chan : Nat) (s : State) : Host.Outcome State Fault Refusal := onChan chan (statusOnly chan 0x0F s)

/-- REFRESH: the sweep of the command in progress pauses once more, and nothing else changes (R107). -/
def execRefresh (chan : Nat) (s : State) : Host.Outcome State Fault Refusal :=
  onChan chan (match (getChan s chan).queue with
    | [] => s
    | _ :: _ => modChan chan (fun c => { c with refPauses := c.refPauses + 1 }) s)

end Sys2Proof.Machine
end

