-- ==== Sys2Proof/Machine/Rings.lean ====
section
/-!
DEFINITION. Rings (09 R238 to R245, 17 R434, R435): completion entries and how they are placed, the end of a request, the
examination of a submission entry (R240, R241), doorbells, interrupt moderation, and the refill of budgets (R249).
-/

namespace Sys2Proof.Machine

/-! ### Completion entries (R242 to R244) -/

/-- The 512 bits of a completion entry. -/
def Post.toNat (p : Post) (late : Bool) (phase time : Nat) : Nat :=
  let tok := p.token.getD (0, 0)
  put phase 504 + put p.detail 320 + put time 256 + put p.tag.toNat 192 + put (p.gen % 2 ^ 32) 160
  + put (if p.token.isSome then p.pos else 0) 128 + put tok.2 96 + put tok.1 64 + put p.events.toNat 40
  + put (if p.final then p.reason else 0) 37 + put (b2n late) 36 + put (b2n p.drafted) 35 + put (b2n p.retry) 34
  + put (b2n p.final) 33 + put (b2n p.token.isSome) 32 + put p.code 16 + p.sess

/-- The entries of a ring. -/
def Ring.entries (r : Ring) : Nat := 2 ^ r.log2

/-- The ring can take a completion entry now (R243). -/
def Ring.takes (r : Ring) : Bool := r.st == .enabled && r.completion && decide ((r.posted - r.consumed).toNat < r.entries)

/-- Entries for the ring are kept until it can take them: it is full, or in Error after a bad doorbell. A ring that a function
level reset put in Error, or that is gone, loses them (R243, 17 R422). -/
def Ring.keeps (r : Ring) : Bool := r.completion && (r.st == .enabled || (r.st == .error && r.code == 0x4102))

/-- The ring's MSI-X message (R244). -/
def ringSignal (r : Nat) (s : State) : State :=
  let x := getRing s r
  msix x.fn x.vector (modRing r (fun x => { x with sinceIrq := 0 }) s)

/-- A session without an open request: Idle, or Sided when pages are missing; a Faulted one stays so (R235). -/
def idleSess (x : Sess) : Sess :=
  { x with opened := false, work := {}, tree := [], treeDepth := 0, dists := [],
           st := if x.st = .faulted then .faulted else if x.keep < x.committed then .sided else .idle }

/-- What placing an entry of its own request does to a session: LAST_DONE, the deadline a token moves, and with a final entry
the end of the request (R235, R250). -/
def placedSess (p : Post) (now : Nat) (x : Sess) : Sess :=
  let x1 := { x with lastDone := now,
                     deadline := if p.token.isSome && x.tokenSlack != 0 then now + 1000 * x.tokenSlack else x.deadline }
  if p.final then idleSess x1 else x1

/-- The session's side of placing an entry. -/
def sessPlaced (p : Post) (s : State) : State :=
  if p.own then modSess p.sess (placedSess p s.ftime) s
  else if p.mark then modSess p.sess (fun x => { x with lastDone := s.ftime }) s else s

/-- The entry is late: placed after the session's deadline. -/
def lateNow (p : Post) (s : State) : Bool := p.own && decide ((getSess s p.sess).deadline < s.ftime)

/-- An entry written into a ring that can take it: one 64-byte write to host memory, then the moderated message (R243, R244). -/
def placeEntry (r : Nat) (p : Post) (s : State) : State :=
  let x := getRing s r
  let bytes := leBytes (p.toNat (lateNow p s) ((x.posted.toNat / x.entries + 1) % 2) s.ftime) 64
  let a := x.base + 64 * (x.posted.toNat % x.entries)
  let n := x.sinceIrq + 1
  let s1 := modRing r (fun x => { x with posted := x.posted + 1, sinceIrq := n,
                                         firstAt := if x.sinceIrq = 0 then s.ftime else x.firstAt }) s
  let s2 := emit (.completion r a bytes) { s1 with hostMem := spWrite s1.hostMem a bytes }
  let s3 := sessPlaced p s2
  if x.irqTime = 0 ∨ x.irqCount ≤ n then ringSignal r s3 else s3

/-- An entry goes to its ring: placed, kept behind the entries that wait, or lost with the ring. -/
def ringPost (r : Nat) (p : Post) (s : State) : State :=
  let x := getRing s r
  if x.takes && x.backlog.isEmpty then placeEntry r p s
  else if x.keeps then modRing r (fun x => { x with backlog := x.backlog ++ [p] }) s
  else sessPlaced p s

/-- The waiting entries placed while there is room; fuel is their number. -/
def flushRing : Nat → Nat → State → State
  | 0, _, s => s
  | k + 1, r, s =>
    let x := getRing s r
    match x.backlog with
    | [] => s
    | p :: t => if x.takes then flushRing k r (placeEntry r p (modRing r (fun x => { x with backlog := t }) s)) else s

/-- All waiting entries that a ring can take. -/
def flushBacklog (r : Nat) (s : State) : State := flushRing (getRing s r).backlog.length r s

/-- The waiting entries of a lost ring are dropped; the requests they end, end (17 R422). -/
def dropBacklog (r : Nat) (s : State) : State :=
  (getRing s r).backlog.foldl (fun t p => sessPlaced p t) (modRing r (fun x => { x with backlog := [] }) s)

/-- An entry of a session goes out, or waits for the buddy's acknowledgement of the log so far (13 R347). -/
def submitPost (n : Nat) (p : Post) (s : State) : State :=
  let x := getSess s n
  if x.mirror && x.mirLive && (decide (x.mirAcked < x.log.length) || !x.held.isEmpty) then
    modSess n (fun x => { x with held := x.held ++ [{ p with need := x.log.length }] }) s
  else ringPost x.compRing p s

/-- An entry of a session's open request: its tag and count; the first after a rebuild carries 0x0410 and the count of rebuilt
tokens in place of code 0 or 0x0430 (08 R228). -/
def postSess (n : Nat) (p : Post) (s : State) : State :=
  let x := getSess s n
  let told := x.work.rebuilt != 0 && (p.code == 0 || p.code == 0x0430)
  submitPost n { p with sess := n, tag := x.userTag, gen := x.genCount, code := if told then 0x0410 else p.code,
                        detail := if told then x.work.rebuilt else 0 }
    (modSess n (fun x => { x with work := { x.work with rebuilt := 0 } }) s)

/-- The step in progress holds the session. -/
def inStep (s : State) (n : Nat) : Bool :=
  match (getPart s (getSess s n).part).step with
  | some st => st.entries.any (fun e => e.sess == n)
  | none => false

/-- The draft session of a target that speculates (R260). -/
def draftOf (s : State) (n : Nat) : Option Nat :=
  let x := getSess s n
  let d := getSess s x.link
  if 2 ≤ x.specNodes ∧ d.draft = true ∧ d.st ≠ .free ∧ d.tenant = x.tenant ∧ d.link = n then some x.link else none

/-- A draft session cannot supply the tree that its target waits for: the target goes on without speculation (R260). -/
def draftFails (d : Nat) (s : State) : State :=
  match (getSess s d).work.forTarget with
  | none => s
  | some t => if (getSess s t).tree.isEmpty then s else modSess t (fun y => { y with skipSpec := true, tree := [], dists := [] }) s

/-- The rows that a TURN brings to a target are queued for its draft session too, whose log is the target's (R260, step 1). A Sided
draft whose log is too short to rebuild goes to Faulted (08 R228; log entry 66). -/
def followTarget (n d : Nat) (s : State) : State :=
  let x := getSess s n
  let y := getSess s d
  if y.opened || y.st == .faulted then s
  else
    let log := x.log.take y.logCap
    let short := y.st == .sided && decide (log.length < y.committed)
    modSess d (fun y => { y with log := log, work := { y.work with forTarget := some n }, st := if short then .faulted else y.st,
                                 faultCode := if short then 0x4211 else y.faultCode }) s

/-- The request of a session ends with a final entry, once; its work goes (R233, R235). -/
def endWith (n : Nat) (p : Post) (s : State) : State :=
  let x := getSess s n
  if !x.opened || x.work.ending then s
  else postSess n { p with final := true } (modSess n (fun x => { x with work := { rebuilt := x.work.rebuilt, ending := true } }) s)

/-- A final entry without a token, with the events of the step that brings it (R242). -/
def endReqEv (ev : Events) (n : Nat) (code : Code) (reason : Nat) (retry : Bool) (s : State) : State :=
  endWith n { sess := n, code := code, reason := reason, retry := retry, events := ev } s

/-- The same where no step brings it. -/
def endReq (n : Nat) (code : Code) (reason : Nat) (retry : Bool) (s : State) : State := endReqEv 0 n code reason retry s

/-- A final entry that asks for a retry (END_REASON 6), with a step's events, or with none. -/
def retryReqEv (ev : Events) (n : Nat) (code : Code) (s : State) : State := endReqEv ev n code 6 true s
def retryReq (n : Nat) (code : Code) (s : State) : State := retryReqEv 0 n code s

/-- The numbers of the sessions of a partition, ascending. -/
def sessOf (s : State) (p : Nat) : List Nat := (s.sess.filter (fun e => e.2.st != .free && e.2.part == p)).map (·.1)

/-- The sessions of a partition with an open request. -/
def openOf (s : State) (p : Nat) : List Nat := (s.sess.filter (fun e => e.2.opened && e.2.part == p)).map (·.1)

/-! ### Submission entries (R239 to R241) -/

/-- Submission rings of the partition are read (R246); none is once the device has failed (13 R345). -/
def partReadable (s : State) (p : Nat) : Bool :=
  s.boot.phase == .ready && match (getPart s p).st with
  | .drained => false
  | .draining => false
  | .halted => false
  | _ => true

/-- A submission ring has an unread entry that may be examined. An entry waits while its PAIR cannot take a completion entry (R243;
log entry 63). -/
def ringUnread (s : State) (r : Nat) : Bool :=
  let x := getRing s r
  let y := getRing s x.pair
  x.st == .enabled && !x.completion && decide (x.consumed ≠ x.doorbell) && partReadable s x.part && y.takes && y.backlog.isEmpty

/-- The ring that the Dispatcher serves next: in rotation by ring number, from where it stands (R245). -/
def ringTurn (s : State) : Option Nat :=
  let rs := (s.rings.filter (fun e => ringUnread s e.1)).map (·.1)
  match rs.find? (fun r => decide (s.host.ringNext ≤ r)) with
  | some r => some r
  | none => rs.head?

/-- The next entry of a submission ring whose turn has come: read through the owning slices, with its poison. -/
def nextEntry (r : Nat) (s : State) : Option (State × Nat × Bool) :=
  let x := getRing s r
  if ringTurn s = some r then
    let (s1, l) := dpaRead 0 (x.base + 64 * (x.consumed.toNat % x.entries)) 64 s
    some (s1, ofLe (pbData l), pbPoison l)
  else none

/-- A refused entry completes on the ring's PAIR (R241): FINAL, no token, END_REASON 5. -/
def refuseEntry (r v : Nat) (code : Code) (s : State) : State :=
  ringPost (getRing s r).pair { sess := fld v 31 16, code := code, final := true, reason := 5,
                                tag := BitVec.ofNat 64 (fld v 127 64), own := false } s

/-- The inline token i of an entry. -/
def inlineTok (v i : Nat) : Nat := fld v (351 + 32 * i) (320 + 32 * i)

/-- A TURN entry breaks the field rules of R240. -/
def turnBad (v : Nat) : Bool :=
  let n := fld v 63 32
  let inl := tbit v 9
  let gen := tbit v 8
  fld v 7 0 != 1 || fld v 15 10 != 0 || fld v 255 240 != 0 || fld v 319 304 != 0 || decide (1048575 < n)
    || (gen != (fld v 223 192 != 0)) || ((inl || n == 0) && fld v 303 256 != 0)
    || (if inl then decide (6 < n) || (List.range 6).any (fun i => decide (n ≤ i) && inlineTok v i != 0) else fld v 511 320 != 0)

/-- Every byte of a range is mapped with R in Spread pages. -/
def spreadReadable (s : State) (p va len : Nat) : Bool :=
  (lineSpans va len).all (fun sp => match xlateHome s p (sp.1 * 64 + sp.2.1) { r := true } with
    | .ok d => !pagePinned s (pageOf d)
    | .error _ => false)

/-- The model takes acoustic features instead of tokens (R236). -/
def takesFeatures (pt : Part) : Bool := match pt.model with
  | some m => m.features
  | none => false

/-- The vocabulary of a partition's model. -/
def vocabOf (pt : Part) : Nat := match pt.model with
  | some m => m.vocab
  | none => 0

/-- The input tokens of a TURN, or none when they are unusable; a feature model's frames are counted as zeros. DESIGN CHOICE (log entry
124): R240 gives a token's place in its 32 bits, [17:0], and does not say what bits [31:18] must hold; they are ignored. -/
def turnInputs (p v : Nat) (s : State) : State × Option (List Nat) :=
  let pt := getPart s p
  let n := fld v 63 32
  let check := fun (l : List Nat) => if l.all (fun t => decide (t < vocabOf pt)) then some l else none
  if takesFeatures pt then
    (s, if n = 0 ∨ tbit v 9 ∨ spreadReadable s p (fld v 303 256) 1 then some (List.replicate n 0) else none)
  else if tbit v 9 || n == 0 then (s, check ((List.range n).map (fun i => inlineTok v i % 2 ^ 18)))
  else if spreadReadable s p (fld v 303 256) (4 * n) then
    match vaRead p (fld v 303 256) (4 * n) s with
    | .ok s1 l => (s1, if pbPoison l then none else check ((chunksOf 4 (pbData l)).map (fun b => ofLe b % 2 ^ 18)))
    | .err s1 _ _ => (s1, none)
  else (s, none)

/-- The first checks of R241, before the inputs are read. -/
def turnFirst (s : State) (r v : Nat) (poison : Bool) : Option Code :=
  let x := getRing s r
  let z := getSess s (fld v 31 16)
  let st := (getPart s x.part).st
  firstFail [(poison || turnBad v, 0x4101), (st == .empty || st == .absent, 0x4110),
    (z.st == .free || z.tenant != x.tenant || z.part != x.part, 0x4103), (z.opened, 0x4104), (z.st == .faulted, 0x4105)]

/-- A TURN is accepted (R241): the request opens. -/
def openReq (now slack pair v : Nat) (ins : List Nat) (x : Sess) : Sess :=
  let d := fld v 191 128
  { x with
    deadline := if d = 0 then now + 1000 * slack else d, userTag := BitVec.ofNat 64 (fld v 127 64), compRing := pair,
    maxNew := fld v 223 192, tokenSlack := fld v 239 224, genCount := 0, opened := true, skipSpec := false,
    st := if x.st = .idle then .queued else x.st, work := { inputs := ins, generate := tbit v 8, busy := x.work.busy } }

/-- One more entry of the ring is consumed, and the rotation goes on behind it (R245). -/
def consumeEntry (r : Nat) (s : State) : State :=
  modRing r (fun x => { x with consumed := x.consumed + 1 }) { s with host := { s.host with ringNext := r + 1 } }

/-- A session whose log is shorter than its committed tokens cannot be rebuilt: it goes to Faulted and its request fails (08 R228). -/
def logShort (n : Nat) (s : State) : State :=
  endReq n 0x4211 5 false (modSess n (fun z => { z with st := .faulted, faultCode := 0x4211 }) s)

/-- The draft session of a target gets the rows of its TURN. -/
def followDraft (n : Nat) (s : State) : State :=
  match draftOf s n with
  | some d => followTarget n d s
  | none => s

/-- A TURN entry, or one of a reserved KIND, is examined. A Sided session whose log is shorter than its committed tokens cannot
be rebuilt: it goes to Faulted and the request fails with 0x4211 (08 R228). -/
def turnEntry (r v : Nat) (poison : Bool) (s : State) : State :=
  let x := getRing s r
  let n := fld v 31 16
  match turnFirst s r v poison with
  | some c => refuseEntry r v c s
  | none =>
    let z := getSess s n
    let (s1, ins) := turnInputs x.part v s
    let feat := takesFeatures (getPart s x.part)
    match ins with
    | none => refuseEntry r v 0x4132 s1
    | some l =>
      if l.isEmpty && z.pend.isNone then refuseEntry r v 0x4132 s1
      else if !feat && decide (z.logCap < z.log.length + l.length) then refuseEntry r v 0x4130 s1
      else
        let s2 := modSess n (openReq s.ftime (getTen s1 x.tenant).slack x.pair v l) s1
        if z.st == .sided && decide (z.log.length < z.committed) then logShort n s2 else followDraft n s2

/-- A ring number of 00 R4's table. -/
def onRing (r : Nat) (k : Host.Outcome State Fault Refusal) : Host.Outcome State Fault Refusal := onUnit "ring" r 16384 k

def turnRow (r : Nat) (s : State) : State :=
  match nextEntry r s with
  | none => s
  | some (s1, v, poison) => if fld v 7 0 = 2 then s else turnEntry r v poison (consumeEntry r s1)

def execTurn (r : Nat) (s : State) : Host.Outcome State Fault Refusal := onRing r (.next (turnRow r s))

/-- A CANCEL entry: its reserved fields, its session, and then the end of the open request, at once or with the step in
progress (R241). DESIGN CHOICE (log entry 124): R240 has MAX_NEW zero 'otherwise' and lets CANCEL use KIND, SESSION and USER_TAG only;
what its other fields hold that are not reserved is ignored. -/
def cancelEntry (r v : Nat) (poison : Bool) (s : State) : State :=
  let x := getRing s r
  let n := fld v 31 16
  let z := getSess s n
  let st := (getPart s x.part).st
  match firstFail [(poison || fld v 15 10 != 0 || fld v 255 240 != 0 || fld v 319 304 != 0, 0x4101),
      (st == .empty || st == .absent, 0x4110),
      (z.st == .free || z.tenant != x.tenant || z.part != x.part, 0x4103)] with
  | some c => refuseEntry r v c s
  | none =>
    if !z.opened then
      ringPost x.pair { sess := n, code := 0x0420, final := true, reason := 4, tag := BitVec.ofNat 64 (fld v 127 64), own := false, mark := true } s
    else if (getPart s x.part).step.isSome then modSess n (fun z => { z with work := { z.work with cancel := true } }) s
    else endReq n 0x0420 4 false s

def cancelRow (r : Nat) (s : State) : State :=
  match nextEntry r s with
  | none => s
  | some (s1, v, poison) => if fld v 7 0 = 2 then cancelEntry r v poison (consumeEntry r s1) else s

def execCancel (r : Nat) (s : State) : Host.Outcome State Fault Refusal := onRing r (.next (cancelRow r s))

/-! ### Interrupt moderation (R244) -/

def irqTimeRow (r : Nat) (s : State) : State :=
  let x := getRing s r
  if x.completion && x.st == .enabled && x.sinceIrq != 0 && x.irqTime != 0 then
    ringSignal r (timeTo (x.firstAt + 1000 * x.irqTime) s)
  else s

def execIrqTime (r : Nat) (s : State) : Host.Outcome State Fault Refusal := onRing r (.next (irqTimeRow r s))

/-! ### Doorbells (17 R434, R435) -/

/-- A doorbell that changes nothing is counted. -/
def dbIgnore (r : Nat) (s : State) : State := modRing r (fun x => { x with ignored := x.ignored + 1 }) s

/-- A ring goes to Error with a code, and its partition's event interrupt tells the owner, naming the ring (R239). -/
def ringError (r : Nat) (code : Code) (s : State) : State :=
  post code 7 r (pevtSet (getRing s r).part (modRing r (fun x => { x with st := .error, code := code }) s))

/-- A value taken by an Enabled submission ring. -/
def takeProduced (r : Nat) (v : BitVec 32) (s : State) : State :=
  let x := getRing s r
  if (v - x.consumed).toNat ≤ x.entries then
    if (x.doorbell - x.consumed).toNat ≤ (v - x.consumed).toNat then modRing r (fun x => { x with doorbell := v }) s else dbIgnore r s
  else if (x.consumed - v).toNat ≤ x.entries then dbIgnore r s
  else ringError r 0x4102 s

/-- A value taken by an Enabled completion ring; entries that waited for room follow. -/
def takeConsumed (r : Nat) (v : BitVec 32) (s : State) : State :=
  let x := getRing s r
  if (v - x.consumed).toNat ≤ (x.posted - x.consumed).toNat then
    flushBacklog r (modRing r (fun x => { x with consumed := v, doorbell := v }) s)
  else if (x.consumed - v).toNat ≤ x.entries then dbIgnore r s
  else ringError r 0x4102 s

/-- A doorbell write from a function (R434): the reserved half, whole coverage, the ring's function and state; then the value is
taken if the ring is of the row's kind. -/
def doorbell (completion : Bool) (fn r : Nat) (whole : Bool) (v hi : BitVec 32) (s : State) : State :=
  let x := getRing s r
  if !hostUp s || (x.completion != completion && x.st == .enabled) then s
  else
    let s1 := if hi = 0 then s else rsvWrite fn s
    if !whole then dbIgnore r s1
    else if x.fn != fn then hostErr fn true 1 0x4170 (8 * r) (dbIgnore r s1)
    else if x.st != .enabled then dbIgnore r s1
    else if completion then takeConsumed r v s1 else takeProduced r v s1

/-- A function number of 17 R420. -/
def onFn (fn : Nat) (k : Host.Outcome State Fault Refusal) : Host.Outcome State Fault Refusal := onUnit "function" fn 64 k

def execSubmissionDoorbell (fn r : Nat) (whole : Bool) (v hi : BitVec 32) (s : State) : Host.Outcome State Fault Refusal :=
  onFn fn (onRing r (.next (doorbell false fn r whole v hi s)))

def execCompletionDoorbell (fn r : Nat) (whole : Bool) (v hi : BitVec 32) (s : State) : Host.Outcome State Fault Refusal :=
  onFn fn (onRing r (.next (doorbell true fn r whole v hi s)))

/-! ### Budgets (R249) -/

/-- One refill of a tenant; a TEN change takes effect at the boundary. -/
def refill (t : Tenant) : Tenant :=
  let rb := t.next.getD (t.rate, t.burst)
  { t with rate := rb.1, burst := rb.2, next := none, bal := min (t.bal + rb.1) rb.2 }

/-- The next 1 ms boundary: every tenant is refilled. -/
def execEpochRefill (s : State) : Host.Outcome State Fault Refusal :=
  let s1 := timeTo ((s.epoch + 1) * 1000000) s
  .next { s1 with epoch := s.epoch + 1,
                  tens := (s1.tens.map (fun e => (e.1, refill e.2))).filter (fun e => e.2 != ({} : Tenant)) }

end Sys2Proof.Machine
end

