-- ==== Sys2Proof/Machine/Kv.lean ====
section
/-!
DEFINITION. Key-value pages (08 R202 to R213, R225 to R230): geometry, the pool, the dealing of runs to channels, KV directories,
the Siding, and the loss and release of pages.
-/

namespace Sys2Proof.Machine

/-! ### Geometry (R202, R203, R208) -/

/-- The format of a geometry's pages. -/
def KvGeom.format (g : KvGeom) : Fmt := (Fmt.ofCode g.fmt).getD .fp32

/-- T, the tokens per page. -/
def KvGeom.tokens (g : KvGeom) : Nat := pageTokens g.format g.h g.d

/-- T8, the tokens per page of the shadow. -/
def KvGeom.tokens8 (g : KvGeom) : Nat := 32768 / (g.h * g.d)

/-- The shadow pages per list. -/
def KvGeom.shadows (g : KvGeom) : Nat := if g.format = .kv4 then (if 64 ≤ g.tokens8 then 1 else 2) else 0

/-- NLISTS. -/
def KvGeom.nlists (g : KvGeom) : Nat := g.layers * g.hg

/-- The checks of R202. -/
def KvGeom.bad (g : KvGeom) : Bool :=
  !(match Fmt.ofCode g.fmt with | some f => f.isKv | none => false) || !(g.d == 64 || g.d == 128 || g.d == 256)
    || g.h == 0 || g.hg == 0 || g.layers == 0 || g.maxCtx == 0 || decide (1024 < g.h * g.d) || decide (1024 < g.nlists)
    || decide (1048575 < g.maxCtx) || decide (2048 < cdiv g.maxCtx g.tokens)

/-- A number rounded up to a multiple. -/
def roundUp (a m : Nat) : Nat := cdiv a m * m

/-- MAXPAGES (R210). -/
def KvGeom.maxPages (g : KvGeom) (run : Nat) : Nat := roundUp (cdiv g.maxCtx g.tokens) run

/-- The geometry of a partition's model. -/
def geomOf (pt : Part) : Option KvGeom := pt.model.bind (·.kv)

/-! ### The pool (R211) -/

/-- The VA >> 16 of the 64 KiB entry that maps a 64 KiB page. -/
def entryOf (pt : Part) (page : Nat) : Option Nat :=
  (pt.ptab.find? (fun e => e.bits.getLsbD 1 && pteBase e.bits / 0x10000 == page)).map (fun e => e.va / 0x10000)

/-- The 64 KiB page that a list entry names. -/
def entryPage (pt : Part) (e : Nat) : Option Nat := (pteAt pt.ptab (e * 0x10000)).map (fun x => pteBase x.bits / 0x10000)

/-- The KV channels: the ones that hold pool pages, ascending. -/
def kvChans (pt : Part) : List Nat := sortNat (dedup (pt.pool.map homeOf))

/-- The free 64 KiB pages of the pool on a channel, ascending. -/
def freeOn (pt : Part) (c : Nat) : List Nat :=
  ((sortNat (pt.pool.filter (fun g => homeOf g == c))).flatMap (fun g => (List.range 32).map (fun i => 32 * g + i))).filter
    (fun x => (spGet? pt.kvUse x).isNone && !mem x pt.kvFill)

/-- The free 64 KiB pages of the pool. -/
def freePages (pt : Part) : Nat := ((kvChans pt).map (fun c => (freeOn pt c).length)).foldl (· + ·) 0

/-- The first channel at or after an index that has k free pages. -/
def pickChan (pt : Part) (start k : Nat) : Option Nat :=
  let cs := kvChans pt
  ((List.range cs.length).map (fun i => (cs[(start + i) % cs.length]?).getD 0)).find? (fun c => decide (k ≤ (freeOn pt c).length))

/-- k pages of a channel taken for session n: the partition, and the list entries of the pages. -/
def takeRun (pt : Part) (n c k : Nat) : Part × List Nat :=
  let ps := (freeOn pt c).take k
  ({ pt with kvUse := ps.foldl (fun m x => spSet 0 m x (n + 1)) pt.kvUse }, ps.map (fun x => (entryOf pt x).getD 0))

/-- Pages of list λ from its run r on, until it has need pages; none when a run cannot be had. Fuel is the number of runs. -/
def growList (n lam run : Nat) : Nat → Part → List Nat → Option (Part × List Nat)
  | 0, pt, l => some (pt, l)
  | k + 1, pt, l =>
    match pickChan pt (l.length / run + n + 37 * lam) run with
    | none => none
    | some c => let (pt1, es) := takeRun pt n c run; growList n lam run k pt1 (l ++ es)

/-- The shadow pages of list λ, one at a time. -/
def growShadow (n lam : Nat) : Nat → Part → List Nat → Option (Part × List Nat)
  | 0, pt, l => some (pt, l)
  | k + 1, pt, l =>
    match pickChan pt (n + 37 * lam + (kvChans pt).length / 2) 1 with
    | none => none
    | some c => let (pt1, es) := takeRun pt n c 1; growShadow n lam k pt1 (l ++ es)

/-- Every list grown to hold need pages and its shadows: all or nothing. -/
def growAll (g : KvGeom) (n run need : Nat) (pt : Part) (x : Sess) : Option (Part × Sess) :=
  (List.range g.nlists).foldl (fun acc lam => acc.bind (fun (t : Part × Sess) =>
    let l := (t.2.lists[lam]?).getD []
    let sh := (t.2.shadows[lam]?).getD []
    (growList n lam run ((need - l.length) / run) t.1 l).bind (fun a =>
      (growShadow n lam (g.shadows - sh.length) a.1 sh).map (fun b =>
        (b.1, { t.2 with lists := t.2.lists.take lam ++ [a.2] ++ t.2.lists.drop (lam + 1),
                         shadows := t.2.shadows.take lam ++ [b.2] ++ t.2.shadows.drop (lam + 1) }))))) (some (pt, x))

/-! ### Directories (R210) -/

/-- Bytes written through the Dispatcher's own path to memory: the page table places them, its rights do not matter. -/
def ownWrite (p va : Nat) (bytes : List Byte) (s : State) : State :=
  ((lineSpans va bytes.length).foldl (fun (t : State × List Byte) sp =>
    (match xlateHome t.1 p (sp.1 * 64 + sp.2.1) {} with
      | .error _ => t.1
      | .ok d => lineWrite (d / 64) sp.2.1 (pbOf false (t.2.take sp.2.2)) t.1, t.2.drop sp.2.2)) (s, bytes)).1

/-- log2 of RUN. -/
def runLog2 (run : Nat) : Nat := Nat.log2 run

/-- The 64-byte header of a session's directory. -/
def dirHeader (g : KvGeom) (run n : Nat) (x : Sess) : List Byte :=
  leBytes (put g.shadows 128 + put x.keep 96 + put x.committed 64 + put x.npages 48 + put x.maxPages 32 + put (runLog2 run) 28
    + put g.nlists 16 + n) 64

/-- The entries of list λ: its pages, zeros to MAXPAGES, two shadow entries. -/
def dirList (x : Sess) (lam : Nat) : List Nat :=
  let l := (x.lists[lam]?).getD []
  let sh := (x.shadows[lam]?).getD []
  l ++ List.replicate (x.maxPages - l.length) 0 ++ sh ++ List.replicate (2 - sh.length) 0

/-- All entries of a directory. -/
def dirEntries (g : KvGeom) (x : Sess) : List Nat := (List.range g.nlists).flatMap (dirList x)

/-- The bytes of a directory. -/
def dirBytes (g : KvGeom) (maxPages : Nat) : Nat := 64 + g.nlists * 4 * (maxPages + 2)

/-- A placed directory brought up to date: its header, and the entries that differ from the old ones. -/
def syncDir (p n : Nat) (old : Sess) (s : State) : State :=
  let pt := getPart s p
  let x := getSess s n
  match geomOf pt with
  | none => s
  | some g =>
    if x.dirSize = 0 then s
    else
      let s1 := ownWrite p x.dirVa (dirHeader g pt.params.run n x) s
      let news := dirEntries g x
      ((List.range news.length).zip (news.zip (dirEntries g old))).foldl (fun t e =>
        if e.2.1 = e.2.2 then t else ownWrite p (x.dirVa + 64 + 4 * e.1) (leBytes e.2.1 4) t) s1

/-- A change of a session with its directory brought up to date. -/
def modSessDir (p n : Nat) (f : Sess → Sess) (s : State) : State := syncDir p n (getSess s n) (modSess n f s)

/-- The extents of the partition's placed directories, by offset from the KV list area. -/
def dirExtents (s : State) (p base : Nat) : List (Nat × Nat) :=
  sortBy (fun a b => decide (a.1 ≤ b.1))
    ((s.sess.filter (fun e => e.2.part == p && e.2.dirSize != 0)).map (fun e => (e.2.dirVa - base, roundUp e.2.dirSize 64)))

/-- The lowest 64-byte-aligned offset at which size bytes fit beside the extents. -/
def firstFit (size : Nat) : List (Nat × Nat) → Nat → Nat
  | [], off => off
  | (o, k) :: t, off => if off + size ≤ o then off else firstFit size t (max off (o + k))

/-- Where a session's directory would stand: its address and size, when the model has KV geometry and an area is named and it fits. -/
def dirPlace (s : State) (p : Nat) : Option (Nat × Nat × Nat) :=
  let pt := getPart s p
  match geomOf pt, pt.params.kvArea with
  | some g, some a =>
    let mp := g.maxPages pt.params.run
    let size := dirBytes g mp
    let off := firstFit size (dirExtents s p a.va) 0
    if off + size ≤ a.units * 0x10000 then some (a.va + off, size, mp) else none
  | _, _ => none

/-- A session's directory is due: its partition's model has geometry and the area is named. -/
def dirDue (s : State) (p : Nat) : Bool := (geomOf (getPart s p)).isSome && (getPart s p).params.kvArea.isSome

/-- A directory placed and written whole (R210). -/
def placeDir (p n : Nat) (s : State) : State :=
  match dirPlace s p, geomOf (getPart s p) with
  | some (va, size, mp), some g =>
    let s1 := modSess n (fun x => { x with dirVa := va, dirSize := size, maxPages := mp }) s
    let x := getSess s1 n
    ownWrite p va (dirHeader g (getPart s1 p).params.run n x ++ (dirEntries g x).flatMap (fun e => leBytes e 4)) s1
  | _, _ => s

/-! ### Release and loss (R213, R227, R230) -/

/-- 64 KiB pages leave their session: nothing of them stays in a slice, and they wait for their zero fill. -/
def releasePages (p : Nat) (pages : List Nat) (s : State) : State :=
  modPart p (fun pt => { pt with kvUse := pages.foldl (fun m x => spErase m x) pt.kvUse, kvFill := pt.kvFill ++ pages })
    { s with cache := { s.cache with lines := s.cache.lines.filter (fun e => !mem (e.1 / 0x400) pages) } }

/-- The zero fill of a released page: it is free afterwards. -/
def freeKvPage (p page : Nat) (s : State) : State :=
  if mem page (getPart s p).kvFill then
    modPart p (fun pt => { pt with kvFill := pt.kvFill.filter (· != page) }) (fillWhere (fun d => decide (d / 0x10000 = page)) s)
  else s

def execKvPageFreed (p page : Nat) (s : State) : Host.Outcome State Fault Refusal :=
  onUnit "partition" p 16 (.next (freeKvPage p page s))

/-- The 64 KiB pages of list entries. -/
def pagesOf (pt : Part) (es : List Nat) : List Nat := es.filterMap (entryPage pt)

/-- The pages of a session from list position i on, and all its shadows. -/
def tailPages (pt : Part) (x : Sess) (i : Nat) : List Nat :=
  pagesOf pt (x.lists.flatMap (fun l => l.drop i) ++ x.shadows.flatMap id)

/-- A session without its pages from list position i on: KEEP at most the first position of them. -/
def cutSess (g : KvGeom) (i : Nat) (x : Sess) : Sess :=
  { x with keep := min x.keep (i * g.tokens), npages := min x.npages i, lists := x.lists.map (·.take i),
           shadows := x.shadows.map (fun _ => []) }

/-- Runs released from list position i on (R227, R230); the directory follows. -/
def cutPages (p n i : Nat) (s : State) : State :=
  match geomOf (getPart s p) with
  | none => s
  | some g => modSessDir p n (cutSess g i) (releasePages p (tailPages (getPart s p) (getSess s n) i) s)

/-- Every page of a session released, KEEP 0, and Sided when it has committed tokens (R210, R211). -/
def dropAllPages (p n : Nat) (s : State) : State :=
  let s1 := cutPages p n 0 s
  modSess n (fun x => { x with keep := 0, st := if (x.st = .idle ∨ x.st = .queued) ∧ 0 < x.committed then .sided else x.st }) s1

/-- A 64 KiB page reads poisoned or its channel is gone. -/
def pageLost (s : State) (page : Nat) : Bool :=
  match locate s (page * 0x10000) with
  | none => true
  | some (c, _) => (getChan s c).failed
    || s.mem.chk.any (fun e => e.2 == linePoison && (match placeDpa s (e.1 * 64 / chanBytes) (e.1 * 64 % chanBytes) with
        | some d => decide (d / 0x10000 = page)
        | none => false))
    || s.cache.lines.any (fun e => decide (e.1 / 0x400 = page) && e.2.chk.any (fun c => c.2 == bytePoison))

/-- The lowest lost list position of a session; a lost shadow counts at the position of its first original. -/
def lostAt (s : State) (p n : Nat) : Option Nat :=
  let pt := getPart s p
  let x := getSess s n
  match geomOf pt with
  | none => none
  | some g =>
    let bad := fun e => match entryPage pt e with
      | some q => pageLost s q
      | none => true
    let hits := (List.range x.npages).filter (fun i => x.lists.any (fun l => match l[i]? with
      | some e => bad e
      | none => false))
    let sh := x.shadows.any (fun l => l.any bad)
    let at_ := if sh then hits ++ [x.committed / 32 * 32 / g.tokens] else hits
    at_.foldl (fun a i => match a with
      | none => some i
      | some j => some (min i j)) none

/-- R230 for a session that no running step holds: the pages from the lost run on are released, an Idle or Queued session is
Sided (a Queued one whose log is too short to rebuild fails, R228), one with rows in Prefill or Decode ends its request with a retry
and the events of the step that ends, and 0x0411 is reported. -/
def loseFrom (ev : Events) (p n i : Nat) (s : State) : State :=
  let run := max 1 (getPart s p).params.run
  let s1 := cutPages p n (i / run * run) s
  let x := getSess s1 n
  let lost := decide (x.keep < x.committed)
  let s2 := match x.st with
    | .idle => if lost then modSess n (fun x => { x with st := .sided }) s1 else s1
    | .queued =>
      if !lost then s1
      else if x.log.length < x.committed then logShort n s1
      else modSess n (fun x => { x with st := .sided }) s1
    | .prefill => retryReqEv ev n 0x4151 s1
    | .decode => retryReqEv ev n 0x4151 s1
    | _ => s1
  post 0x0411 6 n s2

/-- R230 applied to every session of a partition whose pages are lost, the ones of a running step excepted: those follow when
the step has ended. `ev`: the events of the step that ends, for its sessions. -/
def loseSessionsEv (ev : Nat → Events) (p : Nat) (s : State) : State :=
  (sessOf s p).foldl (fun t n => if inStep t n then t else match lostAt t p n with
    | some i => loseFrom (ev n) p n i t
    | none => t) s

/-- The same where no step ends. -/
def loseSessions (p : Nat) (s : State) : State := loseSessionsEv (fun _ => 0) p s

/-! ### The Siding (R225 to R227) -/

/-- The 64 KiB pages that a session holds. -/
def sessPages (x : Sess) : Nat := (x.lists.map (·.length)).foldl (· + ·) 0 + (x.shadows.map (·.length)).foldl (· + ·) 0

/-- The pages that the sessions of a tenant hold in a partition. -/
def tenPages (s : State) (p t : Nat) : Nat :=
  ((s.sess.filter (fun e => e.2.part == p && e.2.tenant == t)).map (fun e => sessPages e.2)).foldl (· + ·) 0

/-- The victims in order: Idle sessions with pages, a draft session held by a step excepted (R212); those of tenants over their guarantee first; then the oldest last
completion; then the lower number. -/
def victims (s : State) (p : Nat) : List Nat :=
  let key := fun (e : Nat × Sess) => (if (getTen s e.2.tenant).kvGuar < tenPages s p e.2.tenant then 0 else 1, e.2.lastDone, e.1)
  let le := fun (a b : Nat × Sess) =>
    let x := key a
    let y := key b
    decide (x.1 < y.1 ∨ (x.1 = y.1 ∧ (x.2.1 < y.2.1 ∨ (x.2.1 = y.2.1 ∧ x.2.2 ≤ y.2.2))))
  (sortBy le (s.sess.filter (fun e => e.2.part == p && e.2.st == .idle && !e.2.work.busy && decide (0 < sessPages e.2)))).map (·.1)

/-- A victim's next drop (R227): first its shadows and its runs at or beyond COMMITTED, then its last run; the pages are filled and
free before the Dispatcher goes on. -/
def dropOne (g : KvGeom) (p n : Nat) (s : State) : State :=
  let pt := getPart s p
  let x := getSess s n
  let run := max 1 pt.params.run
  let live := run * cdiv (cdiv x.committed g.tokens) run
  let i := if live < x.npages ∨ x.shadows.any (fun l => !l.isEmpty) then min x.npages live else x.npages - run
  let s1 := cutPages p n i s
  let s2 := modSess n (fun x => { x with st := if x.st = .idle ∧ x.keep < x.committed then .sided else x.st }) s1
  (tailPages pt x i).foldl (fun t q => freeKvPage p q t) s2

/-- One drop of the victim at hand while it holds pages, else of the next one: the state and the victim; none when there is none. -/
def dropRun (p : Nat) (cur : Option Nat) (s : State) : Option (State × Nat) :=
  let next := match cur with
    | some n => if 0 < sessPages (getSess s n) then some n else (victims s p).head?
    | none => (victims s p).head?
  match next, geomOf (getPart s p) with
  | some n, some g => some (dropOne g p n s, n)
  | _, _ => none

/-- Runs dropped until the pool has `high` free pages or no victim is left; fuel is the number of pages. -/
def dropTo (p high : Nat) : Nat → Option Nat → State → State
  | 0, _, s => s
  | k + 1, cur, s => if high ≤ freePages (getPart s p) then s else match dropRun p cur s with
    | none => s
    | some (s1, n) => dropTo p high k (some n) s1

/-- An allocation tried, with one drop after each failure where the Siding is enabled (R212, R225): the state, the victim at hand,
and whether the pages were had. What was dropped stays dropped. -/
def growDrop (g : KvGeom) (p n need : Nat) : Nat → Option Nat → State → State × Option Nat × Bool
  | k, cur, s =>
    let pt := getPart s p
    match growAll g n (max 1 pt.params.run) need pt (getSess s n) with
    | some (pt1, x1) =>
      (modSessDir p n (fun _ => { x1 with npages := need }) (modPart p (fun _ => pt1) s), cur, true)
    | none =>
      match k with
      | 0 => (s, cur, false)
      | k1 + 1 => if pt.params.siding then (match dropRun p cur s with
        | none => (s, cur, false)
        | some (s1, v) => growDrop g p n need k1 (some v) s1) else (s, cur, false)

/-- The pages that a session's rows up to a position need, in every list, and its shadows (R212, R218), and whether they were had.
After an allocation that took pages the Siding refills the free pages from LOW to HIGH (R225). -/
def allocFor (p n endPos : Nat) (s : State) : State × Bool :=
  let pt := getPart s p
  match geomOf pt with
  | none => (s, true)
  | some g =>
    let x := getSess s n
    let need := max x.npages (roundUp (cdiv endPos g.tokens) (max 1 pt.params.run))
    let x0 := { x with lists := x.lists ++ List.replicate (g.nlists - x.lists.length) [],
                       shadows := x.shadows ++ List.replicate (g.nlists - x.shadows.length) [] }
    let fuel := 64 * pt.pool.length + 1
    match growDrop g p n need fuel none (modSess n (fun _ => x0) s) with
    | (s1, _, false) => (s1, false)
    | (s1, cur, true) =>
      let took := sessPages x < sessPages (getSess s1 n)
      (if pt.params.siding && took && decide (freePages (getPart s1 p) < pt.params.low) then dropTo p pt.params.high fuel cur s1 else s1, true)

end Sys2Proof.Machine
end

