-- ==== Sys2Proof/Machine/Link.lean ====
section
/-!
DEFINITION. What the Junction sends (11 R282 to R285, R290, R294, R295): the route of a packet, its port, its credits, and the codewords that a
port keeps for a replay.
-/

namespace Sys2Proof.Machine

def getPort (s : State) (p : Nat) : Port := spGet {} s.fab.ports p
def modPort (p : Nat) (f : Port → Port) (s : State) : State := { s with fab := { s.fab with ports := spMod {} s.fab.ports p f } }

/-- The routing entry of an identity. -/
def routeOf (s : State) (dst : Nat) : BitVec 32 := spGet 0 s.fab.routes dst

/-- The Up ports that an entry lists, ascending. -/
def upPorts (s : State) (dst : Nat) : List Nat :=
  (bitsOf 18 (routeOf s dst).toNat).filter (fun p => portUp (getPort s p))

/-- A packet can be sent to another device: this one has an identity, and there is a valid entry with an Up port (R290, R295). -/
def reachable (s : State) (dst : Nat) : Bool := s.fab.assigned && (routeOf s dst).getLsbD 24 && !(upPorts s dst).isEmpty

/-! ### Codewords (R282, R284) -/

/-- The slots of a packet: its header, and its data in slots of 64 bytes. -/
def slotsOf (k : Packet) : List Slot := .head { k with data := [] } :: (chunksOf 64 k.data).map .data

/-- Slots sent on a port: they fill codewords of ten, and the last 1,024 codewords are held. -/
def sendSlots (p : Nat) (l : List Slot) (s : State) : State :=
  modPort p (fun x =>
    let ws := chunksOf 10 l
    { x with
      txSeq := x.txSeq + ws.length
      tx := lastN 1024 (x.tx ++ ((List.range ws.length).zip ws).map (fun e => { seq := x.txSeq + e.1, slots := e.2 })) }) s

/-- What the ends of one link exchange themselves: keepalives, neighbour records, time exchanges and requests for a replay. -/
def sendLink (p : Nat) (what : String) (data : List Byte) (s : State) : State := emit (.link p what data) (sendSlots p [.link what data] s)

/-! ### Ports and credits (R283, R294) -/

/-- An ordered packet: a remote atomic's request, and everything on VC0 and VC2; the data of VC1 and VC3 names its offset and is not. -/
def inOrder (k : Packet) : Bool := k.vc == 0 || k.vc == 2 || k.what == "atomic request"

/-- The element at index h mod u of u. -/
def pickAt (l : List Nat) (h : Nat) : Option Nat :=
  match l with
  | [a] => some a
  | l => l[h % l.length]?

/-- The port of an ordered packet with a flow label. -/
def orderedPort (s : State) (dst flow : Nat) : Option Nat := pickAt (upPorts s dst) (Config.flowHash flow)

/-- The credits that the receivers of some ports have returned by now: free values, at least what the packet needs (log entry 94). -/
def takeCredits (vc need : Nat) (ports : List Nat) (s : State) : State :=
  ports.foldl (fun t p => modPort p (fun x => { x with credit := spMod 0 x.credit vc (fun n => n + need + (Config.freeWord t.free).toNat) })
    { t with free := t.free + 1 }) s

/-- The free credit of a port on a channel. -/
def creditOf (s : State) (vc p : Nat) : Nat := spGet 0 (getPort s p).credit vc

/-- Of ascending ports the one with the most free credit, the lowest on a tie. -/
def mostCredit (s : State) (vc : Nat) : List Nat → Option Nat
  | [] => none
  | a :: l => some (l.foldl (fun b p => if creditOf s vc b < creditOf s vc p then p else b) a)

/-- The port that a packet takes among the Up ports of its entry, and the credits it uses there. -/
def choosePort (k : Packet) (s : State) : State × Option Nat :=
  if inOrder k then (s, orderedPort s k.dst k.flow)
  else
    let need := (slotsOf k).length
    let s1 := takeCredits k.vc need (upPorts s k.dst) s
    match mostCredit s1 k.vc (upPorts s k.dst) with
    | none => (s1, none)
    | some p => (modPort p (fun x => { x with credit := spMod 0 x.credit k.vc (· - need) }) s1, some p)

/-- A packet goes out by the routing table; none says that it could not (R295). -/
def route (k : Packet) (s : State) : Option State :=
  if reachable s k.dst then
    match choosePort k s with
    | (s1, some p) => some (emit (.packet (some p) k) (sendSlots p (slotsOf k) s1))
    | (_, none) => none
  else none

/-! ### This device's own packets -/

/-- A packet of this device is sent: to a partition of its own without a port, to another device by the routing table, or not at all. -/
def sendPacket (k : Packet) (s : State) : State :=
  if s.fab.assigned && k.dst == s.fab.ident.toNat then emit (.packet none k) s else (route k s).getD s

/-- A packet for a device can be sent. -/
def canSend (s : State) (dst : Nat) : Bool := (s.fab.assigned && dst == s.fab.ident.toNat) || reachable s dst

/-- The flow label of a packet. -/
def labelOf (what : String) (key : Nat) : Nat := Config.flowLabel what key % 2 ^ 20

/-- The packets of a transfer: 32 data slots each but the last (R284), with their offsets and the flags of their slots. -/
def splitPacket (k : Packet) : List Packet :=
  if k.data.length ≤ 2048 then [k]
  else ((List.range (cdiv k.data.length 2048)).zip (chunksOf 2048 k.data)).map (fun e =>
    { k with
      off := k.off + 2048 * e.1
      data := e.2
      poison := (k.poison.filter (fun i => i / 32 == e.1)).map (· - 32 * e.1) })

/-- A transfer to a device on a virtual channel. -/
def sendTo (vc : Nat) (what : String) (dst : Nat) (args : List Nat) (data : List Byte) (poison : List Nat) (s : State) : State :=
  (splitPacket { vc := vc, dst := dst, src := s.fab.ident.toNat, flow := labelOf what dst, what := what, args := args, data := data,
                 poison := poison }).foldl (fun t k => sendPacket k t) s

/-- A header-only packet on VC0: a keepalive, a notice, a record of group formation. -/
def sendNotice (what : String) (dst : Nat) (args : List Nat) (s : State) : State := sendTo 0 what dst args [] [] s

end Sys2Proof.Machine
end

