-- ==== Sys2Proof/Machine/Records.lean ====
section
/-!
DEFINITION. Poison in the device reserve (12 R337): the records of sessions, which the Dispatcher reads, heals or gives up, and its
working state.
-/

namespace Sys2Proof.Machine

/-! ### What is poisoned -/

/-- A stack line is poisoned, or its channel has failed. -/
def lineSick (s : State) (L : Nat) : Bool := match locate s (L * 64) with
  | none => false
  | some (c, off) => (getChan s c).failed || rawChk s c off == linePoison

/-- Every line has valid check bits and no channel has failed: nothing is poisoned. -/
def allSound (s : State) : Bool := s.mem.chk.isEmpty && s.chans.all (fun e => !e.2.failed)

/-- A line of a run of bytes of the reserve is, from a place on. -/
def reserveSick (s : State) (start len : Nat) : Bool :=
  !allSound s && (List.range ((len + 63) / 64)).any (fun i => lineSick s (reserveDpa (start + 64 * i) / 64))

/-- A line of a run of a partition's virtual addresses is. -/
def vaSick (s : State) (p va len : Nat) : Bool :=
  (lineSpans va len).any (fun sp => match xlateHome s p (sp.1 * 64) {} with
    | .ok d => lineSick s (d / 64)
    | .error _ => false)

/-- Where a session's log and penalty count table start in the reserve. -/
def logStart (x : Sess) : Nat := reserveLin x.logPtr
def penStart (x : Sess) : Nat := reserveLin x.penPtr

/-- A session's log is poisoned. -/
def logSick (s : State) (x : Sess) : Bool := reserveSick s (logStart x) (logBytes x.logCap)

/-- A session's own records are lost: its entry, its directory, or a log that no buddy mirrors. -/
def recordsLost (s : State) (n : Nat) : Bool :=
  let x := getSess s n
  reserveSick s (recordStart 0 + 256 * n) 256 || (!x.mirror && logSick s x) || vaSick s x.part x.dirVa x.dirSize

/-! ### Reading and rewriting the reserve -/

/-- The lines of the reserve with check bits that are not valid and whose place satisfies a test. -/
def doubtful (q : Nat → Bool) (s : State) : List (Nat × Nat) :=
  (s.mem.chk.map (fun e => (e.1 * 64 / chanBytes, e.1 * 64 % chanBytes))).filter (fun e => decide (e.2 < reserveEnd) && (match placeDpa s e.1 e.2 with
    | some d => q (reserveLin d)
    | none => false))

/-- The Dispatcher's read of part of the reserve: errors are found, corrected and recorded as every read of a stack line finds them. -/
def readReserve (q : Nat → Bool) (s : State) : State := (doubtful q s).foldl (fun t e => (stackRead 0 e.1 e.2 t).1) s

/-- The writer of part of the reserve writes its poisoned lines again, whole, with what they hold. -/
def rewriteReserve (q : Nat → Bool) (s : State) : State :=
  ((doubtful q s).filter (fun e => rawChk s e.1 e.2 == linePoison)).foldl (fun t e =>
    stackWrite e.1 e.2 (pbOf false (match recordLine t e.1 e.2 with
      | some (_, v) => v
      | none => rawLine t e.1 e.2)) t) s

/-- A place of the reserve lies in a session's log, or in its penalty count table. -/
def inLog (x : Sess) (lin : Nat) : Bool := decide (behind (logStart x) lin < logBytes x.logCap)
def inPen (x : Sess) (lin : Nat) : Bool := decide (behind (penStart x) lin < penBytes)

/-- A place of the reserve lies in the records of a session. -/
def inRecords (s : State) (lin n : Nat) : Bool :=
  decide (behind (recordStart 0 + 256 * n) lin < 256) || inLog (getSess s n) lin || inPen (getSess s n) lin

/-- A poisoned log of a mirrored session is fetched from its buddy and a poisoned penalty count table is rebuilt from the log: the lines
are written again, and the session keeps its state (R337; log entry 128). -/
def healRecords (n : Nat) (s : State) : State :=
  let x := getSess s n
  let s1 := if !logSick s x then s
    else match (getPart s x.part).buddy with
      | some b => sendTo 3 "log fetch" b [x.part, n] [] [] s
      | none => s
  rewriteReserve (fun l => inLog x l || inPen x l) s1

/-- A session whose records are lost goes to Faulted with 0x2240, its request ended; of another the lines that can be had again are
written again. -/
def checkRecord (s : State) (n : Nat) : State :=
  if recordsLost s n then
    post 0x2240 6 n (endReq n 0x2240 5 false (modSess n (fun x => { x with st := .faulted, faultCode := 0x2240 }) s))
  else healRecords n s

/-- The records of every session looked at. -/
def checkRecords (s : State) : State :=
  if allSound s then s
  else ((s.sess.filter (fun e => e.2.st != .free && e.2.st != .faulted)).map (·.1)).foldl checkRecord s

/-! ### The Dispatcher's working state -/

/-- A place of the reserve lies in the working state of a partition's steps, a line whose place Config.reservePtr gives (log entry 128). -/
def workStart (p : Nat) : Nat := recordStart (131073 + p)
def inWork (p lin : Nat) : Bool := decide (behind (workStart p) lin < 64)

/-- The working state of a partition's steps is poisoned. -/
def workSick (s : State) (p : Nat) : Bool := reserveSick s (workStart p) 64

/-- What the Dispatcher reads of the reserve for a step of a partition: its working state and the records of its sessions, those that
prove lost dealt with. -/
def readForStep (p : Nat) (s : State) : State :=
  if s.mem.chk.isEmpty then s
  else checkRecords (readReserve (fun l => inWork p l || (sessOf s p).any (inRecords s l)) s)

end Sys2Proof.Machine
end

