-- ==== Sys2Proof/Machine/Points.lean ====
section
/-!
DEFINITION. The arithmetic of the Points (09 R255 to R262): the kept list of a row, its decision, LOGPROB, the distributions of
draft nodes, and the walk over a verification tree. Nothing here changes the state.
-/

namespace Sys2Proof.Machine

/-- L2E and LN2 (R256). -/
def l2e : Nat := 0x3FB8AA3B
def ln2F : Nat := 0x3F317218

/-- A count as FP32. -/
def f32Nat (n : Nat) : Nat := (f32Round false n 1 0).1

/-- x < y on FP32 values; false with a NaN. -/
def f32Lt (x y : Nat) : Bool := (f32 x).lt (f32 y)

/-- x ≥ y on FP32 values; false with a NaN. -/
def f32Ge (x y : Nat) : Bool := !(f32 x).isNan && !(f32 y).isNan && !f32Lt x y

/-- A positive value. -/
def f32Pos (x : Nat) : Bool := f32Lt 0 x

def mulF (x y : Nat) : Nat := (f32Mul x y).1
def addF (x y : Nat) : Nat := (f32Add x y).1
def subF (x y : Nat) : Nat := (f32Sub x y).1

/-- Step 1 on the logit of a token that counts n times. -/
def penalize (x : Sess) (n z : Nat) : Nat :=
  let z1 := if x.rep.toNat = f32One then z else if f32Pos z then mulF z (f32Recip x.rep.toNat).1 else mulF z x.rep.toNat
  subF (subF z1 (mulF x.freq.toNat (f32Nat n))) x.pres.toNat

/-- The logits after step 1: counts of the window, and of the drafts on the path (R261). -/
def penalized (x : Sess) (drafts z : List Nat) : List Nat :=
  let counted := penTokens x ++ drafts
  ((List.range z.length).zip z).map (fun e =>
    if mem e.1 counted then penalize x (penCount x e.1 + (drafts.filter (· == e.1)).length) e.2 else e.2)

/-- The running sums of step 7. -/
def chainSums : Nat → List Nat → List Nat
  | _, [] => []
  | a, w :: t => let b := addF a w; b :: chainSums b t

/-- S_0 = p_0, S_i = S_(i−1) + p_i. -/
def sums : List Nat → List Nat
  | [] => []
  | w :: t => w :: chainSums w t

/-- A row after steps 1 to 7: no candidate at all; the largest token of step 3; every candidate in the order of step 5 as (token, u); the kept list as
(token, weight) and its total S_i*; K_sum; and in the +∞ case how many tokens are +∞. -/
structure RowDist where
  none_ : Bool := false
  greedy : Nat := 0
  us : List (Nat × Nat) := []
  kept : List (Nat × Nat) := []
  total : Nat := 0
  ksum : Nat := 0
  infs : Option Nat := none
deriving DecidableEq, Repr

/-- TEMP is +0 (or the other zero). -/
def tempZero (x : Sess) : Bool := x.temp.toNat % 2 ^ 31 == 0

/-- The list ordered by descending value, ascending token on a tie. -/
def byValue (l : List (Nat × Nat)) : List (Nat × Nat) := sortBy (fun a b => !f32Lt a.2 b.2) l

/-- The kept list from an ordered list (token, u): TOP_K, MIN_P, TOP_P (steps 5 to 7); its total and K_sum. -/
def keepList (x : Sess) (us0 : List (Nat × Nat)) : List (Nat × Nat) × Nat × Nat :=
  let us := if x.topK = 0 then us0 else us0.take x.topK
  let m := (us.head?.map (·.2)).getD 0
  let ps := us.map (fun e => (e.1, (f32Exp2 (subF e.2 m)).1))
  let ksum := (sums (ps.map (·.2))).getLast?.getD 0
  let lead := ps.take 1 ++ (ps.drop 1).takeWhile (fun e => f32Ge e.2 x.minP.toNat)
  let ss := sums (lead.map (·.2))
  let theta := mulF x.topP.toNat (ss.getLast?.getD 0)
  let k := (ss.takeWhile (fun v => !f32Ge v theta)).length
  let istar := min k (lead.length - 1)
  (lead.take (istar + 1), (ss[istar]?).getD 0, ksum)

/-- Steps 1 to 7 of R255 for a row. -/
def rowDist (x : Sess) (drafts z : List Nat) : RowDist :=
  let zs := penalized x drafts z
  let C := ((List.range zs.length).zip zs).filter (fun e => !(f32 e.2).isNan && e.2 != negInf)
  let infs := C.filter (fun e => e.2 == fp32.infBits)
  if C.isEmpty then { none_ := true }
  else
    let big := ((byValue C).head?.map (·.1)).getD 0
    if infs.isEmpty then
      let c := if tempZero x then l2e else mulF l2e (f32Recip x.temp.toNat).1
      let us := byValue (C.map (fun e => (e.1, mulF e.2 c)))
      let k := keepList x us
      { greedy := big, us := us, kept := k.1, total := k.2.1, ksum := k.2.2 }
    else
      let us := infs.map (fun e => (e.1, 0))
      let k := keepList x us
      { greedy := big, us := us, kept := k.1, total := k.2.1, ksum := k.2.2, infs := some infs.length }

/-- LOGPROB of a token of the row (R256): u is defined for every candidate, kept under TOP_K or not. -/
def RowDist.logprob (d : RowDist) (tok : Nat) : Nat :=
  match d.infs with
  | some n => negLn n
  | none =>
    let m := (d.us.head?.map (·.2)).getD 0
    let u := ((d.us.find? (fun e => e.1 == tok)).map (·.2)).getD negInf
    mulF (subF (subF u m) (f32Log2 d.ksum).1) ln2F

/-- Step 8 over weights with total W and draw r: the first running sum above r × W, else the last token. -/
def pick (w : List (Nat × Nat)) (W r : Nat) : Nat :=
  let x := mulF r W
  let k := ((sums (w.map (·.2))).takeWhile (fun v => !f32Lt x v)).length
  ((w[min k (w.length - 1)]?).map (·.1)).getD 0

/-- The token of a row that no draft precedes (R255): the largest under TEMP +0, else a draw. -/
def RowDist.decide_ (x : Sess) (d : RowDist) (q dn : Nat) : Nat :=
  if tempZero x && d.infs.isNone then d.greedy else pick d.kept d.total (draw x.seed q dn)

/-! ### Trees of drafts (R223, R260, R261) -/

/-- The mark of a tree place whose token has not been drawn. -/
def noTok : Nat := 0xFFFFFFFF

/-- The parent of node n, from 1 to 15. -/
def parentOf (x : Sess) (n : Nat) : Nat := fld x.parents.toNat (4 * (n - 1) + 3) (4 * (n - 1))

/-- The path from node n up to node 0, n first; fuel 16. -/
def upPath (x : Sess) : Nat → Nat → List Nat
  | 0, n => [n]
  | k + 1, n => if n = 0 then [0] else n :: upPath x k (parentOf x n)

/-- The depth of a node. -/
def depthOf (x : Sess) (n : Nat) : Nat := (upPath x 16 n).length - 1

/-- The nodes of the tree at a depth. -/
def nodesAt (x : Sess) (k : Nat) : List Nat := (List.range x.specNodes).filter (fun n => depthOf x n == k)

/-- The nodes of the tree of depth at most k, ascending. -/
def nodesTo (x : Sess) (k : Nat) : List Nat := (List.range x.specNodes).filter (fun n => decide (depthOf x n ≤ k))

/-- The children of a node, ascending. -/
def childrenOf (x : Sess) (n : Nat) : List Nat := (List.range x.specNodes).filter (fun c => c != 0 && parentOf x c == n)

/-- The tree mask of listed nodes, renumbered by their place in the list. -/
def maskFor (x : Sess) (nodes : List Nat) (n : Nat) : Nat := maskOf ((upPath x 16 n).filterMap (fun a => indexOf a nodes))

/-- The drafts on the path from node 1 to n. -/
def pathToks (x : Sess) (tree : List Nat) (n : Nat) : List Nat :=
  ((upPath x 16 n).filter (· != 0)).map (fun a => (tree[a]?).getD noTok)

/-- A quotient of positive FP32 values, rounded once. -/
def quotF (a b : Nat) : Nat :=
  match f32 a, f32 b with
  | .num _ m e, .num _ k g => if k = 0 then 0 else (f32Round false m k (e - g)).1
  | _, _ => 0

/-- Q_n: the kept list of a draft row with its weights divided by S_i*. -/
def draftDist (d : RowDist) (node : Nat) : DraftDist :=
  { node := node, toks := d.kept.map (fun e => (e.1, BitVec.ofNat 32 (quotF e.2 d.total))) }

/-- Q_n(t). -/
def DraftDist.prob (q : DraftDist) (t : Nat) : Nat := ((q.toks.find? (fun e => e.1 == t)).map (fun e => e.2.toNat)).getD 0

/-- What the walk of R261 finds: accepted nodes in order with their LOGPROB, then the final token with its own, or no candidate. -/
structure Walk where
  accepted : List (Nat × Nat) := []
  final : Option (Nat × Nat) := none
deriving DecidableEq, Repr

/-- w[t] := max(+0, w[t] − Q(t) × W) for each token of the list. -/
def lessDraft (q : DraftDist) (W : Nat) (w : List (Nat × Nat)) : List (Nat × Nat) :=
  w.map (fun e => let v := subF e.2 (mulF (q.prob e.1) W); (e.1, if f32Pos v then v else 0))

/-- The children of a node tried in order at position q: the accepted child, or the weights and draws left. -/
def tryKids (x : Sess) (tree : List Nat) (p : RowDist) (qd : DraftDist) (q : Nat) :
    List Nat → List (Nat × Nat) → Nat → Nat → Option Nat × List (Nat × Nat) × Nat × Nat
  | [], w, W, d => (none, w, W, d)
  | c :: t, w, W, d =>
    let tok := (tree[c]?).getD noTok
    let wx := ((w.find? (fun e => e.1 == tok)).map (·.2)).getD 0
    if f32Lt (mulF (mulF (draw x.seed q d) (qd.prob tok)) W) wx then (some c, w, W, d + 1)
    else
      let w1 := lessDraft qd W w
      let W1 := (sums (w1.map (·.2))).getLast?.getD 0
      if f32Pos W1 then tryKids x tree p qd q t w1 W1 (d + 1) else tryKids x tree p qd q t p.kept p.total (d + 1)

/-- The walk of R261 from node n for the token at position q; `rows` are the logits of the nodes. Fuel is the depth. -/
def walk (x : Sess) (tree : List Nat) (dists : List DraftDist) (rows : List (List Nat)) : Nat → Nat → Nat → Walk
  | 0, _, _ => {}
  | k + 1, n, q =>
    let p := rowDist x (pathToks x tree n) ((rows[n]?).getD [])
    if p.none_ then {}
    else if tempZero x then
      match (childrenOf x n).find? (fun c => (tree[c]?).getD noTok == p.greedy) with
      | some c => let r := walk x tree dists rows k c (q + 1); { r with accepted := (c, p.logprob p.greedy) :: r.accepted }
      | none => { final := some (p.greedy, p.logprob p.greedy) }
    else
      let qd := (dists.find? (fun e => e.node == n)).getD { node := n, toks := [] }
      match tryKids x tree p qd q (childrenOf x n) p.kept p.total 0 with
      | (some c, _, _, _) =>
        let r := walk x tree dists rows k c (q + 1)
        { r with accepted := (c, p.logprob ((tree[c]?).getD 0)) :: r.accepted }
      | (none, w, W, d) => let t := pick w W (draw x.seed q d); { final := some (t, p.logprob t) }

end Sys2Proof.Machine
end

