-- ==== Sys2Proof/Machine/Report.lean ====
section
/-!
DEFINITION. The floor-plan report (15 R398, R399): its header, one state byte per unit and the list of lost Retained pages, rewritten whole
at the start, when a unit or a port changes state and when the retirement advisory is set.
-/

namespace Sys2Proof.Machine

/-- Fused limits of a variant (00 R1): watts and core clock in MHz. -/
def fusedWatts (s : State) : Nat := match s.fuse.variant with
  | .nk16 => 1600
  | .nk12 => 1200
  | .nk09 => 900

def fusedMhz (s : State) : Nat := match s.fuse.variant with
  | .nk16 => 2000
  | .nk12 => 1750
  | .nk09 => 1450

/-- The VARIANT field. -/
def variantNo (s : State) : Nat := match s.fuse.variant with
  | .nk16 => 16
  | .nk12 => 12
  | .nk09 => 9

/-- The package limit last set, at most the fused one (15 R392). -/
def limitSet (s : State) : Nat := min (fusedWatts s) (s.cfg.powerLimit.getD (fusedWatts s))

/-- The package limit in force (16 R409). -/
def pkgLimit (s : State) : Nat := s.heat.limit.getD (limitSet s)

/-- The image that runs (15 R393). -/
def runningImage (s : State) : FwImage := if s.boot.fallback then s.fw.fallback else s.fw.running

/-- The code of HI_START.STATE (17 R429). -/
def Phase.code : Phase → Nat
  | .starting => 0
  | .ready => 1
  | .recovery => 2
  | .fuseFault => 3
  | .failed => 4
  | .stopped => 5

/-- START_KIND: 0 while starting, 1 cold, 2 warm. -/
def kindCode (s : State) : Nat := match s.boot.startKind with
  | none => 0
  | some .cold => 1
  | some .warm => 2

/-- A state byte: an Absent unit keeps its value; a present one reads Off while the domains are off (R399). -/
def stateByte (s : State) (v : Nat) : Nat := if 2 ≤ v then v else if s.boot.domainsOff then 1 else v

/-- The state byte of an SCU: 7 with its channel Absent, Off unless switched on (R399, 04 R116). -/
def scuByte (s : State) (c : Nat) : Nat := if unitPresent s.units.chan c then stateByte s (spGet 1 s.units.scu c) else 7

/-- The state byte of a port: Off when Disabled (R399). -/
def portByte (s : State) (p : Nat) : Nat :=
  let v := stateByte s (spGet 0 s.units.port p)
  if v = 0 ∧ (spGet {} s.fab.ports p).st = .disabled then 1 else v

/-- The bytes of a kind of unit. -/
def stateBytes (s : State) (m : Sp Nat) (n : Nat) : List Byte := (List.range n).map (fun i => BitVec.ofNat 8 (stateByte s (spGet 0 m i)))

/-- The 512 bits of the header (R398). -/
def reportHeader (s : State) : Nat :=
  put s.ftime 448 + put s.fuse.serial.toNat 384 + put (runningImage s).version.toNat 352 + put (runningImage s).levels.toNat 320
  + put (s.boot.startMs % 2 ^ 16) 304 + put (pkgLimit s) 288 + put (fusedMhz s) 272 + put (fusedWatts s) 256
  + put (if s.fab.assigned then s.fab.ident.toNat else 0) 240 + put (presentCount s.units.chan 256) 224
  + put (presentCount s.units.core 144) 216 + put (presentCount s.units.slice 64) 208 + put (variantNo s) 200
  + put (b2n s.boot.flushLost) 105 + put (b2n s.boot.retrained) 104 + put (b2n s.fab.assigned) 103 + put (b2n (s.boot.phase == .failed)) 102
  + put (b2n s.sb.degraded) 101 + put (b2n s.boot.retire) 100 + put s.cfg.chkMode 98 + put (b2n s.boot.fallback) 96
  + put s.boot.lastStopSeen 68 + put s.boot.cause 64 + put (0x350 + 4 * s.boot.lost.length) 32 + put (kindCode s) 16 + 1

/-- The whole report. -/
def reportBytes (s : State) : List Byte :=
  leBytes (reportHeader s) 64 ++ stateBytes s s.units.core 144 ++ stateBytes s s.units.slice 64 ++ stateBytes s s.units.chan 256
  ++ (List.range 256).map (fun c => BitVec.ofNat 8 (scuByte s c)) ++ (List.range 18).map (fun p => BitVec.ofNat 8 (portByte s p))
  ++ stateBytes s s.units.stack 8 ++ stateBytes s s.units.quad 4 ++ stateBytes s s.units.bridge 2 ++ List.replicate 16 0
  ++ leBytes s.boot.lost.length 4 ++ List.replicate 12 0 ++ (sortNat s.boot.lost).flatMap (fun g => leBytes g 4)

/-- The report is rewritten; before the first start has written one there is none (R398). -/
def rewriteReport (s : State) : State := if s.report.isEmpty then s else { s with report := reportBytes s }

/-- A unit's state byte changes in service: the retirement floors are looked at and the report is rewritten (12 R334, R398). -/
def unitChanged (s : State) : State := rewriteReport (retireCheck s)

end Sys2Proof.Machine
end

