-- ==== Sys2Proof/Machine/Coll.lean ====
section
/-!
DEFINITION. Collectives and remote atomics (11 R298 to R310, 10 R275 to R279): groups and their watched neighbours, the collective area and
its requests, their checks, the exchange of data and of partial values, completion and failure.
-/

namespace Sys2Proof.Machine

/-! ### Groups (R299, R300) -/

/-- A group by its local number. -/
def groupOf (s : State) (g : Nat) : Option Group := (s.fab.groups.find? (fun e => e.1 == g)).map (·.2)

/-- Changing a group. -/
def modGroup (g : Nat) (f : Group → Group) (s : State) : State :=
  { s with fab := { s.fab with groups := s.fab.groups.map (fun e => if e.1 = g then (e.1, f e.2) else e) } }

/-- A group is gone. -/
def dropGroup (g : Nat) (s : State) : State := { s with fab := { s.fab with groups := s.fab.groups.filter (fun e => e.1 != g) } }

/-- A rank's device. -/
def memberIdent (x : Group) (r : Nat) : Nat := ((x.members[r]?).map (·.1)).getD 0

/-! ### The watched peers (R291, R300) -/

/-- The ranks at distances of ±2^j from a member's own (R300). -/
def watchedRanks (g : Group) : List Nat :=
  let N := g.members.length
  (List.range 16).flatMap (fun j => if 2 ^ j < N then [(g.rank + 2 ^ j) % N, (g.rank + N - 2 ^ j) % N] else [])

/-- The devices that a group has watched. -/
def groupPeers (s : State) (g : Group) : List Nat := ((watchedRanks g).map (memberIdent g)).filter (· != s.fab.ident.toNat)

/-- The devices named by the buddies and by the neighbours in some groups, each once. -/
def peersOf (q : Group → Bool) (s : State) : List Nat :=
  sortNat (dedup ((List.range 16).filterMap (fun p => (getPart s p).buddy)
    ++ (s.fab.groups.filter (fun e => q e.2)).flatMap (fun e => groupPeers s e.2)))

/-- The watched set: the buddies, and the neighbours in each Formed group, each device once. -/
def watchedSet (s : State) : List Nat := peersOf (fun g => g.st == .formed) s

/-- The watched set as it will be when the groups that are forming are Formed (R300; log entry 97). -/
def watchedSoon (s : State) : List Nat := peersOf (fun g => g.st == .formed || (g.st == .forming && g.complete)) s

/-- The peers kept are those of the watched set; a new one's count starts now. -/
def syncPeers (s : State) : State :=
  { s with fab := { s.fab with peers := (watchedSet s).map (fun d =>
      (s.fab.peers.find? (fun x => x.ident == d)).getD { ident := d, last := s.ftime }) } }

/-! ### The collective area (R301) -/

/-- The address of the area. -/
def collVa (pt : Part) : Nat := (pt.params.collArea.map (·.va)).getD 0

/-- The address of request slot q. -/
def slotVa (pt : Part) (q : Nat) : Nat := collVa pt + 0x1000 + 64 * (q % 256)

/-- The control line's HEAD and DONE as the device writes them. -/
def writeCtl (p : Nat) (s : State) : State :=
  let pt := getPart s p
  ownWrite p (collVa pt + 16) (leBytes pt.collDone 4) (ownWrite p (collVa pt + 8) (leBytes pt.collHead 4) s)

/-- A completion record (R304). -/
def collRecord (r : CollReq) (code : Code) (now level sent received : Nat) (ev : Events) (poison : Bool) : List Byte :=
  leBytes (put (received % 2 ^ 40) 296 + put (sent % 2 ^ 40) 256 + put now 192 + put r.tStart 128 + put (b2n r.ring) 69 + put level 65 + put (b2n poison) 64
    + put ev.toNat 53 + put code 32 + fld r.req.toNat 287 256) 64

/-- The request of a partition with number q that has started. -/
def collReq (s : State) (p q : Nat) : Option CollReq := (getPart s p).coll.find? (fun r => r.q == q && r.started)

/-- Changing a request. -/
def modReq (p q : Nat) (f : CollReq → CollReq) (s : State) : State :=
  modPart p (fun pt => { pt with coll := pt.coll.map (fun r => if r.q = q then f r else r) }) s

/-- A request leaves the scheduler: its record is written and DONE advances (R304). -/
def retireColl (p : Nat) (r : CollReq) (record : List Byte) (s : State) : State :=
  let s1 := ownWrite p (collVa (getPart s p) + 0x5000 + 64 * (r.q % 256)) record s
  writeCtl p (modPart p (fun pt => { pt with collDone := (pt.collDone + 1) % 2 ^ 32, coll := pt.coll.filter (fun x => x.q != r.q) }) s1)

/-- The core bound to a logical core of a partition's kernel. -/
def kernelCore (s : State) (p lc : Nat) : Option Nat := ((getPart s p).kernel).bind (fun k => k.cores[lc]?)

/-! ### The fields of a request (R302, R306) -/

/-- The fields of a request. -/
def cOp (x : Nat) : Nat := fld x 7 0
def cGroup (x : Nat) : Nat := fld x 17 8
def cRoot (x : Nat) : Nat := fld x 47 32
def cSrc (x : Nat) : Nat := fld x 111 64
def cDst (x : Nat) : Nat := fld x 175 128
def cCount (x : Nat) : Nat := fld x 231 192
/-- A reduction. -/
def cReduces (x : Nat) : Bool := cOp x == 1 || cOp x == 2
/-- The element format of a reduction: FP32, BF16, FP16. -/
def cFp (x : Nat) : FpFmt := if fld x 22 18 = 0 then fp32 else if fld x 22 18 = 1 then bf16 else fp16
/-- Bytes of a block. -/
def cBlock (x : Nat) : Nat := if cReduces x then cCount x * (if fld x 22 18 = 0 then 4 else 2) else cCount x

/-- Bytes of the input buffer of the member at rank k among N. -/
def inBytes (x N k : Nat) : Nat :=
  match cOp x with
  | 1 => cBlock x
  | 2 => N * cBlock x
  | 3 => cBlock x
  | 4 => N * cBlock x
  | 5 => if k = cRoot x then cBlock x else 0
  | 7 => 32 * cCount x
  | _ => 0

/-- Bytes of the output buffer. -/
def outBytes (x N : Nat) : Nat :=
  match cOp x with
  | 1 => cBlock x
  | 2 => cBlock x
  | 3 => N * cBlock x
  | 4 => N * cBlock x
  | 5 => cBlock x
  | 7 => if cDst x = 0 then 0 else 8 * cCount x
  | _ => 0

/-- The record fields that R302 does not allow, for a group of N members with this one at rank k. -/
def collBad (x N k : Nat) : Bool :=
  let op := cOp x
  decide (op = 0 ∨ 7 < op) || fld x 511 288 != 0 || fld x 255 232 != 0 || fld x 191 176 != 0 || fld x 127 112 != 0
  || fld x 63 62 != 0 || fld x 31 25 != 0 || cSrc x % 64 != 0 || cDst x % 64 != 0
  || (if cReduces x then fld x 24 23 == 3 || decide (2 < fld x 22 18) else fld x 24 23 != 0 || fld x 22 18 != 0)
  || (if op == 5 || op == 7 then decide (N ≤ cRoot x) else cRoot x != 0) || (op == 6 && cCount x != 0)
  || (op == 5 && k != cRoot x && cSrc x != 0)

/-- HOPS of R309: the largest HOPS field among the members' entries. -/
def maxHops (s : State) (g : Group) : Nat :=
  (((List.range g.members.length).filter (fun r => r != g.rank)).map (fun r => fld (routeOf s (memberIdent g r)).toNat 29 26)).foldl max 0

/-- B of R309 in tenths of a byte per ns: the sustained payload rates of the Up ports (R284). -/
def upRate (s : State) : Nat :=
  ((List.range 18).map (fun p => match (spGet {} s.fab.ports p).st with
    | .up8 => 1900
    | .up6 => 1425
    | .up4 => 950
    | _ => 0)).foldl (· + ·) 0

/-- D of R309: the bytes of the full output vector, in FP32 for reductions. -/
def fullBytes (x N : Nat) : Nat :=
  match cOp x with
  | 1 => 4 * cCount x
  | 2 => N * (4 * cCount x)
  | _ => outBytes x N

/-- The least power of two that reaches N. -/
def log2up (n : Nat) : Nat := if n ≤ 1 then 0 else Nat.log2 (n - 1) + 1

/-- The steps and the bytes times N of the two schedules of an operation that has both (R309): tree, then ring. -/
def schedules (x N : Nat) : (Nat × Nat) × (Nat × Nat) :=
  let d := fullBytes x N
  if cOp x = 1 then ((2 * log2up N, 2 * d * N), (2 * (N - 1), 2 * (N - 1) * d))
  else ((log2up N, d * N), (N - 1, (N - 1) * d))

/-! ### Failure (R305, R310) -/

/-- BYTES_SENT and BYTES_RECEIVED: what was sent and received, where R308 or the table of R306 says who sends what; what a ring sends when
it divides evenly (R309); of the other schedules, which the spec leaves open, free values. -/
def collBytes (r : CollReq) (N : Nat) (s : State) : State × Nat × Nat :=
  let x := r.req.toNat
  let v := (schedules x N).2.2
  if r.started = false then (s, 0, 0)
  else if cOp x = 3 ∨ cOp x = 5 ∨ r.ring = true then
    if r.ring && v % N == 0 && r.owed == 0 then (s, v / N, v / N)
    else ({ s with free := s.free + 2 }, (Config.freeWord s.free).toNat, (Config.freeWord (s.free + 1)).toNat)
  else (s, r.bytesSent, r.bytesGot)

/-- A request fails (R305): its record with the code, and the halt of its logical core, partial; a request that names a core which its kernel
does not hold halts logical core 0 (log entry 129). One whose kernel has halted halts nothing. -/
def collFail (p : Nat) (r : CollReq) (code : Code) (s : State) : State :=
  let x := r.req.toNat
  let g := (groupOf s (cGroup x)).getD {}
  let (s0, sent, received) := collBytes r g.members.length s
  let s1 := retireColl p r (collRecord r code s.ftime (((groupOf s (cGroup x)).map (·.level)).getD 0) sent received r.ev r.bad) s0
  match if r.stale then none else (kernelCore s1 p (fld x 55 48)).orElse (fun _ => kernelCore s1 p 0) with
  | none => s1
  | some n => haltCore n { haltBase s1 n code with
      queue := 2, part := true, ordinal := r.q, slot := r.q % 64, faultVa := slotVa (getPart s1 p) r.q,
      command := BitVec.ofNat 256 (x % 2 ^ 256) } s1

/-- A started request fails, by its number. -/
def failReq (p q : Nat) (code : Code) (s : State) : State :=
  match collReq s p q with
  | none => s
  | some r => collFail p r code s

/-- Every request of a group ends with a code (R310). -/
def failGroup (g : Nat) (code : Code) (s : State) : State :=
  match groupOf s g with
  | none => s
  | some x => ((getPart s x.part).coll.filter (fun r => cGroup r.req.toNat == g)).foldl (fun t r => collFail x.part r code t) s

/-! ### The checks of a request (R302) -/

/-- Input and output overlap, other than ALL_REDUCE in place. -/
def collOverlap (x i o : Nat) : Bool :=
  decide (0 < i ∧ 0 < o ∧ cSrc x < cDst x + o ∧ cDst x < cSrc x + i) && !(cOp x == 1 && cSrc x == cDst x)

/-- The codes of the pages of a buffer. -/
def bufCodes (s : State) (p va len : Nat) (need : Need) : List Code :=
  (lineSpans va len).filterMap (fun sp => xlateCode s p (sp.1 * 64 + sp.2.1) need)

/-- The records of a remote atomic. -/
def atomRecs (l : List Byte) : List Nat := (chunksOf 32 l).map ofLe

/-- The codes of one record of a remote atomic (R306): reserved bits, AOP and DT of 06 R161, and 02 R58's order. -/
def atomRecCodes (ordered : Bool) (r : Nat) : List Code :=
  let aop := fld r 51 48
  when_ (fld r 63 55 != 0 || fld r 255 192 != 0 || (aop != 9 && fld r 191 128 != 0)) 0x3132
  ++ when_ (!atomPair aop (fld r 54 52)) 0x1102 ++ when_ (ordered && decide (10 ≤ aop ∧ aop ≤ 12)) 0x1211

/-- The data of a read, with the numbers of its poisoned lines. -/
def linesOf (l : List PB) : List Byte × List Nat :=
  (pbData l, ((List.range (cdiv l.length 64)).filter (fun i => pbPoison ((l.drop (64 * i)).take 64))))

/-- What a member reads as its input; nothing where it cannot. -/
def readInput (p va n : Nat) (s : State) : State × List Byte × List Nat :=
  match vaRead p va n s with
  | .ok s1 l => let r := linesOf l; (s1, r.1, r.2)
  | .err s1 _ _ => (s1, [], [])

/-- The checks of a request, in R302's order: the record and its logical core (log entry 129), the group, the pages, the path to the members, the atomics. -/
def collCheck (s : State) (p x : Nat) : Option Code :=
  match groupOf s (cGroup x) with
  | none => if collBad x 65536 (cRoot x) then some 0x3132 else some 0x3123
  | some g =>
    let N := g.members.length
    let i := inBytes x N g.rank
    let o := outBytes x N
    let far := ((List.range N).filter (fun r => memberIdent g r != s.fab.ident.toNat)).any (fun r =>
      (cOp x != 7 || r == cRoot x) && !reachable s (memberIdent g r))
    let recs := if cOp x = 7 then (readInput p (cSrc x) i s).2.1 else []
    let at_ := (atomRecs recs).flatMap (atomRecCodes (getPart s p).params.ordered)
    match firstFail [(collBad x N g.rank || collOverlap x i o || (kernelCore s p (fld x 55 48)).isNone, 0x3132), (g.st != .formed || g.part != p, 0x3123)] with
    | some c => some c
    | none => match lowest (bufCodes s p (cSrc x) i { r := true } ++ bufCodes s p (cDst x) o { w := true }) with
      | some c => some c
      | none => match lowest at_ with
        | some c => some c
        | none => if far then some 0x3110 else none

/-- The schedule of a request is a ring: in an unordered group, for the operations that have one, when its bound is the lower (R308,
R309; log entry 69). -/
def ringChosen (s : State) (p x : Nat) (g : Group) : Bool :=
  let N := g.members.length
  let k := schedules x N
  let bound := fun (e : Nat × Nat) => e.1 * (1000 + 500 * maxHops s g) * (9 * upRate s) * N + 100 * e.2
  (cOp x == 1 || cOp x == 2 || cOp x == 3) && !(getPart s p).params.ordered && decide (1 < N) && decide (bound k.2 < bound k.1)

/-- An event of a port, with its flag (R288). -/
def portEvent (code : Code) (p : Nat) (detail : BitVec 256) (s : State) : State := rewriteReport (jnSet p (postD code 4 p detail s))

/-! ### Packets between members (R283, R303, 10 R277) -/

/-- A request that has started, with its group. -/
def reqGroup (s : State) (p q : Nat) : Option (CollReq × Group) :=
  (collReq s p q).bind (fun r => (groupOf s (cGroup r.req.toNat)).map (fun g => (r, g)))

/-- The number of a kind of packet. -/
def collKindNo : CollKind → Nat
  | .enter => 0
  | .data => 1
  | .part => 2
  | .final => 3
  | .ack => 4

/-- A packet whose bytes are written at its receiver, which acknowledges it. -/
def pktWrites (c : CollPkt) : Bool := c.kind == .data || c.kind == .final

/-- A collective packet on the fabric, for rank j of a group. -/
def collPacket (s : State) (g : Group) (r : CollReq) (j : Nat) (c : CollPkt) : Packet :=
  let d := memberIdent g j
  { vc := if c.kind = .ack then 2 else 1, dst := d, src := s.fab.ident.toNat, flow := labelOf "collective" d, what := "collective",
    args := [g.key.toNat, ((g.members[j]?).map (·.2)).getD 0, r.k, g.rank, collKindNo c.kind, r.req.toNat % 2 ^ 256, c.chunk, c.level, c.first, c.ev.toNat],
    off := c.off, data := c.data, poison := c.poison }

/-- A member sends a packet of a request to rank j; with no path the request ends with 0x3110 (R295). What is written there stays owed until it
is acknowledged. -/
def sendColl (p q j : Nat) (c : CollPkt) (s : State) : State :=
  match reqGroup s p q with
  | none => s
  | some (r, g) =>
    if !canSend s (memberIdent g j) then collFail p r 0x3110 s
    else
      let l := splitPacket (collPacket s g r j c)
      l.foldl (fun t k => sendPacket k t) (modReq p q (fun r => { r with
        owed := r.owed + (if pktWrites c then l.length else 0)
        bytesSent := r.bytesSent + c.data.length }) s)

/-- The ranks of a group but one. -/
def otherRanks (N k : Nat) : List Nat := (List.range N).filter (· != k)

/-- A packet sent to several ranks. -/
def sendEach (p q : Nat) (ranks : List Nat) (c : CollPkt) (s : State) : State := ranks.foldl (fun t j => sendColl p q j c t) s

/-- Bytes with the poison of their lines. -/
def withLines (data : List Byte) (bad : List Nat) : List PB := ((List.range data.length).zip data).map (fun e => (e.2, mem (e.1 / 64) bad))

/-- A write that the page checks already allowed; a page unmapped since takes nothing. -/
def collWrite (p va : Nat) (l : List PB) (s : State) : State :=
  match vaWrite p va l s with
  | .ok s1 _ => s1
  | .err s1 _ _ => s1

/-- Bytes of a request's output written, with their poison noted for its record. -/
def putOut (p q va : Nat) (l : List PB) (s : State) : State :=
  modReq p q (fun r => { r with bad := r.bad || pbPoison l }) (collWrite p va l s)

/-! ### Copies (R306): ALL_GATHER, ALL_TO_ALL, BROADCAST -/

/-- Where the block of a rank lies in the output of a data operation. -/
def dataAt (x j : Nat) : Nat := if cOp x = 3 ∨ cOp x = 4 then cDst x + j * cBlock x else cDst x

/-- The next rank of a ring. -/
def nextRank (g : Group) : Nat := (g.rank + 1) % g.members.length

/-- The rank that hands a packet of a BROADCAST on to the others (log entry 69). -/
def relayOf (N off : Nat) : Nat := off / 2048 % N

/-- A member's own block goes into its output, and to the members. -/
def startCopy (p q : Nat) (s : State) : State :=
  match reqGroup s p q with
  | none => s
  | some (r, g) =>
    let x := r.req.toNat
    let N := g.members.length
    let block := fun (j : Nat) => if cOp x = 4 then ((withLines r.mine r.mineBad).drop (j * cBlock x)).take (cBlock x) else withLines r.mine r.mineBad
    let pkt := fun (j : Nat) => let l := linesOf (block j); ({ kind := .data, first := g.rank, data := l.1, poison := l.2 } : CollPkt)
    let s1 := if cOp x = 5 ∧ g.rank ≠ cRoot x then s else putOut p q (dataAt x g.rank) (block g.rank) s
    match cOp x with
    | 3 => sendEach p q (if r.ring then [nextRank g] else otherRanks N g.rank) (pkt 0) s1
    | 4 => (otherRanks N g.rank).foldl (fun t j => sendColl p q j (pkt j) t) s1
    | 5 => if g.rank = cRoot x then (splitPacket (collPacket s g r 0 (pkt 0))).foldl (fun t k =>
          let m := relayOf N k.off
          sendEach p q (if m = g.rank then otherRanks N g.rank else [m]) { pkt 0 with off := k.off, data := k.data, poison := k.poison } t) s1
        else s1
    | _ => s

/-- A packet of a rank's block arrives: it is written, and handed on where this member's part in the schedule is to hand it on. -/
def takeData (p q : Nat) (c : CollPkt) (s : State) : State :=
  match reqGroup s p q with
  | none => s
  | some (r, g) =>
    let x := r.req.toNat
    let N := g.members.length
    if cOp x < 3 ∨ 5 < cOp x ∨ N ≤ c.first ∨ c.first = g.rank ∨ cBlock x < c.off + c.data.length ∨ r.got.any (· == (c.first, c.off)) = true
        ∨ (cOp x = 5 ∧ c.first ≠ cRoot x) then s
    else
      let s1 := putOut p q (dataAt x c.first + c.off) (withLines c.data c.poison)
        (modReq p q (fun r => { r with got := r.got ++ [(c.first, c.off)], bytesGot := r.bytesGot + c.data.length }) s)
      if r.ring then (if nextRank g = c.first then s1 else sendColl p q (nextRank g) c s1)
      else if cOp x = 5 ∧ relayOf N c.off = g.rank then sendEach p q ((otherRanks N g.rank).filter (· != cRoot x)) c s1
      else s1

/-- Every packet of a rank's block has come. -/
def blockCame (r : CollReq) (j : Nat) : Bool :=
  (List.range (cdiv (cBlock r.req.toNat) 2048)).all (fun i => r.got.any (· == (j, 2048 * i)))

/-! ### Reductions (R307, R308) -/

/-- The value of element e of an input as FP32 with its events, and its poison. -/
def collElem (x : Nat) (d : List Byte × List Nat) (e : Nat) : (Nat × Events) × Bool :=
  let w := if fld x 22 18 = 0 then 4 else 2
  let v := (cFp x).decode (numAt d.1 (e * w) w)
  (if w = 4 then (numAt d.1 (e * w) w, readEv v) else toF32 v, mem (e * w / 64) d.2)

/-- The elements of a chunk. -/
def chunkElems : Nat := 32 * Config.collChunk + 32

/-- The pieces of n elements of a list, none empty. -/
def cuts {α : Type} (n : Nat) (l : List α) : List (List α) := (pieces n l.length l).filter (!·.isEmpty)

/-- The blocks of a reduction's vector: one that every member gets, or one for each rank. -/
def blocksOf (x N : Nat) : Nat := if cOp x = 2 then N else 1

/-- The chunks of a reduction's vector, in order: the block, the first element in it, and the elements. -/
def collChunks {α : Type} (x N : Nat) (es : List α) : List (Nat × Nat × List α) :=
  (List.range (blocksOf x N)).flatMap (fun b =>
    let l := cuts chunkElems ((es.drop (b * cCount x)).take (cCount x))
    ((List.range l.length).zip l).map (fun e => (b, chunkElems * e.1, e.2)))

/-- Chunk c of a reduction: its block, its first element, the number of its elements. -/
def chunkAt (x N c : Nat) : Option (Nat × Nat × Nat) :=
  ((collChunks x N (List.range (blocksOf x N * cCount x)))[c]?).map (fun e => (e.1, e.2.1, e.2.2.length))

/-- The rank at which the node over ranks [a, a + 2^j) of chunk c is computed (R308). -/
def nodeRank (N c j a : Nat) : Nat := a + c % min (2 ^ j) (N - a)

/-- The join of RED (R307). -/
def cJoin (x : Nat) : Nat × Events → Nat × Events → Nat × Events :=
  if fld x 24 23 = 0 then joinAdd else if fld x 24 23 = 1 then joinMax else joinMin

/-- Two nodes joined, element by element. -/
def joinNodes (x : Nat) (a b : Node) : Node :=
  let l := List.zipWith (fun u v => cJoin x (u, 0) (v, 0)) a.words b.words
  { words := l.map (·.1), bad := List.zipWith (· || ·) a.bad b.bad, ev := a.ev ||| b.ev ||| orEv (l.map (·.2)) }

/-- The node of a member's own values. -/
def leafNode (l : List ((Nat × Events) × Bool)) : Node :=
  { words := l.map (·.1.1), bad := l.map (·.2), ev := orEv (l.map (·.1.2)) }

/-- A node as it travels, in FP32, with the flags of its data slots. -/
def nodePkt (kind : CollKind) (c j a : Nat) (v : Node) : CollPkt :=
  { kind := kind, chunk := c, level := j, first := a, ev := v.ev, data := v.words.flatMap (fun w => leBytes w 4),
    poison := (List.range (cdiv v.bad.length 16)).filter (fun i => ((v.bad.drop (16 * i)).take 16).any id) }

/-- The node that a transfer brings. -/
def nodeOf (ev : Events) (data : List Byte) (bad : List Nat) : Node :=
  let n := data.length / 4
  { words := (List.range n).map (fun i => numAt data (4 * i) 4), bad := (List.range n).map (fun i => mem (i / 16) bad), ev := ev }

/-- A node that a request holds. -/
def heldNode (r : CollReq) (c j a : Nat) : Option Node :=
  (r.nodes.find? (fun e => e.1 == c && e.2.1 == j && e.2.2.1 == a)).map (·.2.2.2)

/-- A request holds a node. -/
def keepNode (p q c j a : Nat) (v : Node) (s : State) : State := modReq p q (fun r => { r with nodes := r.nodes ++ [(c, j, a, v)] }) s

/-- A chunk of the result is converted once to FMT and written to this member's output (R307). -/
def putFinal (p q c : Nat) (v : Node) (s : State) : State :=
  match reqGroup s p q with
  | none => s
  | some (r, g) =>
    let x := r.req.toNat
    match chunkAt x g.members.length c with
    | none => s
    | some (_, first, _) =>
      let w := if fld x 22 18 = 0 then 4 else 2
      let es := v.words.map (fun u => if w = 4 then (u, 0) else convFp (cFp x) false (f32 u))
      let bad := fun (i : Nat) => ((v.bad.drop (i * (64 / w))).take (64 / w)).any id
      let bytes := es.flatMap (fun e => leBytes e.1 w)
      putOut p q (cDst x + w * first) (((List.range bytes.length).zip bytes).map (fun e => (e.2, bad (e.1 / 64))))
        (modReq p q (fun r => { r with finals := r.finals ++ [c], ev := r.ev ||| v.ev ||| orEv (es.map (·.2)) }) s)

/-- The result of a chunk is at this member: it goes to the members whose output it belongs to; around a ring, from each to the next. -/
def rootResult (p q c : Nat) (v : Node) (s : State) : State :=
  match reqGroup s p q with
  | none => s
  | some (r, g) =>
    let x := r.req.toNat
    let N := g.members.length
    match chunkAt x N c with
    | none => s
    | some (b, _, _) =>
      let own := cOp x = 1 ∨ b = g.rank
      let s1 := if own then putFinal p q c v s else s
      let to_ := if cOp x = 2 then (if b = g.rank then [] else [b]) else if r.ring then [nextRank g] else otherRanks N g.rank
      sendEach p q to_ (nodePkt .final c 0 0 v) s1

/-- The value of node (j, a) of a chunk, h levels below the root, goes to the member that computes the node above it; where that is this member
and both values are there, they are joined and the node above goes on (R308). A node without a second part passes its value up (02 R51). -/
def passUp (p q c : Nat) : Nat → Nat → Nat → Node → State → State
  | 0, _, _, v, s => rootResult p q c v s
  | h + 1, j, a, v, s =>
    match reqGroup s p q with
    | none => s
    | some (r, g) =>
      let N := g.members.length
      let b := a - a % 2 ^ (j + 1)
      let to_ := nodeRank N c (j + 1) b
      if to_ ≠ g.rank then sendColl p q to_ (nodePkt .part c j a v) s
      else
        let held := fun (k : Nat) => if k = a then some v else heldNode r c j k
        let s1 := keepNode p q c j a v s
        if N ≤ b + 2 ^ j then passUp p q c h (j + 1) b v s1
        else match held b, held (b + 2 ^ j) with
          | some l, some rt => passUp p q c h (j + 1) b (joinNodes r.req.toNat l rt) s1
          | _, _ => s1

/-- The rank at which chunk c begins on a ring; that of a block of REDUCE_SCATTER ends at the rank it belongs to. -/
def ringFrom (x N c : Nat) : Nat :=
  if cOp x = 2 then (((chunkAt x N c).map (·.1)).getD 0 + 1) % N else Config.ringStart c % N

/-- The last rank of a chunk's way around the ring. -/
def ringLast (x N c : Nat) : Nat := (ringFrom x N c + N - 1) % N

/-- A member joins its own values to what came around the ring. -/
def ringStep (p q c : Nat) (acc : Option Node) (s : State) : State :=
  match reqGroup s p q with
  | none => s
  | some (r, g) =>
    let x := r.req.toNat
    let N := g.members.length
    match heldNode r c 0 g.rank with
    | none => s
    | some own =>
      let v := match acc with
        | none => own
        | some a => joinNodes x a own
      if g.rank = ringLast x N c then rootResult p q c v s else sendColl p q (nextRank g) (nodePkt .part c 0 g.rank v) s

/-- A reduction begins: every chunk's own values start on their way. -/
def startReduce (p q : Nat) (s : State) : State :=
  match reqGroup s p q with
  | none => s
  | some (r, g) =>
    let x := r.req.toNat
    let N := g.members.length
    let cs := collChunks x N ((List.range (blocksOf x N * cCount x)).map (collElem x (r.mine, r.mineBad)))
    ((List.range cs.length).zip cs).foldl (fun t e =>
      let v := leafNode e.2.2.2
      if r.ring then
        let t1 := keepNode p q e.1 0 g.rank v t
        if ringFrom x N e.1 = g.rank then ringStep p q e.1 none t1 else t1
      else passUp p q e.1 (log2up N) 0 g.rank v t) s

/-- The packets of a transfer, once all of its n bytes have come: its data and the flags of its slots. -/
def wholeOf (l : List CollPkt) (c : CollPkt) (n : Nat) : Option (List Byte × List Nat) :=
  let at_ := fun (i : Nat) => l.find? (fun y => y.kind == c.kind && y.chunk == c.chunk && y.level == c.level && y.first == c.first && y.off == 2048 * i)
  let is_ := List.range (cdiv n 2048)
  if is_.all (fun i => (at_ i).isSome) then
    some ((is_.filterMap at_).flatMap (·.data), is_.flatMap (fun i => ((at_ i).getD c).poison.map (· + 32 * i)))
  else none

/-- A packet of a partial value or of a result arrives; the transfer is used when it is whole. -/
def takeNode (p q : Nat) (c : CollPkt) (s : State) : State :=
  match reqGroup s p q with
  | none => s
  | some (r, g) =>
    let x := r.req.toNat
    let N := g.members.length
    match chunkAt x N c.chunk with
    | none => s
    | some (_, _, n) =>
      let final := c.kind = .final
      if !cReduces x || (if final then r.finals.any (· == c.chunk) else (heldNode r c.chunk c.level c.first).isSome || decide (log2up N ≤ c.level)) then s
      else
        let l := r.rx ++ [c]
        let s1 := modReq p q (fun r => { r with rx := l, bytesGot := r.bytesGot + c.data.length }) s
        match wholeOf l c (4 * n) with
        | none => s1
        | some (data, bad) =>
          let v := nodeOf c.ev data bad
          let s2 := modReq p q (fun r => { r with rx := r.rx.filter (fun y =>
            !(y.kind == c.kind && y.chunk == c.chunk && y.level == c.level && y.first == c.first)) }) s1
          if final then
            let s3 := putFinal p q c.chunk v s2
            if r.ring && cOp x == 1 && nextRank g != ringLast x N c.chunk then sendColl p q (nextRank g) (nodePkt .final c.chunk 0 0 v) s3 else s3
          else if r.ring then ringStep p q c.chunk (some v) (keepNode p q c.chunk c.level c.first v s2)
          else if nodeRank N c.chunk (c.level + 1) (c.first - c.first % 2 ^ (c.level + 1)) = g.rank then
            passUp p q c.chunk (log2up N - c.level) c.level c.first v s2
          else s2

/-! ### Remote atomics (R306, 10 R275, R276) -/

/-- The label of the flow of a record: a hash of its element's address (R294). -/
def pointLabel (rec : Nat) : Nat := labelOf "atomic request" (fld rec 47 0)

/-- The owner's part: translation by the named partition's page table, the checks of 07 R196 and 03 R77, and the atomic; the old value. -/
def performAtomic (p rec : Nat) (bad : Bool) (s : State) : State × Except Code (List PB) :=
  let dt := fld rec 54 52
  let va := fld rec 47 0
  let w := atomBytes dt
  if va % w ≠ 0 then (s, .error 0x2112)
  else match atomWhere s p va with
    | .error c => (s, .error c)
    | .ok d =>
      let (s1, old, _) := atomAt d (fld rec 51 48) dt (pbOf bad (leBytes (fld rec 127 64) w)) (pbOf bad (leBytes (fld rec 191 128) w)) s
      (s1, .ok old)

/-- A point's result is there: its old value written, or the request ended with the owner's code (10 R276). -/
def takeResult (p q idx code : Nat) (old : List PB) (s : State) : State :=
  match collReq s p q with
  | none => s
  | some r =>
    let x := r.req.toNat
    if cOp x ≠ 7 ∨ cCount x ≤ idx ∨ mem idx r.back = true then s
    else if code ≠ 0 then collFail p r code s
    else
      let s1 := modReq p q (fun y => { y with back := y.back ++ [idx] }) s
      if cDst x = 0 then s1 else putOut p q (cDst x + 8 * idx) old s1

/-- The device that owns the elements of a remote atomic, and its partition there. -/
def atomOwner (g : Group) (x : Nat) : Nat × Nat := (g.members[cRoot x]?).getD (0, 0)

/-- The points of the started remote atomics of some partitions that have gone out and not returned: owner, label, port. -/
def openPoints (s : State) : List (Nat × Nat × Nat) :=
  (List.range 16).flatMap (fun p => ((getPart s p).coll.filter (fun r => r.started && cOp r.req.toNat == 7)).flatMap (fun r =>
    let d := (((groupOf s (cGroup r.req.toNat)).map (fun g => atomOwner g r.req.toNat)).getD (0, 0)).1
    let recs := atomRecs r.mine
    (r.sent.filter (fun e => !mem e.1 r.back)).map (fun e => (d, pointLabel ((recs[e.1]?).getD 0), e.2))))

/-- A point of a request that has neither gone out nor returned. -/
def unsentPoint (r : CollReq) (i : Nat) : Bool := !r.sent.any (fun e => e.1 == i) && !mem i r.back

/-- An earlier point of a flow waits: in an earlier request of the partition, or before point i of this one. -/
def earlierWaits (s : State) (p : Nat) (r : CollReq) (i f : Nat) : Bool :=
  let waits := fun (y : CollReq) (n : Nat) => ((List.range n).zip (atomRecs y.mine)).any (fun e => pointLabel e.2 == f && unsentPoint y e.1)
  waits r i || (((getPart s p).coll.takeWhile (fun y => y.q != r.q)).filter (fun y => y.started && cOp y.req.toNat == 7)).any (fun y =>
    waits y (cCount y.req.toNat))

/-- A point goes out: performed here when this device is the owner; else sent on VC1 on its flow's port, held while an earlier packet of the flow
waits or is under way on another port (R294; log entry 94). -/
def sendPoint (p q i : Nat) (s : State) : State :=
  match reqGroup s p q with
  | none => s
  | some (r, g) =>
    let x := r.req.toNat
    let (d, dp) := atomOwner g x
    let point := ((atomRecs r.mine)[i]?).getD 0
    let f := pointLabel point
    let bad := mem (i / 2) r.mineBad
    if cOp x ≠ 7 ∨ unsentPoint r i = false then s
    else if s.fab.assigned && d == s.fab.ident.toNat then
      match performAtomic dp point bad s with
      | (s1, .error c) => takeResult p q i c [] s1
      | (s1, .ok old) => takeResult p q i 0 (old ++ pbOf (pbPoison old) (List.replicate (8 - old.length) 0)) s1
    else match orderedPort s d f with
      | none => s
      | some port =>
        if (openPoints s).any (fun e => e.1 == d && e.2.1 == f && e.2.2 != port) || earlierWaits s p r i f then s
        else
          sendPacket { vc := 1, dst := d, src := s.fab.ident.toNat, flow := f, what := "atomic request", args := [dp, p, q, i],
                       data := leBytes point 32, poison := if bad then [0] else [] }
            (modReq p q (fun y => { y with sent := y.sent ++ [(i, port)], bytesSent := y.bytesSent + 32 }) s)

/-- The points of a request that can go out do, in order. -/
def sendPoints (p q n : Nat) (s : State) : State := (List.range n).foldl (fun t i => sendPoint p q i t) s

/-- Points that waited for their flow go out when they can. -/
def sendWaiting (s : State) : State :=
  (List.range 16).foldl (fun t p => ((getPart t p).coll.filter (fun r => r.started && cOp r.req.toNat == 7)).foldl (fun t r =>
    sendPoints p r.q (cCount r.req.toNat) t) t) s

/-! ### A request's turn (R303, R306) -/

/-- Matched requests agree in OP, FMT, RED, COUNT and ROOT (R303). -/
def collMatch (x y : Nat) : Bool :=
  cOp x == cOp y && fld x 22 18 == fld y 22 18 && fld x 24 23 == fld y 24 23 && cCount x == cCount y && cRoot x == cRoot y

/-- A packet from a member for a started request: a request that does not match ends with 0x3133; data is written and acknowledged. -/
def takePacket (p q rank : Nat) (c : CollPkt) (s : State) : State :=
  match reqGroup s p q with
  | none => s
  | some (r, g) =>
    let answer := fun (t : State) => sendPacket (collPacket s g r rank { kind := .ack, chunk := c.chunk, off := c.off }) t
    if c.kind = .ack then modReq p q (fun r => { r with owed := r.owed - 1 }) s
    else if !collMatch r.req.toNat c.hdr.toNat then collFail p r 0x3133 s
    else match c.kind with
      | .enter => modReq p q (fun r => { r with entered := addOnce rank r.entered }) s
      | .data => answer (takeData p q c s)
      | .final => answer (takeNode p q c s)
      | _ => takeNode p q c s

/-- The packets that came before the turn of a request, and what is left of them. -/
def earlyFor (g k : Nat) (s : State) : List (Nat × CollPkt) :=
  (((groupOf s g).map (·.early)).getD []).filterMap (fun e => if e.1 = k then some e.2 else none)

def dropEarly (g k : Nat) (s : State) : State := modGroup g (fun x => { x with early := x.early.filter (fun e => e.1 != k) }) s

/-- A request's turn comes: its input is read, its entry told to every member, its data sent, and what members sent before is taken. -/
def startColl (p q : Nat) (s : State) : State :=
  match (getPart s p).coll.find? (fun r => r.q == q && !r.started) with
  | none => s
  | some r =>
    let x := r.req.toNat
    match groupOf s (cGroup x) with
    | none => s
    | some g =>
      let N := g.members.length
      let (s1, data, bad) := readInput p (cSrc x) (inBytes x N g.rank) s
      let s2 := modReq p q (fun y => { y with started := true, ring := ringChosen s p x g, tStart := s.ftime, mine := data, mineBad := bad }) s1
      if cOp x = 7 then sendPoints p q (cCount x) s2
      else
        let s3 := sendEach p q (otherRanks N g.rank) { kind := .enter } s2
        let s4 := if cReduces x then startReduce p q s3 else startCopy p q s3
        (earlyFor (cGroup x) r.k s4).foldl (fun t e => takePacket p q e.1 e.2 t) (dropEarly (cGroup x) r.k s4)

/-- A request's turn has come: it is the first of its group, none of which runs; a BARRIER also waits for the writes and atomics that its member
has under way (10 R278). -/
def isTurn (pt : Part) (r : CollReq) : Bool :=
  let mine := pt.coll.filter (fun y => cGroup y.req.toNat == cGroup r.req.toNat && cOp y.req.toNat != 7)
  !r.started && cOp r.req.toNat != 7 && ((mine.head?).map (·.q)) == some r.q
  && (cOp r.req.toNat != 6 || pt.coll.all (fun y => !y.started || cOp y.req.toNat == 6))

/-- The requests of a partition whose turn has come start. -/
def wake (p : Nat) (s : State) : State :=
  (getPart s p).coll.foldl (fun t r => if isTurn (getPart t p) r then startColl p r.q t else t) s

/-- A group goes to Broken: its requests end, and its neighbours are watched no more on its account (R300, R310). -/
def breakGroup (g : Nat) (code : Code) (s : State) : State :=
  match groupOf s g with
  | none => s
  | some x =>
    if x.st = .formed then wake x.part (syncPeers (failGroup g code (modGroup g (fun x => { x with st := .broken, early := [] }) s))) else s

/-- The groups of a partition break (R300). -/
def breakGroupsOf (p : Nat) (s : State) : State :=
  (s.fab.groups.filter (fun e => e.2.part == p)).foldl (fun t e => breakGroup e.1 0x3130 t) s

/-! ### Reading requests (R301 to R303) -/

/-- The next unread request of a partition whose kernel runs: its number and its bits, with the poison of its line. -/
def nextColl (p : Nat) (s : State) : Option (State × Nat × Nat × Bool) :=
  let pt := getPart s p
  if pt.params.collArea.isNone || pt.kernel.isNone || pt.st == .halted then none
  else match vaRead p (collVa pt) 64 s with
    | .err _ _ _ => none
    | .ok s1 ctl =>
      if ofLe ((pbData ctl).take 4) = pt.collHead then none
      else match vaRead p (slotVa pt pt.collHead) 64 s1 with
        | .err _ _ _ => none
        | .ok s2 l => some (s2, pt.collHead, ofLe (pbData l), pbPoison l)

/-- A request that passes its checks is queued: counted in its group, unless it is a remote atomic, which starts at once. -/
def queueColl (p : Nat) (r : CollReq) (s : State) : State :=
  let x := r.req.toNat
  let k := ((groupOf s (cGroup x)).map (·.count)).getD 0
  let add := modPart p (fun pt => { pt with coll := pt.coll ++ [{ r with k := k }] }) s
  if cOp x = 7 then wake p (startColl p r.q add) else wake p (modGroup (cGroup x) (fun g => { g with count := k + 1 }) add)

/-- The scheduler reads the next request when it is one of the row's: HEAD advances, and the request is refused, waits for its
turn, or starts (R301 to R303). A request beyond 256 outstanding ones is not read (0x3134). Reserved operations go with
ALL_REDUCE's row. -/
def collRow (op p : Nat) (s : State) : State :=
  match nextColl p s with
  | none => s
  | some (s1, q, x, poison) =>
    let over256 := decide (256 ≤ (q + 2 ^ 32 - (getPart s p).collDone) % 2 ^ 32)
    let mine := if over256 then op == 1 else cOp x == op || (op == 1 && decide (cOp x = 0 ∨ 7 < cOp x))
    if !mine then s
    else
      let s0 := if over256 then s else s1
      let r : CollReq := { q := q, req := if over256 then 0 else BitVec.ofNat 512 x, tStart := s.ftime }
      let s2 := writeCtl p (modPart p (fun pt => { pt with collHead := (pt.collHead + 1) % 2 ^ 32 }) s0)
      if over256 then collFail p r 0x3134 s2
      else if poison then collFail p r 0x3132 s2
      else match collCheck s2 p x with
        | some c => collFail p r c s2
        | none => queueColl p r s2

/-- A partition number. -/
def onPart (p : Nat) (k : Host.Outcome State Fault Refusal) : Host.Outcome State Fault Refusal := onUnit "partition" p 16 k

def execAllReduce (p : Nat) (s : State) : Host.Outcome State Fault Refusal := onPart p (.next (collRow 1 p s))
def execReduceScatter (p : Nat) (s : State) : Host.Outcome State Fault Refusal := onPart p (.next (collRow 2 p s))
def execAllGather (p : Nat) (s : State) : Host.Outcome State Fault Refusal := onPart p (.next (collRow 3 p s))
def execAllToAll (p : Nat) (s : State) : Host.Outcome State Fault Refusal := onPart p (.next (collRow 4 p s))
def execBroadcast (p : Nat) (s : State) : Host.Outcome State Fault Refusal := onPart p (.next (collRow 5 p s))
def execBarrier (p : Nat) (s : State) : Host.Outcome State Fault Refusal := onPart p (.next (collRow 6 p s))
def execRemoteAtomic (p : Nat) (s : State) : Host.Outcome State Fault Refusal := onPart p (.next (collRow 7 p s))

/-! ### Arrivals and completion (R277, R304) -/

/-- A group number. -/
def onGroup (g : Nat) (k : Host.Outcome State Fault Refusal) : Host.Outcome State Fault Refusal := onUnit "group" g 1024 k

/-- A packet for a group's k-th collective request: taken by the request, kept until its turn comes, or dropped when the request is over. -/
def collArrival (gn k rank : Nat) (c : CollPkt) (s : State) : State :=
  match groupOf s gn with
  | none => s
  | some g =>
    let mine := (getPart s g.part).coll.find? (fun r => cGroup r.req.toNat == gn && cOp r.req.toNat != 7 && r.k == k)
    if !s.fab.assigned || g.st != .formed || decide (g.members.length ≤ rank) || rank == g.rank then s
    else match mine with
      | some r =>
        if r.started then wake g.part (takePacket g.part r.q rank c s)
        else modGroup gn (fun g => { g with early := g.early ++ [(k, rank, c)] }) s
      | none => if g.count ≤ k then modGroup gn (fun g => { g with early := g.early ++ [(k, rank, c)] }) s else s

def execCollectivePacketArrival (gn k rank : Nat) (head : CollHead) (data : List Byte) (poison : List Nat) (s : State) :
    Host.Outcome State Fault Refusal :=
  onGroup gn (.next (collArrival gn k rank { toCollHead := head, data := data, poison := poison } s))

/-- A request has all it needs: every member has entered, what it gets is in its output, and what it sent is acknowledged (10 R277); of a remote
atomic every result has returned. -/
def collReady (r : CollReq) (g : Group) : Bool :=
  let x := r.req.toNat
  let N := g.members.length
  let others := otherRanks N g.rank
  if cOp x = 7 then (List.range (cCount x)).all (fun i => mem i r.back)
  else others.all (fun j => mem j r.entered) && r.owed == 0 &&
    (if cReduces x then ((List.range (collChunks x N (List.range (blocksOf x N * cCount x))).length).filter (fun c =>
        cOp x == 1 || ((chunkAt x N c).map (·.1)) == some g.rank)).all (fun c => mem c r.finals)
      else if cOp x = 5 then g.rank == cRoot x || blockCame r (cRoot x)
      else cOp x == 6 || others.all (blockCame r))

/-- COLLECTIVE_COMPLETE: the record, DONE, the counter of LCORE, and the next requests whose turn has come (R303, R304). -/
def collComplete (p q : Nat) (s : State) : State :=
  match reqGroup s p q with
  | none => s
  | some (r, g) =>
    let x := r.req.toNat
    if !collReady r g then s
    else
      let (s1, sent, received) := collBytes r g.members.length s
      let s2 := retireColl p r (collRecord r 0 s.ftime g.level sent received r.ev r.bad) s1
      let s3 := match if r.stale then none else kernelCore s2 p (fld x 55 48) with
        | none => s2
        | some n => incr n (fld x 61 56) 1 (outsideRec s2 n 0xFF) s2
      wake p s3

def execCollectiveComplete (p q : Nat) (s : State) : Host.Outcome State Fault Refusal := onPart p (.next (collComplete p q s))

/-- REMOTE_ATOMIC_RESULT: a point's result returned; what waited for it on its flow goes out. -/
def atomicResult (p q idx code : Nat) (old : BitVec 64) (poison : Bool) (s : State) : State :=
  match collReq s p q with
  | none => s
  | some r =>
    if r.sent.any (fun e => e.1 == idx) then
      wake p (sendWaiting (takeResult p q idx (code % 2 ^ 16) (pbOf poison (leBytes old.toNat 8))
        (modReq p q (fun y => { y with bytesGot := y.bytesGot + 8 }) s)))
    else s

def execRemoteAtomicResult (p q idx code : Nat) (back : AtomOld) (s : State) : Host.Outcome State Fault Refusal :=
  onPart p (.next (atomicResult p q idx code back.old back.poison s))

/-- REMOTE_ATOMIC_ARRIVAL: the owner's part, and the result back on VC2 in the flow of the request (10 R275, R276). -/
def atomicArrival (src flow p tag rec : Nat) (bad : Bool) (s : State) : State :=
  let back := fun (code : Code) (old : List PB) (t : State) =>
    sendPacket { vc := 2, dst := src, src := t.fab.ident.toNat, flow := flow, what := "atomic result", args := [tag, code],
                 data := padTo 8 (pbData old), poison := if pbPoison old then [0] else [] } t
  if s.fab.assigned = false then s
  else match performAtomic p rec bad s with
    | (s1, .error c) => back c [] s1
    | (s1, .ok old) => back 0 old s1

def execRemoteAtomicArrival (src flow p : Nat) (ask : AtomAsk) (s : State) : Host.Outcome State Fault Refusal :=
  onPart p (.next (atomicArrival src flow p ask.tag ask.record.toNat ask.poison s))

/-- NACK: a transit device could not forward; the request that sent the packet ends with 0x3110 (R295). -/
def execNack (p q : Nat) (s : State) : Host.Outcome State Fault Refusal :=
  onPart p (.next (sendWaiting (wake p (failReq p q 0x3110 s))))

/-! ### Formation (R299, R300) -/

/-- A formation ends: its operation with its code; unless it is Formed the group is gone. -/
def endForm (g : Nat) (code : Code) (s : State) : State :=
  match groupOf s g with
  | none => s
  | some x =>
    let s1 := if code = 0 then s else dropGroup g s
    (s1.sb.ops.filter (fun o => o.op == x.op && o.opcode == 0x0907)).foldl (fun t o => opDone o code 0 t) s1

/-- This device's formation record for a group, to the members at some ranks: its key and list, the Ordered Reduction Mode of its partition and
the levels it advertises, a refusal, or an answer to the member's own record. -/
def sendRecord (x : Group) (ranks : List Nat) (levels : Nat) (refuse answer : Bool) (s : State) : State :=
  (ranks.filter (· != x.rank)).foldl (fun t r =>
    sendTo 0 "formation" (memberIdent x r) [x.key.toNat, ((x.members[r]?).map (·.2)).getD 0, x.rank, b2n (getPart s x.part).params.ordered, levels,
      b2n refuse, b2n answer] (x.members.flatMap (fun m => leBytes m.1 2 ++ leBytes m.2 2)) [] t) s

/-- The contract levels that the running image advertises (06 R177, R287). -/
def ownLevels (s : State) : Nat := (runningImage s).levels.toNat % 2 ^ 16

/-- A formation record to every other member. -/
def tellMembers (x : Group) (refuse : Bool) (s : State) : State := sendRecord x (List.range x.members.length) (ownLevels s) refuse false s

/-- A partition's Ordered Reduction Mode has changed: its Formed groups break, a group that forms is refused with 0x3120, and the members learn the new
mode (R300, 02 R56). -/
def modeChanged (p : Nat) (s : State) : State :=
  (s.fab.groups.filter (fun e => e.2.part == p && e.2.complete && e.2.st != .broken)).foldl (fun t e =>
    tellMembers e.2 false (if e.2.st = .formed then breakGroup e.1 0x3130 t else endForm e.1 0x3120 t)) s

end Sys2Proof.Machine
end

