-- ==== Sys2Proof/Machine/Steps.lean ====
section
/-!
DEFINITION. The Dispatcher's steps (09 R250 to R262, 08 R212 to R230): building and launching, the Timetable, the end of a kernel, the
Points' decisions, drafts, failures, aborts, and the mirroring of token logs as far as steps bring it about (13 R342, R347).
-/

namespace Sys2Proof.Machine

/-! ### Mirroring (13 R347) -/

/-- The log entries from a position on, and the entry, sent on VC3 to the partition's buddy for a mirrored session, when a path leads to it. -/
def mirrorSend (n : Nat) (s : State) : State :=
  let x := getSess s n
  match (getPart s x.part).buddy with
  | some b =>
    if x.mirror && canSend s b then
      sendTo 3 "mirror" b [x.part, n, (((getPart s x.part).model.map Model.modelId).getD 0).toNat, x.mirSent]
        (leBytes x.toNat 256 ++ (x.log.drop x.mirSent).flatMap (fun e => leBytes e 4)) [] (modSess n (fun x => { x with mirSent := x.log.length }) s)
    else s
  | none => s

/-- The draft session's log follows its target's, as far as its capacity goes (R236, R260), and its own mirror (13 R347). -/
def logFollows (n : Nat) (s : State) : State :=
  match draftOf s n with
  | some d =>
    if (getSess s d).opened then s else mirrorSend d (modSess d (fun y => { y with log := (getSess s n).log.take y.logCap }) s)
  | none => s

/-- A log entry (R236): source 0 input, 1 sampled, 2 accepted draft. -/
def logEntry (tok source : Nat) : Nat := tok % 2 ^ 18 + put source 18

/-- A session's log and entry as they are now go to its draft session and to its buddy (R260; 13 R347). -/
def logSent (n : Nat) (s : State) : State := logFollows n (mirrorSend n s)

/-! ### What a session needs (R250) -/

/-- The committed tokens to rebuild. -/
def rebuildRows (x : Sess) : Nat := x.committed - x.keep

/-- The pending token opens the PREFILL as its first row. -/
def leadRow (x : Sess) : Bool := x.pend.isSome && (!x.work.inputs.isEmpty || !x.work.generate) && x.work.forTarget.isNone

/-- The session's own rows still to prefill; for a draft session the rows queued by its target whose tokens stand in its log. -/
def ownRows (s : State) (x : Sess) : Nat :=
  match x.work.forTarget with
  | some t => min (getSess s t).committed x.log.length - x.committed
  | none => x.work.inputs.length + b2n (leadRow x)

/-- The tree of a target is complete. -/
def treeReady (x : Sess) : Bool := decide (x.tree.length = x.specNodes) && 2 ≤ x.specNodes && x.tree.all (· != noTok)

/-- A target waits for the tree that its draft session builds. -/
def treeWanted (x : Sess) : Bool := x.opened && !x.work.ending && !x.tree.isEmpty && !treeReady x

/-- The session goes on with its pending token: nothing to rebuild, no input left. A draft session goes on with its target's tree. -/
def decodes (s : State) (x : Sess) : Bool :=
  rebuildRows x == 0 && ownRows s x == 0 && match x.work.forTarget with
    | some t => treeWanted (getSess s t)
    | none => x.work.generate && x.pend.isSome

/-- A target that wants a tree: it would decode, and it speculates. -/
def wantsTree (s : State) (x : Sess) : Bool :=
  x.opened && !x.work.ending && decide (2 ≤ x.specNodes) && !x.skipSpec && decodes s x && x.tree.isEmpty

/-- The draft session can supply a tree: it exists, is not Faulted, has no request of its own, its partition is Serving, and its log
holds its target's (R260). -/
def draftServes (s : State) (n : Nat) : Option Nat :=
  match draftOf s n with
  | some d =>
    let y := getSess s d
    if y.st ≠ .faulted ∧ (getPart s y.part).st = .serving ∧ y.opened = false ∧ (getSess s n).log.length ≤ y.logCap then some d else none
  | none => none

/-- The verification tree fits the model's context. -/
def treeFits (s : State) (x : Sess) : Bool :=
  match geomOf (getPart s x.part) with
  | some g => decide (x.committed + x.specNodes ≤ g.maxCtx)
  | none => true

/-- A draft session is queued with its target's pending token as node 0 (R260, step 2). -/
def queueDraft (n d : Nat) (s : State) : State :=
  followTarget n d (modSess d (fun y => { y with treeDepth := 0 })
    (modSess n (fun x => { x with dists := [], tree := (x.pend.getD 0) :: List.replicate (x.specNodes - 1) noTok }) s))

/-- The draft sessions of a partition whose targets want a tree are queued; one that a step holds, or whose target's step runs, later. -/
def queueDrafts (p : Nat) (s : State) : State :=
  (s.sess.map (·.1)).foldl (fun t n =>
    if wantsTree t (getSess t n) && treeFits t (getSess t n) && !inStep t n then match draftServes t n with
      | some d => if (getSess t d).part = p ∧ (getSess t d).work.busy = false then queueDraft n d t else t
      | none => t
    else t) s

/-- A draft session works for its target: they are linked, it has no request of its own, and its partition is Serving. -/
def draftAtWork (s : State) (p n : Nat) : Bool :=
  let x := getSess s n
  match x.work.forTarget with
  | some t => !x.opened && x.st != .faulted && draftOf s t == some n && (getPart s p).st == .serving
  | none => false

/-- A session with an open request may be placed in a step: no posting of it held, its completion ring with room. -/
def requestReady (s : State) (n : Nat) : Bool :=
  let x := getSess s n
  let r := getRing s x.compRing
  x.opened && !x.work.ending && x.held.isEmpty && x.mirRows == 0 && r.takes && r.backlog.isEmpty

/-- The session may be placed in a step and has rows. -/
def hasWork (s : State) (p n : Nat) : Bool :=
  let x := getSess s n
  x.part == p && !x.work.busy && (requestReady s n || draftAtWork s p n)
  && (decide (0 < rebuildRows x) || decide (0 < ownRows s x) || decodes s x)

/-- The deadline that orders a session: its request's, or for a draft session its target's. -/
def deadlineOf (s : State) (n : Nat) : Nat :=
  match (getSess s n).work.forTarget with
  | some t => (getSess s t).deadline
  | none => (getSess s n).deadline

/-- The candidates of a step: ascending deadline, then number. -/
def candidates (s : State) (p : Nat) : List Nat :=
  sortBy (fun a b => decide (deadlineOf s a < deadlineOf s b ∨ (deadlineOf s a = deadlineOf s b ∧ a ≤ b)))
    ((s.sess.map (·.1)).filter (hasWork s p))

/-! ### Building a step (R250) -/

/-- What building has placed so far. -/
structure Build where
  rows : Nat := 0
  pre : Nat := 0
  dec : Nat := 0
  entries : List Entry := []
deriving DecidableEq, Repr

/-- A session's charge (R249). -/
def charge (n rows w : Nat) (s : State) : State := modTen (getSess s n).tenant (fun t => { t with bal := t.bal - (rows * w : Nat) }) s

/-- A session's rows are placed: a step holds a draft session, whose state stays (log entry 66); with its own rows an open request
goes to Prefill with inputs, to Decode without (R235). -/
def beginRows (own : Bool) (n : Nat) (s : State) : State :=
  modSess n (fun x =>
    if x.work.forTarget.isSome then { x with work := { x.work with busy := true } }
    else if own then { x with st := if x.work.inputs.isEmpty then .decode else .prefill } else x) s

/-- A session cannot be placed: its request ends, or its target goes on without it. -/
def cannotPlace (n : Nat) (code : Code) (reason : Nat) (retry : Bool) (s : State) : State :=
  if (getSess s n).opened then endReq n code reason retry s else draftFails n s

/-- Pages for the rows, or the end of the request: past MAXCTX with 0x4131, without pages with 0x4210 (R229, R236). -/
def pagesFor (p n endPos : Nat) (s : State) : State × Bool :=
  let over_ := match geomOf (getPart s p) with
    | some g => decide (g.maxCtx < endPos)
    | none => false
  if over_ then (cannotPlace n 0x4131 5 false s, false)
  else match allocFor p n endPos s with
    | (s1, true) => (s1, true)
    | (s1, false) => (cannotPlace n 0x4210 6 true s1, false)

/-- A decode or verify entry placed for a session: `nodes` of its tree, one for a decode. -/
def placeNodes (p n : Nat) (nodes : List Nat) (masks : List Nat) (b : Build) (s : State) : State × Build :=
  let x := getSess s n
  let pr := (getPart s p).params
  let k := nodes.length
  if pr.stepRows < b.rows + k ∨ 65535 < b.dec + k then (s, b)
  else
    let (s1, ok) := pagesFor p n (x.committed + k + x.nacc) s
    if !ok then (s1, b)
    else
      let e : Entry := { sess := n, kind := if k = 1 then .decode else .verify, rows := k, ctx := x.committed, nodes := k,
                         deadline := deadlineOf s n, nacc := x.nacc, path := x.path, masks := if k = 1 then [] else masks, tree := nodes,
                         draftFor := x.work.forTarget }
      (beginRows true n (charge n k pr.wDec s1), { b with rows := b.rows + k, dec := b.dec + k, entries := b.entries ++ [e] })

/-- REBUILD and PREFILL entries placed for a session. -/
def placePre (p n : Nat) (b : Build) (s : State) : State × Build :=
  let x := getSess s n
  let pr := (getPart s p).params
  let R := rebuildRows x
  let F := ownRows s x
  let want := R + F
  let k := min (min want pr.chunk) (min (pr.stepPrefill - b.pre) (pr.stepRows - b.rows))
  if k < min want 32 ∨ k = 0 then (s, b)
  else
    let r := min k R
    let f := k - r
    let endPos := if f = 0 then x.keep + r else x.committed + f
    let (s1, ok) := pagesFor p n (endPos + x.nacc) s
    if !ok then (s1, b)
    else
      let bkt := (endPos - 1) / 512
      let lead := leadRow x
      let reb : Entry := { sess := n, kind := .rebuild, rows := r, ctx := x.keep, bucket := bkt, deadline := deadlineOf s n,
                           nacc := x.nacc, path := x.path, draftFor := x.work.forTarget }
      let pre : Entry := { sess := n, kind := .prefill, rows := f, ctx := x.committed, bucket := bkt, deadline := deadlineOf s n,
                           draftFor := x.work.forTarget, last := f == F && x.work.generate && x.work.forTarget.isNone, inputs := x.work.inputs.take (f - b2n lead),
                           pendingFirst := lead, nacc := if r = 0 then x.nacc else 0, path := if r = 0 then x.path else [] }
      let es := (if r = 0 then [] else [reb]) ++ (if f = 0 then [] else [pre])
      (beginRows (f != 0) n (charge n k pr.wPre s1), { b with rows := b.rows + k, pre := b.pre + k, entries := b.entries ++ es })

/-- The nodes a draft session feeds next: those of its target's tree up to its depth (R260, step 3). -/
def draftNodes (s : State) (x : Sess) : List Nat := nodesTo (getSess s (x.work.forTarget.getD 0)) x.treeDepth

/-- One candidate considered (R250). A target whose draft can still supply its tree waits for it. -/
def considerOne (p n : Nat) (acc : State × Build) : State × Build :=
  let s := acc.1
  let b := acc.2
  let x := getSess s n
  let e := if 0 < rebuildRows x ∧ 0 < ownRows s x then 2 else 1
  if !hasWork s p n || decide ((getTen s x.tenant).bal ≤ 0) || decide (4096 < b.entries.length + e) then acc
  else if decodes s x then
    match x.work.forTarget with
    | some t =>
      let ns := draftNodes s x
      placeNodes p n ns (ns.map (maskFor (getSess s t) ns)) b s
    | none =>
      if x.specNodes < 2 then placeNodes p n [0] [] b s
      else if treeReady x && treeFits s x then
        let ns := List.range x.specNodes
        placeNodes p n ns (ns.map (maskFor x ns)) b s
      else if !x.skipSpec && treeFits s x && (draftServes s n).isSome then acc
      else placeNodes p n [0] [] b (modSess n (fun y => { y with tree := [], dists := [] }) s)
  else placePre p n b s

/-- The order of R217: DECODE, VERIFY, then PREFILL and REBUILD by bucket; ascending deadline, then session; a REBUILD before its
PREFILL. -/
def entryLe (a b : Entry) : Bool :=
  let key := fun (e : Entry) => match e.kind with
    | .decode => (0, 0, e.deadline, e.sess, 0)
    | .verify => (1, 0, e.deadline, e.sess, 0)
    | .rebuild => (2, e.bucket, e.deadline, e.sess, 0)
    | .prefill => (2, e.bucket, e.deadline, e.sess, 1)
  let x := key a
  let y := key b
  decide (x.1 < y.1 ∨ (x.1 = y.1 ∧ (x.2.1 < y.2.1 ∨ (x.2.1 = y.2.1 ∧ (x.2.2.1 < y.2.2.1 ∨ (x.2.2.1 = y.2.2.1 ∧
    (x.2.2.2.1 < y.2.2.2.1 ∨ (x.2.2.2.1 = y.2.2.2.1 ∧ x.2.2.2.2 ≤ y.2.2.2.2))))))))

/-- Entries with ROW_FIRST, each after the rows before it. -/
def withRows : Nat → List Entry → List Entry
  | _, [] => []
  | r, e :: t => { e with rowFirst := r } :: withRows (r + e.rows) t

/-! ### The Timetable (R214 to R217) -/

/-- The code of an entry's KIND. -/
def EntKind.code : EntKind → Nat
  | .decode => 0
  | .verify => 1
  | .prefill => 2
  | .rebuild => 3

/-- A 64-byte entry (R216). -/
def entryBytes (s : State) (e : Entry) : List Byte :=
  let x := getSess s e.sess
  let listed := fun (w : Nat) (l : List Nat) => ((List.range l.length).zip l).foldl (fun a i => a + put i.2 (w * i.1)) 0
  leBytes (put (listed 16 e.masks) 256 + put x.tenant 240 + put x.dirVa 192 + put (listed 4 e.path) 148 + put e.nacc 144
    + put e.bucket 128 + put e.rowFirst 96 + put e.rows 64 + put e.ctx 32 + put e.nodes 20 + put (b2n e.last) 19 + put e.kind.code 16
    + e.sess) 64

/-- The rows of the entries of a kind, and their number. -/
def kindCount (k : EntKind) (es : List Entry) : Nat := (es.filter (fun e => e.kind == k)).length
def rowsOf (es : List Entry) : Nat := (es.map (·.rows)).foldl (· + ·) 0

/-- The bucket table: bucket, index of its first entry, number of its entries, ascending. -/
def bucketRecs (es : List Entry) : List (Nat × Nat × Nat) :=
  let ix := ((List.range es.length).zip es).filter (fun e => e.2.kind == .prefill || e.2.kind == .rebuild)
  (dedup (ix.map (fun e => e.2.bucket))).map (fun b =>
    let mine := ix.filter (fun e => e.2.bucket == b)
    (b, (mine.head?.map (·.1)).getD 0, mine.length))

/-- The 64-byte header (R215). -/
def timetableHeader (p step now half : Nat) (es : List Entry) : List Byte :=
  let bs := bucketRecs es
  let B := rowsOf (es.filter (fun e => e.kind == .decode || e.kind == .verify))
  leBytes (put now 448 + put (rowsOf es) 416 + put B 400 + put bs.length 384 + put (kindCount .rebuild es) 368
    + put (kindCount .prefill es) 352 + put (kindCount .verify es) 336 + put (kindCount .decode es) 320 + put es.length 304
    + put (half + 0x40) 256 + put (if bs.isEmpty then 0 else half + 0x40040) 208 + put step 128 + put p 16 + 1) 64

/-- The Timetable of a step written into the half of its number, through the Dispatcher's own path. -/
def writeTimetable (p step : Nat) (es : List Entry) (s : State) : State × List Byte :=
  let base := (((getPart s p).params.ttArea).map (·.va)).getD 0
  let half := base + (step % 2) * 0x50000
  let hdr := timetableHeader p step s.ftime half es
  let s1 := ownWrite p half (hdr ++ es.flatMap (entryBytes s)) s
  (ownWrite p (half + 0x40040) ((bucketRecs es).flatMap (fun b => leBytes b.1 2 ++ leBytes b.2.1 2 ++ leBytes b.2.2 2 ++ [0, 0])) s1, hdr)

/-- The image in use. -/
def imageOf (pt : Part) : Option Image := pt.model.bind (fun m => m.images[pt.imageUse]?)

/-- Steps are launched: Serving, or Draining in WAIT; no step or kernel runs, no repair
waits and no unmap (R246, R247, 12 R339, 07 R198). -/
def canLaunch (s : State) (p : Nat) : Bool :=
  let pt := getPart s p
  s.boot.phase == .ready && (pt.st == .serving || (pt.st == .draining && !pt.drainCut)) && pt.step.isNone && pt.kernel.isNone
    && pt.repair.isEmpty && pt.reload.isEmpty && !pt.unmapping && (imageOf pt).isSome

/-! ### The end of a step -/

/-- The Points sample the entry. -/
def sampled (e : Entry) : Bool := e.kind == .decode || e.kind == .verify || e.last

/-- A step record kept: the last 256 (R252). -/
def addStepRec (r : StepRec) (pt : Part) : Part := { pt with stepRecs := lastN 256 (pt.stepRecs ++ [r]) }

/-- The conversion events of a step as its sessions' entries carry them (R242): ORed over all engines, none for other sessions. -/
def eventsFor (es : List Entry) (ev : List (BitVec 5)) (n : Nat) : Events := if es.any (fun e => e.sess == n) then orEv ev else 0

/-- Requests whose CANCEL waited for the end of the step end (R241). -/
def doCancels (ev : Nat → Events) (p : Nat) (s : State) : State :=
  (openOf s p).foldl (fun t n => if (getSess t n).work.cancel then endReqEv (ev n) n 0x0420 4 false t else t) s

/-- A draft session that the ended step held: Idle, or Sided while pages are missing (log entry 66). -/
def settleDraft (x : Sess) : Sess :=
  { x with work := { x.work with busy := false },
           st := if x.opened ∨ x.st = .faulted ∨ x.st = .free then x.st else if x.keep < x.committed then .sided else .idle }

/-- The draft sessions of a step's entries are let go. -/
def settleDrafts (es : List Entry) (s : State) : State :=
  (dedup ((es.filter (fun e => e.draftFor.isSome)).map (·.sess))).foldl (fun t n => modSess n settleDraft t) s

/-- Every open request of a partition ends with a retry (R247, R253). -/
def retryAll (p : Nat) (code : Code) (s : State) : State := (openOf s p).foldl (fun t n => retryReq n code t) s

/-- The step is over: its record, the CANCELs, the sessions whose pages are lost, and in CUT mode the open requests (R247). -/
def finishStep (p : Nat) (s : State) : State :=
  match (getPart s p).step with
  | none => s
  | some st =>
    let r : StepRec := { no := st.no, events := st.events, poison := st.poison, rows := rowsOf st.entries, posted := st.posted,
                         tLaunch := st.tLaunch, tEnd := st.tEnd }
    let ev := eventsFor st.entries st.events
    let s1 := settleDrafts st.entries (modPart p (fun pt => addStepRec r { pt with step := none }) s)
    let s2 := loseSessionsEv ev p (doCancels ev p s1)
    if (getPart s2 p).drainCut then (openOf s2 p).foldl (fun t n => retryReqEv (ev n) n 0x4120 t) s2 else s2

/-- The step fails: no row of it counts, its sessions get a retry with the code (R253), the targets of its draft sessions go on without
them (R260). Its events and poison are those its kernel ended with, or those of the cores so far (R252). -/
def failStep (p : Nat) (code : Code) (s : State) : State :=
  match (getPart s p).step with
  | none => s
  | some st =>
    let ks := (getPart s p).kernel.map (·.cores)
    let evs := if st.ended then st.events
      else (List.range 4).map (fun q => orEv (((ks.getD []).map (fun n => (getEng (getCore s n) q).events))))
    let pos := if st.ended then st.poison
      else (List.range 4).map (fun q => (ks.getD []).any (fun n => (getEng (getCore s n) q).poison))
    let r : StepRec := { no := st.no, code := code, events := evs, poison := pos, rows := rowsOf st.entries, posted := st.posted,
                         tLaunch := st.tLaunch, tEnd := s.ftime }
    let ev := eventsFor st.entries evs
    let s1 := settleDrafts st.entries (modPart p (fun pt => addStepRec r { pt with step := none }) s)
    let s2 := st.entries.foldl (fun t e =>
      if e.draftFor.isSome then draftFails e.sess t else retryReqEv (ev e.sess) e.sess code t) s1
    loseSessionsEv ev p (doCancels ev p s2)

/-! ### Launching a step (R250, R251) -/

/-- Poison in the working state of a partition's steps fails the step that it touches with retries; the Dispatcher then writes that
state anew (12 R337; log entry 128). -/
def workFails (p : Nat) (s : State) : State := rewriteReserve (inWork p) (failStep p 0x4120 s)

/-- The step built is launched with its Timetable. -/
def launchStep (p : Nat) (es : List Entry) (s : State) : State :=
  let no := (getPart s p).stepNo
  let (s1, hdr) := writeTimetable p no es s
  match imageOf (getPart s1 p) with
  | none => s1
  | some img =>
    let s2 := modPart p (fun pt => { pt with stepNo := no + 1, step := some { no := no, entries := es, tLaunch := s.ftime } }) s1
    if workSick s2 p then workFails p s2 else launchKernel p img hdr false 0 0xFF s2

/-- STEP_LAUNCH. -/
def stepLaunch (p : Nat) (s : State) : State :=
  if !canLaunch s p then s
  else
    let s0 := queueDrafts p (readForStep p s)
    let (s1, b) := (candidates s0 p).foldl (fun acc n => considerOne p n acc) (s0, {})
    if b.entries.isEmpty then s1 else launchStep p (withRows 0 (sortBy entryLe b.entries)) s1

def execStepLaunch (p : Nat) (s : State) : Host.Outcome State Fault Refusal := onPart p (.next (stepLaunch p s))

/-! ### The end of a kernel (R251) -/

/-- Rows committed in a session: KEEP follows where it was level (08 R210). -/
def commitRows (k : Nat) (x : Sess) : Sess :=
  { x with committed := x.committed + k, keep := if x.keep = x.committed then x.keep + k else x.keep }

/-- The input rows of a mirrored session are committed once the buddy has their log entries (13 R347). -/
def commitInputs (n k : Nat) (s : State) : State :=
  modSess n (fun x => if x.mirror && x.mirLive && decide (x.mirAcked < x.log.length) then { x with mirRows := x.mirRows + k } else commitRows k x) s

/-- NACC and PATH stood until the step that carries them commits (08 R224). -/
def pathDone (e : Entry) (x : Sess) : Sess := if e.nacc = 0 then x else { x with nacc := 0, path := [] }

/-- What the end of the kernel commits for an entry of a draft session that its step still holds (R260; 08 R228): rebuilt rows and
prefilled rows; fed nodes follow their target. -/
def commitDraft (p : Nat) (s : State) (e : Entry) : State :=
  let n := e.sess
  if !(getSess s n).work.busy then s
  else modSessDir p n (fun x =>
    let y := pathDone e x
    match e.kind with
    | .rebuild => { y with keep := y.keep + e.rows }
    | .prefill => commitRows e.rows y
    | .verify => y
    | .decode => y) s

/-- A session's inputs of the entry enter its log, and its rows are committed (R236, R251). -/
def commitPrefill (p n : Nat) (e : Entry) (s : State) : State :=
  let t1 := modSess n (fun x => { x with pend := if e.pendingFirst then none else x.pend,
                                         work := { x.work with inputs := x.work.inputs.drop e.inputs.length } }) s
  let new := if takesFeatures (getPart s p) then [] else e.inputs.map (fun tok => logEntry tok 0)
  let t2 := commitInputs n e.rows (modSess n (fun x => { x with log := x.log ++ new }) t1)
  let t3 := modSess n (fun x =>
    if x.st = .prefill ∧ x.work.inputs.isEmpty = true ∧ x.work.generate = true then { x with st := .decode } else x) t2
  if new.isEmpty then t3 else logSent n t3

/-- What the end of the kernel commits for one entry (R236, R251; 08 R224, R228); a TURN that only absorbs ends with its last
inputs (R258), with the step's events. -/
def commitEntry (ev : Events) (p : Nat) (s : State) (e : Entry) : State :=
  let n := e.sess
  let old := getSess s n
  if e.draftFor.isSome then commitDraft p s e
  else
    let s0 := modSess n (pathDone e) s
    let s1 := match e.kind with
      | .rebuild => modSess n (fun x => { x with keep := x.keep + e.rows, work := { x.work with rebuilt := x.work.rebuilt + e.rows } }) s0
      | .verify => s0
      | .decode => modSess n (fun x => { commitRows 1 x with pend := none, tree := [], dists := [] }) s0
      | .prefill => commitPrefill p n e s0
    let s2 := syncDir p n old s1
    let x := getSess s2 n
    if e.kind = .prefill ∧ x.work.generate = false ∧ x.work.inputs.isEmpty ∧ x.pend.isNone then endReqEv ev n 0 3 false s2 else s2

/-- Every core of a kernel has reached END with empty queues. -/
def kernelDone (s : State) (k : Kernel) : Bool := k.cores.all (fun n => (getCore s n).mode == .ended && enginesIdle (getCore s n))

/-- A long operation of a partition with an opcode ends. -/
def endOps (p opcode : Nat) (code : Code) (s : State) : State :=
  (s.sb.ops.filter (fun o => o.part == some p && o.opcode == opcode)).foldl (fun t o => opDone o code 0 t) s

/-- KERNEL_END (10 R268): every core's part, every SCU command and every collective request that it issued has ended, read or not. The step's rows are committed
and the Points' turn comes; a diagnostic kernel ends its operation (14 R386). -/
def kernelEnd (p : Nat) (s : State) : State :=
  let pt := getPart s p
  match pt.kernel with
  | none => s
  | some k =>
    if k.halting.isSome || !kernelDone s k || scuBusy s p || pt.coll.any (fun r => !r.stale) || (nextColl p s).isSome then s
    else
      let ev := (List.range 4).map (fun q => orEv (k.cores.map (fun n => (getEng (getCore s n) q).events)))
      let po := (List.range 4).map (fun q => k.cores.any (fun n => (getEng (getCore s n) q).poison))
      let s1 := k.cores.foldl (fun t n => modCore n (fun c => { c with mode := .idle }) t) (modPart p (fun x => { x with kernel := none }) s)
      if k.diag then endOps p 0x0A01 0 s1
      else match pt.step with
        | none => s1
        | some st =>
          let s2 := st.entries.foldl (commitEntry (orEv ev) p)
            (modPart p (fun x => { x with step := some { st with ended := true, tEnd := s.ftime, events := ev, poison := po } }) s1)
          if st.entries.any sampled then s2 else finishStep p s2

def execKernelEnd (p : Nat) (s : State) : Host.Outcome State Fault Refusal := onPart p (.next (kernelEnd p s))

/-! ### The Points (R254 to R262) -/

/-- A row of logits as whole lines: its values, and whether a line was poisoned or not mapped with R (R254). -/
def readRow (p va vocab : Nat) (s : State) : State × List Nat × Bool × Bool :=
  let (s1, l, bad) := (List.range (cdiv (4 * vocab) 64)).foldl (fun (t : State × List PB × Bool) i =>
    match vaRead p (va + 64 * i) 64 t.1 with
    | .ok s1 x => (s1, t.2.1 ++ x, t.2.2)
    | .err s1 _ _ => (s1, t.2.1, true)) (s, [], false)
  (s1, (List.range vocab).map (fun i => numAt (pbData l) (4 * i) 4), pbPoison l, bad)

/-- n rows from a row index on. -/
def readRows (p row n : Nat) (s : State) : State × List (List Nat) × Bool × Bool :=
  let pt := getPart s p
  let base := pt.params.logits.getD 0
  let pitch := pt.params.lpitch.getD 0
  (List.range n).foldl (fun (t : State × List (List Nat) × Bool × Bool) i =>
    let (s1, z, po, un) := readRow p (base + (row + i) * pitch) (vocabOf pt) t.1
    (s1, t.2.1 ++ [z], t.2.2.1 || po, t.2.2.2 || un)) (s, [], false, false)

/-- The end that a posted token brings, if any (R236, R258): the token, GEN_COUNT with it, the log's length with it, and the committed
tokens then. -/
def endsWith (pt : Part) (x : Sess) (tok gen len ctx : Nat) : Option (Nat × Code) :=
  if x.stops.any (fun t => t.toNat == tok) then some (1, 0)
  else if x.maxNew ≤ gen then some (2, 0)
  else if x.logCap ≤ len then some (5, 0x4130)
  else match geomOf pt with
    | some g => if g.maxCtx < ctx + 1 then some (5, 0x4131) else none
    | none => none

/-- A decided token: it enters the log, becomes the pending token and is posted, with the end of the request where it brings one
(R258, R262). -/
def postToken (p n tok lp : Nat) (drafted : Bool) (ev : Events) (code : Code) (ctx : Nat) (s : State) : State :=
  let x := getSess s n
  let pos := x.log.length
  let s1 := logSent n (modSess n (fun x => { x with
    log := x.log ++ [logEntry tok (if drafted then 2 else 1)], pend := some tok, genCount := x.genCount + 1,
    tokensTotal := x.tokensTotal + 1 }) s)
  let s2 := modPart p (fun pt => { pt with step := pt.step.map (fun st => { st with posted := st.posted + 1 }) }) s1
  let post : Post := { sess := n, token := some (tok, lp), drafted := drafted, events := ev, pos := pos }
  match endsWith (getPart s2 p) x tok (x.genCount + 1) (pos + 1) ctx with
  | some (reason, c) => endWith n { post with reason := reason, code := if c = 0 then code else c } s2
  | none => postSess n { post with code := code } s2

/-- The accepted drafts up to the one that ends the request, and whether one does (R262). -/
def acceptUntil (pt : Part) (x : Sess) (P : Nat) : Nat → List (Nat × Nat) → List (Nat × Nat) × Bool
  | _, [] => ([], false)
  | k, (c, lp) :: t =>
    let tok := (x.tree[c]?).getD 0
    if (endsWith pt x tok (x.genCount + k + 1) (x.log.length + k + 1) (P + k + 1)).isSome then ([(c, lp)], true)
    else let r := acceptUntil pt x P (k + 1) t; ((c, lp) :: r.1, r.2)

/-- COMMITTED, NACC and PATH of a session after a verification; its tree goes (08 R224). -/
def verified (committed : Nat) (path : List Nat) (x : Sess) : Sess :=
  { commitRows (committed - x.committed) x with nacc := path.length, path := path, tree := [], dists := [] }

/-- The draft session follows its target: the accepted nodes it fed (those above the last level), renumbered by its own entry. -/
def draftFollows (n P : Nat) (tgt : Sess) (path : List Nat) (s : State) : State :=
  match draftOf s n with
  | none => s
  | some d =>
    let y := getSess s d
    let deep := ((List.range tgt.specNodes).map (depthOf tgt)).foldl max 0
    let ns := nodesTo tgt (deep - 1)
    let fed := path.filterMap (fun c => indexOf c ns)
    if y.committed = P then modSessDir y.part d (verified (P + 1 + fed.length) fed) s else s

/-- A verified tree of a target (R261, R262). Without a candidate after the accepted drafts no token is pending (R236). -/
def decideTree (p n P : Nat) (rows : List (List Nat)) (ev : Events) (s : State) : State :=
  let x := getSess s n
  let w := walk x x.tree x.dists rows 9 0 x.log.length
  let (acc, ended) := acceptUntil (getPart s p) x P 0 w.accepted
  let nodes := acc.map (·.1)
  let path := if ended then nodes.dropLast else nodes
  let s1 := draftFollows n P x path (modSessDir p n (fun y => { verified (P + 1 + path.length) path y with pend := none }) s)
  let s2 := ((List.range acc.length).zip acc).foldl (fun t e =>
    postToken p n ((x.tree[e.2.1]?).getD 0) e.2.2 true ev 0 (P + e.1 + 1) t) s1
  if ended then s2
  else match w.final with
    | some (tok, lp) => postToken p n tok lp false ev 0 (P + path.length + 1) s2
    | none => endWith n { sess := n, code := 0x4150, reason := 5, events := ev } (modSess n (fun y => { y with pend := none }) s2)

/-- A level of a draft tree (R260, step 4): the distributions of the nodes at the depth fed, and their children's tokens. -/
def draftLevel (d t : Nat) (nodes : List Nat) (rows : List (List Nat)) (s : State) : State :=
  let y := getSess s d
  let x := getSess s t
  let k := y.treeDepth
  let P := x.committed
  let fresh := (nodesAt x k).filter (fun n => !(childrenOf x n).isEmpty)
  let kids := fresh.flatMap (childrenOf x)
  let dist := fun (n : Nat) => rowDist y (pathToks x x.tree n) (((indexOf n nodes).bind (fun i => rows[i]?)).getD [])
  if fresh.any (fun n => (dist n).none_) then draftFails d s
  else
    let q := fun (n : Nat) => if tempZero y then ({ node := n, toks := [((dist n).greedy, BitVec.ofNat 32 f32One)] } : DraftDist)
      else draftDist (dist n) n
    let tok := fun (c : Nat) =>
      let dn := dist (parentOf x c)
      if tempZero y then dn.greedy else pick dn.kept dn.total (draw y.seed (P + k + 1) ((indexOf c kids).getD 0))
    let tree := kids.foldl (fun tr c => tr.set c (tok c)) x.tree
    modSess d (fun y => { y with treeDepth := k + 1 }) (modSess t (fun x => { x with tree := tree, dists := x.dists ++ fresh.map q }) s)

/-- The rows of a draft session decided, when its target still waits for them: poisoned or unmapped logits fail the draft. -/
def decideDraft (p t : Nat) (e : Entry) (row : Nat) (s : State) : State :=
  if !((getSess s e.sess).work.busy && (getSess s e.sess).work.forTarget == some t && treeWanted (getSess s t)) then s
  else
    let (s1, rows, po, un) := readRows p row e.nodes s
    if po || un then draftFails e.sess s1 else draftLevel e.sess t e.tree rows s1

/-- The token of a row that no draft precedes (R255, R258). A log that is full already takes no token: the request ends with 0x4130
(log entry 125). -/
def decideOne (p : Nat) (e : Entry) (z : List Nat) (ev : Events) (s : State) : State :=
  let n := e.sess
  let x := getSess s n
  let d := rowDist x [] z
  if d.none_ then endWith n { sess := n, code := 0x4150, reason := 5, events := ev } s
  else
    let tok := RowDist.decide_ x d x.log.length 0
    postToken p n tok (d.logprob tok) false ev (if 2 ≤ x.specNodes ∧ e.kind = .decode then 0x0430 else 0) (e.ctx + e.rows)
      (modSess n (fun x => { x with skipSpec := false }) s)

/-- One sampled entry of a step decided; `row` is its first row. -/
def decideEntry (p : Nat) (e : Entry) (row : Nat) (ev0 : Events) (s : State) : State :=
  let n := e.sess
  let x := getSess s n
  match e.draftFor with
  | some t => decideDraft p t e row s
  | none =>
    if !x.opened || x.work.ending then s
    else
      let (s1, rows, po, un) := readRows p row (if e.kind = .verify then e.nodes else 1) s
      let ev := ev0 ||| (if rows.any (fun z => z.any (fun v => (f32 v).isNan)) then evNan else 0)
      if po then endWith n { sess := n, code := 0x4151, reason := 6, retry := true, events := ev } s1
      else if un then endWith n { sess := n, code := 0x4152, reason := 6, retry := true, events := ev } s1
      else if x.logCap ≤ x.log.length then endWith n { sess := n, code := 0x4130, reason := 5, events := ev } s1
      else if e.kind = .verify then decideTree p n e.ctx rows ev s1
      else decideOne p e (rows.headD []) ev s1

/-- The index of the first sampled entry from i on. -/
def nextSampled (es : List Entry) (i : Nat) : Option Nat := (List.range es.length).find? (fun j => decide (i ≤ j) && (match es[j]? with
  | some e => sampled e
  | none => false))

/-- POINTS_DECIDE once the records are read: a lane decides the next sampled entry; after the last one the step is over (R251, R259). -/
def pointsNext (p : Nat) (s : State) : State :=
  match (getPart s p).step with
  | none => s
  | some st =>
    if !st.ended then s
    else match nextSampled st.entries st.next with
      | none => finishStep p s
      | some i =>
        match st.entries[i]? with
        | none => s
        | some e =>
          let k := if e.kind = .verify then e.nodes else 1
          let s1 := modPart p (fun pt => { pt with step := pt.step.map (fun x => { x with next := i + 1, row := st.row + k }) }) s
          let s2 := decideEntry p e st.row (orEv st.events) s1
          if (nextSampled st.entries (i + 1)).isSome then s2 else finishStep p s2

/-- POINTS_DECIDE: what the Points and the Dispatcher read of the reserve comes first (12 R337). -/
def pointsDecide (p : Nat) (s : State) : State :=
  match (getPart s p).step with
  | none => s
  | some st =>
    if !st.ended then s
    else
      let s1 := readForStep p s
      if workSick s1 p then workFails p s1 else pointsNext p s1

def execPointsDecide (p : Nat) (s : State) : Host.Outcome State Fault Refusal := onPart p (.next (pointsDecide p s))

/-! ### Halts and aborts (05 R139 to R142, 13 R342) -/

/-- Every core of a stop at 0xFF has halted at its count or ended (06 R180). -/
def stopAllDone (s : State) (k : Kernel) : Bool :=
  k.stopN != 0 && k.stopCore == 0xFF && k.cores.any (fun n => (getCore s n).mode == .halted)
    && k.cores.all (fun n => (getCore s n).mode == .halted || ((getCore s n).mode == .ended && enginesIdle (getCore s n)))

/-- HALT_COMPLETE: the partition goes to Halted with its cores as they stand, its step fails, its owner is told (R139, R141). -/
def haltComplete (p : Nat) (s : State) : State :=
  let pt := getPart s p
  match pt.kernel with
  | none => s
  | some k =>
    let cause := match k.halting with
      | some (c, _) => c
      | none => 0x0110
    let all := k.halting.isSome && k.cores.all (fun n => (getCore s n).mode == .halted)
    if !(all || stopAllDone s k) || k.cores.any (fun n => inProgress (getCore s n)) || scuBusy s p then s
    else
      let s1 := failStep p 0x4120 (modPart p (fun x => { x with st := .halted, drainCut := false }) s)
      let s2 := modPart p (fun x => { x with kernel := none, coll := x.coll.map (fun r => { r with stale := true }) }) s1
      endOps p 0x020C 0x4120 (endOps p 0x0A01 cause (partEvent p cause s2))

def execHaltComplete (p : Nat) (s : State) : Host.Outcome State Fault Refusal := onPart p (.next (haltComplete p s))

/-- A core of an aborted kernel: queues empty, control core stopped, and a record 0x1150, also where it had halted before (R142). -/
def abortCore (n : Nat) (s : State) : State :=
  let empty := fun (c : Core) => { c with
    me := { c.me with queue := [] }, ve := { c.ve with queue := [] }, mv := { c.mv with queue := [] }, tt := { c.tt with queue := [] },
    bankReqs := [] }
  modCore n empty (writeHalt n (ctrlRec s n 0x1150) s)

/-- The cores that an abort stops: those of the running kernel and those that stand halted since the last one (R142). -/
def stoppedCores (s : State) (p : Nat) : List Nat :=
  match (getPart s p).kernel with
  | some k => k.cores
  | none => (s.cores.filter (fun e => e.2.part == some p && e.2.mode == .halted)).map (·.1)

/-- The SCU commands of a partition stop: status Aborted with 0x1310 where it can be written, no ready bit (04 R113). DESIGN CHOICE (log
entry 123): T_START and T_END are both the time of the abort and UNITS and REF_PAUSES are 0, for the running command too. -/
def abortScus (p : Nat) (s : State) : State :=
  s.chans.foldl (fun t e =>
    let mine := e.2.queue.filter (fun x => x.part == p)
    if mine.isEmpty then t
    else
      let t1 := mine.foldl (fun t x => writeStatus x e.1 4 0x1310 s.ftime s.ftime 0 {} t) t
      modChan e.1 (fun c => { c with queue := c.queue.filter (fun x => x.part != p), refPauses := 0 }) t1) s

/-- Every long operation of a partition ends with a code. -/
def endAllOps (p : Nat) (code : Code) (s : State) : State :=
  (s.sb.ops.filter (fun o => o.part == some p)).foldl (fun t o => opDone o code 0 t) s

/-- A partition is aborted (R142, R342): cores and SCUs stop, its groups break, its step and its open requests end with retries of a
code, its owner is told by an event code that it is Halted unless it already was (R141, 17 R429), and its long operation ends with
0x5122 (14 R366). -/
def abortWith (p : Nat) (code event : Code) (s : State) : State :=
  let s1 := abortScus p ((stoppedCores s p).foldl (fun t n => abortCore n t) s)
  let s2 := breakGroupsOf p (modPart p (fun x => { x with st := .halted, drainCut := false }) s1)
  let s3 := modPart p (fun x => { x with kernel := none, coll := [], unmapping := false, unmapVas := [], mirroring := none })
    (failStep p code s2)
  let s4 := retryAll p code s3
  endAllOps p 0x5122 (if (getPart s p).st = .halted then s4 else partEvent p event s4)

/-- An abort as PART ABORT or a failing device asks for it: retries with 0x4121, the event 0x1150 (R142). -/
def abortPart (p : Nat) (s : State) : State := abortWith p 0x4121 0x1150 s

/-- STEP_OVERRUN: a step that has run longer than STEP_LIMIT (R342). -/
def stepOverrun (p : Nat) (s : State) : State :=
  let pt := getPart s p
  match pt.step with
  | none => s
  | some st => if st.ended then s else abortWith p 0x4121 0x4122 (timeTo (st.tLaunch + 1000 * pt.params.stepLimit + 1) s)

def execStepOverrun (p : Nat) (s : State) : Host.Outcome State Fault Refusal := onPart p (.next (stepOverrun p s))

/-- CORE_ISOLATED: a core of an aborted partition whose queues would not empty is switched off from the always-on domain and is Absent
(R342, 15 R399 STATE 6). -/
def coreIsolated (n : Nat) (s : State) : State :=
  let c := getCore s n
  match c.halt with
  | some r =>
    if r.code = 0x1150 ∧ unitPresent s.units.core n = true then
      unitChanged (post 0x1160 1 n (modCore n (fun _ => darkCore) { s with units := { s.units with core := spSet 0 s.units.core n 6 } }))
    else s
  | none => s

def execCoreIsolated (n : Nat) (s : State) : Host.Outcome State Fault Refusal := onCore n (coreIsolated n s)

/-! ### The device fails (13 R345) -/

/-- A departure notice on VC0 to every watched peer that a path leads to (11 R292). -/
def departNotices (s : State) : State := (s.fab.peers.filter (fun x => !x.dead)).foldl (fun t x => sendNotice "departure" x.ident [] t) s

/-- The partitions that an abort of the whole device reaches: those that are not Empty (R142). -/
def abortable (s : State) : List Nat :=
  (List.range 16).filter (fun p => (getPart s p).st != .absent && (getPart s p).st != .empty)

/-- The device declares itself failed with 0x5240 (R345): every partition is aborted, its peers are told, and no ring is read again. -/
def failDevice (s : State) : State :=
  if s.boot.phase = .failed then s
  else
    let s1 := { s with boot := { s.boot with phase := .failed, lastStop := 4 } }
    let s2 := (abortable s1).foldl (fun t p => abortPart p t) s1
    post 0x5240 0 0 (departNotices s2)

end Sys2Proof.Machine
end

