-- ==== Sys2Proof/Machine/Mailbox.lean ====
section
/-!
DEFINITION. The mailbox exchange (14 R361 to R367, R374): requests, the checks every command passes, responses, long operations, and
the Interlocking's lease (R371, R373). Each command of a group is a handler over this frame.
-/

namespace Sys2Proof.Machine

/-! ### The Interlocking (R371, R373) -/

/-- A change of the Interlocking: OWNER_CHANGED for all three masters and a record for each (R371). -/
def ownChange (code : Code) (s : State) : State := [1, 2, 3].foldl (fun t m => sbSet m 4 t) (post code 0 0 s)

/-- The Interlocking becomes Unowned. -/
def unowned (code : Code) (s : State) : State := ownChange code { s with lock := {} }

/-- The lease in ns (R373). -/
def leaseNs : Nat := 5000000000

/-- A lease that has run out is over, whatever comes next (R373). -/
def lapse (s : State) : State := if s.lock.st ≠ .unowned ∧ s.lock.leaseEnd ≤ s.ftime then unowned 0x0521 s else s

/-- The owner's lease starts again (R373). -/
def renewLease (s : State) : State := { s with lock := { s.lock with leaseEnd := s.ftime + leaseNs, warned := false } }

/-- What a submission of master m does to the Interlocking: an expired lease ends, the owner's is renewed (R373). -/
def submitted (m : Nat) (s : State) : State := let s1 := lapse s; if ownerKind s1 = m then renewLease s1 else s1

/-- Milliseconds left on the lease (R364). -/
def leaseMs (s : State) : Nat := if s.lock.st = .unowned then 0 else (s.lock.leaseEnd - s.ftime) / 1000000

/-! ### Requests and responses (R363, R364) -/

/-- A request: its master, its bytes up to LEN, the header's fields and the payload. -/
structure Req where
  master : Nat
  owned : Nat
  raw : List Byte
  via : Option (Medium × Nat) := none
  hdr : Nat
  pay : List Byte
deriving DecidableEq, Repr

def Req.opcode (q : Req) : Nat := fld q.hdr 15 0
def Req.seq (q : Req) : BitVec 32 := BitVec.ofNat 32 (fld q.hdr 47 16)
def Req.len (q : Req) : Nat := fld q.hdr 63 48
def Req.force (q : Req) : Bool := tbit q.hdr 64
def Req.down (q : Req) : Bool := tbit q.hdr 65
/-- A payload field of n bytes. -/
def Req.f (q : Req) (off n : Nat) : Nat := numAt q.pay off n

/-- The OPCODE of a request's bytes. -/
def rawOpcode (raw : List Byte) : Nat := numAt raw 0 2

/-- A request's bytes read. -/
def mkReq (m owned : Nat) (via : Option (Medium × Nat)) (raw : List Byte) : Req :=
  let len := numAt raw 6 2
  { master := m, owned := owned, via := via, hdr := numAt raw 0 16, pay := bytesAt raw 16 (min len 4080),
    raw := bytesAt raw 0 (16 + min len 4080) }

/-- The 4,096 bytes of a response as they read (R364). -/
def rspBytes (r : Rsp) : List Byte :=
  padTo 4096 (leBytes (put r.leaseMs 96 + put r.payload.length 80 + put r.opcode 64 + put r.seq.toNat 32 + put r.code 16 + put r.owner 5
    + put (b2n r.degraded) 4 + r.rstate) 16 ++ r.payload)

/-- The response of a request is placed: it is Ready, stored, and RSP_READY is set (R365, R367). -/
def placeRsp (q : Req) (r : Rsp) (s : State) : State :=
  let s1 := modBox q.master (fun x => { x with busy := false, rsp := r, last := q.raw, lastRsp := r }) s
  let s2 := match q.master, q.via with
    | 1, _ => s1
    | _, some (med, eid) => emit (.mctp (.mctp med eid) ((rspBytes r).take (16 + r.payload.length))) s1
    | m, none => emit (.rsp m r) s1
  sbSet q.master 0 s2

/-- A response written when its command is done. -/
def respond (q : Req) (code : Code) (payload : List Byte) (s : State) : State :=
  placeRsp q { rstate := 2, degraded := s.sb.degraded, owner := ownerKind s, code := code, seq := q.seq, opcode := q.opcode,
               leaseMs := leaseMs s, payload := payload } s

/-! ### Commands (R363, R366, R374) -/

/-- How a command answers: done, with the payload of its response; refused, with nothing changed; refused with the part of a list
discarded (FAB GROUP_FORM alone); or a long operation started on a partition, if it concerns one, with what its end needs. -/
inductive Reply where
  | ok (s : State) (payload : List Byte)
  | no (code : Code)
  | cut (s : State) (code : Code)
  | op (s : State) (part : Option Nat) (arg : List Byte)

/-- A command of a group: opcode; class (0 A, 1 O, 2 F); carried out in degraded mode; the header flags it takes; the payload fields it
names; the partition that it would change; the units, by their kinds of R375, that its effect needs an answer from (13 R352). -/
structure Cmd where
  opcode : Nat
  cls : Nat
  d : Bool
  force : Bool := false
  down : Bool := false
  named : Req → List (Nat × Nat) := fun _ => []
  part : Req → Option Nat := fun _ => none
  needs : Req → State → List (Nat × Nat) := fun _ _ => []

/-- The partition field that most commands begin with. -/
def part0 (q : Req) : Option Nat := some (q.f 0 1)

/-- The last command of each group, OWN to DIAG (R376 to R386). -/
def groupSizes : List Nat := [8, 15, 6, 6, 6, 4, 4, 4, 10, 6]

/-- The commands that the tables list. -/
def listedOp (o : Nat) : Bool :=
  decide (1 ≤ o / 256 ∧ 1 ≤ o % 256) && decide (o % 256 ≤ (groupSizes[o / 256 - 1]?).getD 0)

/-- The commands that recovery serves (15 R393). -/
def recoveryOp (o : Nat) : Bool := [0x0101, 0x0102, 0x0103, 0x0108, 0x0801, 0x0802, 0x0803, 0x0804].any (· == o)

/-- The end of the last named field. -/
def needLen (l : List (Nat × Nat)) : Nat := (l.map (fun e => e.1 + e.2)).foldl max 0

/-- The payload with the named fields taken as 0. -/
def blank (l : List (Nat × Nat)) (pay : List Byte) : List Byte :=
  l.foldl (fun b e => b.take e.1 ++ List.replicate (min e.2 (b.length - e.1)) 0 ++ b.drop (e.1 + e.2)) pay

/-- A reserved header field, a flag that the command does not take, or a payload byte that it does not name is not zero. -/
def resvBad (c : Cmd) (q : Req) : Bool :=
  fld q.hdr 127 66 != 0 || (q.force && !c.force) || (q.down && !c.down) || !(blank (c.named q) q.pay).all (· == 0)

/-- Master m holds a class (R374), by the owner at submission. -/
def holds (s : State) (q : Req) (cls : Nat) : Bool :=
  cls == 0 || q.owned == q.master || (cls == 2 && q.master == 3 && s.cfg.policy.fabToFm)

/-- A long operation of a partition runs. -/
def partBusy (s : State) (p : Nat) : Bool := s.sb.ops.any (fun o => o.part == some p)

/-- What the state of the start refuses before a command is looked at (15 R390, R391, R393): from step 3 of a start on, with Ifewin running,
commands of class A are carried out; `classA` says that the request is one. -/
def startCode (s : State) (o : Nat) (classA : Bool) : Option Code :=
  match s.boot.phase with
  | .starting => if s.boot.ifewin && classA then none else some 0x5252
  | .fuseFault => some 0x5251
  | .recovery => if recoveryOp o then none else some 0x5250
  | _ => none

/-- The first unit that a command needs and that does not answer (13 R352). -/
def wedgedUnit (c : Cmd) (q : Req) (s : State) : Option (Nat × Nat) := (c.needs q s).find? (fun e => s.units.wedged.any (· == e))

/-- What names a unit in a response with 0x5230: its kind, and its number in 2 bytes (log entry 84). -/
def unitName (e : Option (Nat × Nat)) : List Byte := match e with
  | none => []
  | some e => leBytes e.1 1 ++ leBytes e.2 2

/-- The checks that every command passes, in this order (log entry 52): the start, the format, the class, degraded mode, the
reserved fields, the partition's long operation, and a unit that does not answer. -/
def judge (c : Cmd) (q : Req) (s : State) : Option Code :=
  match startCode s q.opcode (c.cls == 0 && q.opcode == c.opcode) with
  | some k => some k
  | none => firstFail [
      (q.opcode != c.opcode || decide (4080 < q.len) || decide (q.len < needLen (c.named q)), 0x5100),
      (!holds s q c.cls, 0x5110),
      (s.sb.degraded && !c.d, 0x5202),
      (resvBad c q, 0x5102),
      ((match c.part q with
        | some p => partBusy s p && c.opcode != 0x020E
        | none => false), 0x5121),
      ((wedgedUnit c q s).isSome, 0x5230)]

/-- A long operation enters the table (R366). -/
def startOp (q : Req) (part : Option Nat) (arg : List Byte) (s : State) : State :=
  let n := s.sb.opNext
  respond q 0x0510 (leBytes n 2) { s with sb := { s.sb with
    opNext := n % 65535 + 1,
    ops := s.sb.ops ++ [{ op := n, part := part, master := q.master, seq := q.seq, opcode := q.opcode, arg := arg }] } }

/-- A request carried out (R365 to R367): a repeated one gets the stored response. -/
def serve (c : Cmd) (h : Req → State → Reply) (q : Req) (s : State) : State :=
  let x := getBox s q.master
  if x.last ≠ [] ∧ numAt x.last 2 4 = q.seq.toNat ∧ x.last.drop 16 = q.pay then placeRsp q x.lastRsp s
  else match judge c q s with
    | some k => respond q k (if k = 0x5230 then unitName (wedgedUnit c q s) else []) s
    | none => match h q s with
      | .ok s1 p => respond q 0 p s1
      | .no k => respond q k [] s
      | .cut s1 k => respond q k [] s1
      | .op s1 part arg => if 16 ≤ s.sb.ops.length then respond q 0x5120 [] s else startOp q part arg s1

/-- The row of a command serves its own opcode; that of OWN_STATUS also every opcode that no table lists. -/
def rowTakes (c : Cmd) (o : Nat) : Bool := c.opcode == o || (c.opcode == 0x0101 && !listedOp o)

/-- The Busy status word of a request (R365). -/
def busyRsp (raw : List Byte) : Rsp := { rstate := 1, seq := BitVec.ofNat 32 (numAt raw 2 4) }

/-- A request enters a mailbox and waits there (R362). -/
def latch (m : Nat) (raw : List Byte) (s : State) : State :=
  let s1 := submitted m s
  modBox m (fun x => { x with busy := true, req := raw, owned := ownerKind s1, rsp := busyRsp raw }) s1

/-- A whole message has arrived for master m: discarded while its mailbox is Busy, kept Busy while the Signal Box restarts,
else carried out (R361, R362, 13 R354). -/
def arrive (c : Cmd) (h : Req → State → Reply) (m : Nat) (via : Option (Medium × Nat)) (raw : List Byte) (s : State) : State :=
  if (getBox s m).busy then sbSet m 1 s
  else if s.sb.restarting then latch m raw s
  else
    let s1 := submitted m s
    serve c h (mkReq m (ownerKind s1) via raw) s1

/-- The row of a command for a submission (R361). -/
def mailRow (c : Cmd) (h : Req → State → Reply) (sub : Submission) (s : State) : State :=
  match sub with
  | .host =>
    let x := s.sb.host
    if x.busy && !s.sb.restarting && rowTakes c (rawOpcode x.req) then serve c h (mkReq 1 x.owned none x.req) s else s
  | .bmc med eid msg =>
    if rowTakes c (rawOpcode msg) then
      arrive c h 2 (some (med, eid)) msg { s with sb := { s.sb with bmcEid := some (med, eid) } }
    else s
  | .fm ident msg =>
    if rowTakes c (rawOpcode msg) && (s.cfg.policy.fmAny || s.cfg.policy.fmId.toNat == ident) then arrive c h 3 none msg s else s

/-- The rows of commands. -/
def mail (c : Cmd) (h : Req → State → Reply) (sub : Submission) (s : State) : Host.Outcome State Fault Refusal :=
  .next (mailRow c h sub s)

/-- A reply that passes its checks, or the first failed one. -/
def checked (l : List (Bool × Code)) (r : Reply) : Reply := match firstFail l with
  | some c => .no c
  | none => r

end Sys2Proof.Machine
end

