-- ==== Sys2Proof/Machine/Drain.lean ====
section
/-!
DEFINITION. Draining a partition (09 R247, 05 R141) and the map-out of cores and slices, which waits for a drain (12 R333, 13 R355).
-/

namespace Sys2Proof.Machine

/-! ### Map-out of cores and slices (12 R333, 03 R71) -/

/-- The partition that owns a core. -/
def coreOwner (s : State) (n : Nat) : Option Nat := (s.parts.find? (fun e => e.2.st != .absent && mem n e.2.cores)).map (·.1)

/-- The map-out operations of a unit end (14 R383); the argument holds KIND and UNIT. -/
def endMapout (kind n : Nat) (s : State) : State :=
  (s.sb.ops.filter (fun o => o.opcode == 0x0703 && numAt o.arg 0 1 == kind && numAt o.arg 1 1 == n)).foldl (fun t o => opDone o 0 0 t) s

/-- A core leaves the floor plan. -/
def coreOut (n : Nat) (s : State) : State :=
  let s1 := { s with units := { s.units with core := spSet 0 s.units.core n mappedOut },
                     cfg := { s.cfg with outCores := addOnce n s.cfg.outCores, pendCores := s.cfg.pendCores.filter (· != n) } }
  endMapout 1 n (unitChanged (post 0x2221 1 n (modCore n (fun _ => darkCore) s1)))

/-- The lines of a partition's pages leave the slices, dirty ones written back: before its slice set changes, since every line may
get another owning slice (03 R71, log entry 55). -/
def emptyPart (p : Nat) (s : State) : State := (cmoWhere 1 (fun L => ownerPart s (L / 0x8000) == some p) s).1

/-- What the slices hold for the pages that a slice serves is written back and dropped before the slice leaves (03 R71). -/
def emptySlice (n : Nat) (s : State) : State := (cmoWhere 1 (fun L => mem n (sliceSet s (L / 0x8000))) s).1

/-- A slice leaves the floor plan, flushed and invalidated first. -/
def sliceOut (n : Nat) (s : State) : State :=
  let s0 := emptySlice n s
  let s1 := { s0 with units := { s0.units with slice := spSet 0 s0.units.slice n mappedOut },
                      cfg := { s0.cfg with outSlices := addOnce n s0.cfg.outSlices, pendSlices := s0.cfg.pendSlices.filter (· != n) } }
  endMapout 2 n (unitChanged (post 0x2221 2 n s1))

/-- The pending map-outs of a partition's cores and slices proceed with its drain (R333). -/
def proceedOuts (p : Nat) (s : State) : State :=
  let pt := getPart s p
  let s1 := (pt.cores.filter (fun n => mem n s.cfg.pendCores)).foldl (fun t n => coreOut n t) s
  (pt.slices.filter (fun n => mem n s.cfg.pendSlices)).foldl (fun t n => sliceOut n t) s1

/-- The pending map-outs of free cores and slices proceed at once (R333). -/
def settleFree (s : State) : State :=
  let s1 := (s.cfg.pendCores.filter (fun n => (coreOwner s n).isNone)).foldl (fun t n => coreOut n t) s
  (s1.cfg.pendSlices.filter (fun n => (sliceOwner s1 n).isNone)).foldl (fun t n => sliceOut n t) s1

/-! ### Draining (09 R247) -/

/-- A partition begins to drain. CUT ends the open requests with the step in progress, and breaks its groups (11 R300). -/
def beginDrain (p : Nat) (cut : Bool) (s : State) : State :=
  let s1 := modPart p (fun x => { x with st := .draining, drainCut := x.drainCut || cut }) s
  if cut then
    let s2 := breakGroupsOf p s1
    if (getPart s2 p).step.isNone then retryAll p 0x4120 s2 else s2
  else s1

/-- Partitions that serve or drain. -/
def activeParts (s : State) : List Nat := (List.range 16).filter (fun p => (getPart s p).st == .serving || (getPart s p).st == .draining)

/-- Every one of them is drained with CUT, as FORCE asks (14 R376, 13 R356). -/
def cutAll (s : State) : State := (activeParts s).foldl (fun t p => beginDrain p true t) s

/-- The drain of a partition has come to its end: no step, no kernel, no SCU command, and in WAIT no open request. -/
def drainOver (s : State) (p : Nat) : Bool :=
  let pt := getPart s p
  pt.st == .draining && pt.step.isNone && pt.kernel.isNone && !scuBusy s p && (pt.drainCut || (openOf s p).isEmpty)

/-- DRAIN_DONE: the partition is Drained, its pending map-outs proceed and its drain operation ends. A Halted partition was Drained
at once (05 R141); then only the rest happens. -/
def drainDone (p : Nat) (s : State) : State :=
  let over_ := drainOver s p
  if over_ || ((getPart s p).st == .drained && s.sb.ops.any (fun o => o.part == some p && o.opcode == 0x020C)) then
    endOps p 0x020C 0 (proceedOuts p (modPart p (fun x => { x with st := .drained, drainCut := false }) s))
  else s

def execDrainDone (p : Nat) (s : State) : Host.Outcome State Fault Refusal := onPart p (.next (drainDone p s))

end Sys2Proof.Machine
end

