-- ==== Sys2Proof/Machine/PartCmd.lean ====
section
/-!
DEFINITION. The PART commands (14 R377, R378): units, parameters, pages, mappings, the KV pool and the states of a partition (09 R246,
R247), with the rows that end what they start (07 R198, 19 R462).
-/

namespace Sys2Proof.Machine

/-! ### What the commands share -/

/-- N values of w bytes from an offset of the payload. -/
def Req.list (q : Req) (off w n : Nat) : List Nat := (List.range n).map (fun i => q.f (off + w * i) w)

/-- The units of a bit map of n bytes. -/
def Req.units (q : Req) (off n : Nat) : List Nat := bitsOf (8 * n) (q.f off n)

/-- A partition is in one of some states. -/
def inState (pt : Part) (l : List PState) : Bool := l.any (fun x => x == pt.st)

/-- Every state but absent. -/
def existing : List PState := [.empty, .drained, .serving, .draining, .halted]

/-- The first checks of a command of partition PART: its number, and its state. -/
def partChecks (s : State) (q : Req) (l : List PState) : List (Bool × Code) :=
  [(decide (15 < q.f 0 1), 0x5101), (!inState (getPart s (q.f 0 1)) l, 0x5131)]

/-- A unit belongs to another partition. -/
def elsewhere (s : State) (p : Nat) (sel : Part → List Nat) (u : Nat) : Bool :=
  s.parts.any (fun e => e.1 != p && e.2.st != .absent && mem u (sel e.2))

/-- A unit is not to be had: Absent, Off, or another partition's (R377). -/
def unavailable (s : State) (p : Nat) (m : Sp Nat) (sel : Part → List Nat) (l : List Nat) : Bool :=
  l.any (fun u => !unitOn s m u || elsewhere s p sel u)

/-- The SCU domains of some channels: On while the channel is present and owned by a partition with a loaded model (04 R116). -/
def scuDomains (cs : List Nat) (s : State) : State :=
  let on := fun (c : Nat) => unitPresent s.units.chan c && s.parts.any (fun e => e.2.st != .absent && e.2.model.isSome && mem c e.2.chans)
  rewriteReport { s with units := { s.units with scu := cs.foldl (fun m c => spSet 1 m c (if on c then 0 else 1)) s.units.scu } }

/-- A free channel has share 4 (04 R105). -/
def freeShares (cs : List Nat) (s : State) : State := cs.foldl (fun t c => modChan c (fun x => { x with sigma := 4 }) t) s

/-! ### Units (R377, 09 R247) -/

/-- The pages that a partition owns. -/
def ownedPages (s : State) (p : Nat) : List Nat := (s.mem.owner.filter (fun e => e.2 == .part p)).map (·.1)

/-- The Pinned pages that a partition owns on some channels. -/
def pinnedOn (s : State) (p : Nat) (cs : List Nat) : List Nat := (ownedPages s p).filter (fun g => pagePinned s g && mem (homeOf g) cs)

/-- Pages leave a partition and wait for their fill: their held lines are dropped unwritten (19 R462). -/
def returnPages (pages : List Nat) (s : State) : State :=
  let s1 := pages.foldl (fun t g => setOwner g .free t) s
  { s1 with
    mem := { s1.mem with filling := s1.mem.filling ++ pages, retained := s1.mem.retained.filter (fun g => !mem g pages),
                         mirrors := s1.mem.mirrors.filter (fun e => !mem e.1 pages && !mem e.2 pages) },
    cache := { s1.cache with lines := s1.cache.lines.filter (fun e => !mem (e.1 / 0x8000) pages) } }

/-- A channel that leaves takes its KV pages with it: they leave the pool, the page table and their sessions, which become Sided
(09 R247, 08 R230). -/
def takeKvPages (p : Nat) (pages : List Nat) (s : State) : State :=
  let drop := fun (pt : Part) => { pt with
    pool := pt.pool.filter (fun g => !mem g pages), ptab := pt.ptab.filter (fun e => !mem (ptePage e) pages),
    kvUse := pt.kvUse.filter (fun e => !mem (e.1 / 32) pages), kvFill := pt.kvFill.filter (fun e => !mem (e / 32) pages) }
  returnPages pages (loseSessions p (modPart p drop s))

/-- A partition gets a set of units. -/
def setUnits (p : Nat) (cores slices chans : List Nat) (s : State) : State :=
  let old := getPart s p
  let gone := old.chans.filter (fun c => !mem c chans)
  let s1 := takeKvPages p (pinnedOn s p gone) s
  let s2 := if old.slices = slices then s1 else emptyPart p s1
  scuDomains (dedup (old.chans ++ chans)) (freeShares gone (modPart p (fun x => { x with cores := cores, slices := slices, chans := chans }) s2))

/-- The checks of CREATE and UNITS after the partition's state. -/
def unitChecks (s : State) (q : Req) : List (Bool × Code) :=
  let p := q.f 0 1
  let cs := q.units 8 18
  let ss := q.units 32 8
  let hs := q.units 40 32
  [(cs.isEmpty || ss.isEmpty, 0x5101),
   (unavailable s p s.units.core (·.cores) cs || unavailable s p s.units.slice (·.slices) ss
     || unavailable s p s.units.chan (·.chans) hs, 0x5130)]

/-- The fields of CREATE and UNITS. -/
def unitFields (_ : Req) : List (Nat × Nat) := [(0, 1), (8, 18), (32, 8), (40, 32)]

/-- PART CREATE. -/
def partCreateH (q : Req) (s : State) : Reply :=
  let p := q.f 0 1
  checked (partChecks s q [.absent] ++ unitChecks s q)
    (.ok (setUnits p (q.units 8 18) (q.units 32 8) (q.units 40 32) (modPart p (fun _ => { st := .empty }) s)) [])

/-- The entry of command 0x0201 in its table. -/
def cmdPartCreate : Cmd :=
  { opcode := 0x0201, cls := 1, d := false, named := unitFields, part := part0 }

def execPartCreate (sub : Submission) (s : State) : Host.Outcome State Fault Refusal :=
  mail cmdPartCreate partCreateH sub s

/-- PART UNITS: a Pinned page outside the KV pool must be returned before its channel leaves (log entry 55). -/
def partUnitsH (q : Req) (s : State) : Reply :=
  let p := q.f 0 1
  let pt := getPart s p
  let gone := pt.chans.filter (fun c => !mem c (q.units 40 32))
  checked (partChecks s q [.empty, .drained] ++ unitChecks s q ++ [((pinnedOn s p gone).any (fun g => !mem g pt.pool), 0x5131)])
    (.ok (setUnits p (q.units 8 18) (q.units 32 8) (q.units 40 32) s) [])

/-- The entry of command 0x0202 in its table. -/
def cmdPartUnits : Cmd :=
  { opcode := 0x0202, cls := 1, d := false, named := unitFields, part := part0 }

def execPartUnits (sub : Submission) (s : State) : Host.Outcome State Fault Refusal :=
  mail cmdPartUnits partUnitsH sub s

/-- PART DESTROY: the partition owns no page, and no session of it is open (log entry 55). -/
def partDestroyH (q : Req) (s : State) : Reply :=
  let p := q.f 0 1
  let cs := (getPart s p).chans
  checked (partChecks s q [.empty] ++ [(!(ownedPages s p).isEmpty || !(sessOf s p).isEmpty, 0x5131)])
    (.ok (scuDomains cs (freeShares cs (modPart p (fun _ => {}) (breakGroupsOf p s)))) [])

/-- The entry of command 0x0203 in its table. -/
def cmdPartDestroy : Cmd :=
  { opcode := 0x0203, cls := 1, d := false, named := fun _ => [(0, 1)], part := part0 }

def execPartDestroy (sub : Submission) (s : State) : Host.Outcome State Fault Refusal :=
  mail cmdPartDestroy partDestroyH sub s

/-! ### Parameters (R378) -/

/-- Every byte of a range lies in a Spread page whose entry's rights pass a test; fuel bounds the entries visited. -/
def rangeMapped (s : State) (t : List Pte) (ok : BitVec 64 → Bool) : Nat → Nat → Nat → Bool
  | 0, lo, hi => decide (hi ≤ lo)
  | k + 1, lo, hi =>
    if hi ≤ lo then true
    else match pteAt t lo with
      | none => false
      | some e => ok e.bits && !pagePinned s (ptePage e) && rangeMapped s t ok k (e.va + pteSize e.bits) hi

/-- The rights of an entry: R, W, SCU, ATOM in bits 0 to 3. -/
def pteRights (b : BitVec 64) : Nat := fld b.toNat 5 2

/-- A VALUE that names an area: its VA and its size in units of 64 KiB. -/
def areaOf (v : Nat) : Area := { va := fld v 47 0, units := fld v 63 48 }

/-- An area is aligned and mapped in Spread pages with exactly the rights named. -/
def areaOk (s : State) (p v rights : Nat) (size : Nat → Bool) : Bool :=
  let a := areaOf v
  let t := (getPart s p).ptab
  decide (a.va % 0x200000 = 0) && size a.units && rangeMapped s t (fun b => pteRights b == rights) (t.length + 1) a.va (a.va + 0x10000 * a.units)

/-- Some session of a partition holds KV pages. -/
def holdsPages (s : State) (p : Nat) : Bool := (sessOf s p).any (fun n => decide (0 < sessPages (getSess s n)))

/-- The directory of a session is no more; a new one is placed at the next start (08 R210). -/
def noDir (n : Nat) (s : State) : State := modSess n (fun x => { x with dirVa := 0, dirSize := 0, maxPages := 0 }) s

/-- Every session of a partition gives up its pages and its directory (08 R210). -/
def dropDirs (p : Nat) (s : State) : State :=
  (sessOf s p).foldl (fun t n =>
    noDir n (if 0 < sessPages (getSess t n) then dropAllPages p n t else t)) s

/-- RUN changes (08 R211): every session that holds KV pages gives them up, and the directories take the new RUN_LOG2. With it MAXPAGES
may change (R210), and the directories their size: then they are placed anew, and one that does not fit waits for the next start (log
entry 126). -/
def changeRun (p run : Nat) (s : State) : State :=
  let ns := sessOf s p
  let s1 := ns.foldl (fun t n => if 0 < sessPages (getSess t n) then dropAllPages p n t else t) s
  let s2 := modPart p (fun x => { x with params := { x.params with run := run } }) s1
  match geomOf (getPart s p) with
  | none => s2
  | some g =>
    let placed := ns.filter (fun n => (getSess s n).dirSize != 0)
    if g.maxPages run = g.maxPages (getPart s p).params.run then placed.foldl (fun t n => modSessDir p n id t) s2
    else placed.foldl (fun t n => placeDir p n t) (placed.foldl (fun t n => noDir n t) s2)

/-- The value of a parameter is in its range. -/
def paramRange (s : State) (p id v : Nat) : Bool :=
  let pr := (getPart s p).params
  match id with
  | 0x01 => decide (v ≤ 1)
  | 0x02 => decide (32 ≤ v ∧ v ≤ 8192 ∧ v % 32 = 0)
  | 0x03 => decide (1 ≤ v ∧ v ≤ 65536)
  | 0x04 => decide (32 ≤ v ∧ v ≤ 65536)
  | 0x05 => decide (v ≤ 65535)
  | 0x06 => decide (v ≤ 65535)
  | 0x07 => decide (v % 64 = 0 ∧ v < vaEnd)
  | 0x08 => decide (0 < v ∧ v % 64 = 0 ∧ 4 * vocabOf (getPart s p) ≤ v)
  | 0x09 => decide (1000 ≤ v ∧ v ≤ 10000000)
  | 0x0A => [1, 2, 4, 8, 16].any (· == v)
  | 0x0B => decide (v ≤ 1)
  | 0x0C => decide (v ≤ pr.high)
  | 0x0D => decide (pr.low ≤ v)
  | 0x0E => areaOk s p v 0b0001 (fun n => decide (1 ≤ n))
  | 0x0F => areaOk s p v 0b0001 (fun n => decide (10 ≤ n))
  | 0x10 => areaOk s p v 0b1011 (fun n => n == 1)
  | _ => false

/-- A parameter's new value in the record of parameters. -/
def setParam (id v : Nat) (x : Params) : Params :=
  match id with
  | 0x01 => { x with ordered := v == 1 }
  | 0x02 => { x with chunk := v }
  | 0x03 => { x with stepRows := v }
  | 0x04 => { x with stepPrefill := v }
  | 0x05 => { x with wPre := v }
  | 0x06 => { x with wDec := v }
  | 0x07 => { x with logits := some v }
  | 0x08 => { x with lpitch := some v }
  | 0x09 => { x with stepLimit := v }
  | 0x0A => { x with run := v }
  | 0x0B => { x with siding := v == 1 }
  | 0x0C => { x with low := v }
  | 0x0D => { x with high := v }
  | 0x0E => { x with kvArea := some (areaOf v) }
  | 0x0F => { x with ttArea := some (areaOf v) }
  | 0x10 => { x with collArea := some (areaOf v) }
  | _ => x

/-- What a parameter's change does besides: directories go with a new list area and follow RUN; a change of Ordered Reduction Mode breaks the
partition's groups (11 R300); the collective area starts with its counts at 0 (11 R301). -/
def paramEffect (p id v : Nat) (s : State) : State :=
  let pr := (getPart s p).params
  let s1 :=
    if id = 0x0E then dropDirs p s
    else if id = 0x0A ∧ v ≠ pr.run then changeRun p v s
    else if id = 0x10 then modPart p (fun x => { x with collHead := 0, collDone := 0, coll := [] }) s
    else s
  let s2 := modPart p (fun x => { x with params := setParam id v x.params }) s1
  if id = 0x01 ∧ (v == 1) ≠ pr.ordered then modeChanged p s2 else s2

/-- A model that takes acoustic features cannot rebuild its sessions: what would drop their pages, or enable the Siding, is refused. -/
def featureBlocks (s : State) (p id v : Nat) : Bool :=
  takesFeatures (getPart s p) && ((id == 0x0B && v == 1)
    || (holdsPages s p && (id == 0x0E || (id == 0x0A && v != (getPart s p).params.run))))

/-- PART PARAM. -/
def paramH (q : Req) (s : State) : Reply :=
  let p := q.f 0 1
  let id := q.f 1 1
  let v := q.f 8 8
  checked (partChecks s q [.empty, .drained] ++ [(!paramRange s p id v, 0x5101), (featureBlocks s p id v, 0x5131)])
    (.ok (paramEffect p id v s) [])

/-- The entry of command 0x0204 in its table. -/
def cmdParam : Cmd :=
  { opcode := 0x0204, cls := 1, d := false, named := fun _ => [(0, 1), (1, 1), (8, 8)], part := part0 }

def execParam (sub : Submission) (s : State) : Host.Outcome State Fault Refusal :=
  mail cmdParam paramH sub s

/-- PART SHARE (04 R105). -/
def shareH (q : Req) (s : State) : Reply :=
  let c := q.f 1 1
  let g := q.f 2 1
  checked (partChecks s q existing ++ [(decide (g < 2 ∨ 12 < g), 0x5101), (!mem c (getPart s (q.f 0 1)).chans, 0x5130)])
    (.ok (modChan c (fun x => { x with sigma := g }) s) [])

/-- The entry of command 0x0205 in its table. -/
def cmdShare : Cmd :=
  { opcode := 0x0205, cls := 1, d := false, named := fun _ => [(0, 1), (1, 1), (2, 1)], part := part0, needs := fun q _ => [(3, q.f 1 1)] }

def execShare (sub : Submission) (s : State) : Host.Outcome State Fault Refusal :=
  mail cmdShare shareH sub s

/-! ### Rows and pages (03 R64, R66; 19 R462) -/

/-- A page of a row is owned, or returned and not filled yet. -/
def rowOwned (s : State) (f : Nat) : Bool :=
  (List.range 256).any (fun c => pageOwner s (c * 768 + f) != .free || mem (c * 768 + f) s.mem.filling)

/-- PART ROW_MODE: the row takes the mode and is filled with zero lines. -/
def rowModeH (q : Req) (s : State) : Reply :=
  let f := q.f 0 2
  let m := q.f 2 1
  checked [(decide (f < 16 ∨ 767 < f ∨ 1 < m), 0x5101), (rowOwned s f, 0x5131)]
    (.ok (fillRow f { s with mem := { s.mem with rowMode := spSet .spread s.mem.rowMode f (if m = 0 then .spread else .pinned) } }) [])

/-- The entry of command 0x0206 in its table. -/
def cmdRowMode : Cmd :=
  { opcode := 0x0206, cls := 1, d := false, named := fun _ => [(0, 2), (2, 1)] }

def execRowMode (sub : Submission) (s : State) : Host.Outcome State Fault Refusal :=
  mail cmdRowMode rowModeH sub s

/-- A page cannot be taken: it does not exist, is not free or still being filled, its home is Absent, or it is Pinned on a channel of
another (R377, 03 R66). -/
def cannotTake (s : State) (p g : Nat) : Bool :=
  decide (stackEnd / 0x200000 ≤ g) || pageOwner s g != .free || mem g s.mem.filling || !unitPresent s.units.chan (homeOf g)
    || (pagePinned s g && !mem (homeOf g) (getPart s p).chans)

/-- A list with a repeat. -/
def hasRepeat (l : List Nat) : Bool := decide ((dedup l).length ≠ l.length)

/-- A page is in use by its partition: in its KV pool, or mapped. -/
def pageInUse (pt : Part) (g : Nat) : Bool := mem g pt.pool || pt.ptab.any (fun e => ptePage e == g)

/-- PART PAGES; a page named twice counts once (log entry 117). -/
def pagesH (q : Req) (s : State) : Reply :=
  let p := q.f 0 1
  let n := q.f 2 2
  let gs := dedup (q.list 4 4 n)
  let pt := getPart s p
  let take := q.f 1 1 == 0
  checked (partChecks s q existing ++ [(decide (1 < q.f 1 1 ∨ n < 1 ∨ 1019 < n), 0x5101),
      (gs.any (fun g => if take then cannotTake s p g else pageOwner s g != .part p), 0x5130),
      (!take && gs.any (pageInUse pt), 0x5131)])
    (if take then .ok (gs.foldl (fun t g => setOwner g (.part p) t) s) []
     else .ok (returnPages gs (modPart p (fun x => { x with weights := x.weights.filter (fun g => !mem g gs) }) s)) [])

/-- The entry of command 0x0207 in its table. -/
def cmdPages : Cmd :=
  { opcode := 0x0207, cls := 1, d := false, named := fun q => [(0, 1), (1, 1), (2, 2), (4, 4 * q.f 2 2)], part := part0 }

def execPages (sub : Submission) (s : State) : Host.Outcome State Fault Refusal :=
  mail cmdPages pagesH sub s

/-- Two returned pages whose fills follow one another: Pinned pages of one channel, or Spread pages (03 R462). -/
def sameFills (s : State) (a b : Nat) : Bool := (pagePinned s a == pagePinned s b) && (!pagePinned s a || homeOf a == homeOf b)

/-- The fill of a page is the next to end: no page named before it waits for the same fills (03 R462). -/
def nextFill (s : State) (page : Nat) : Bool := (s.mem.filling.find? (sameFills s page)) == some page

/-- PAGE_FREED: the fill of a returned page is done, and it is free; the fills run in the order in which the pages were named (03
R462), and not while Ifewin restarts (01 R19). -/
def pageFreed (page : Nat) (s : State) : State :=
  if nextFill s page && !s.sb.restarting then fillPage page { s with mem := { s.mem with filling := s.mem.filling.filter (· != page) } } else s

def execPageFreed (page : Nat) (s : State) : Host.Outcome State Fault Refusal :=
  onUnit "page" page (stackEnd / 0x200000) (.next (pageFreed page s))

/-! ### Mappings (07 R194, R195, R198) -/

/-- The regions of 2 MiB in which a page table has an entry of a size. -/
def regionHas (t : List Pte) (va : Nat) (small : Bool) : Bool := t.any (fun e => e.va / 0x200000 == va / 0x200000 && e.bits.getLsbD 1 == small)

/-- A map request installs an entry unless a case of R195 holds. -/
def mapOk (s : State) (p : Nat) (t : List Pte) (va : Nat) (e : BitVec 64) : Bool :=
  let small := e.getLsbD 1
  let page := pageOf (pteBase e)
  e.getLsbD 0 && fld e.toNat 63 48 == 0 && fld e.toNat 15 6 == 0 && decide (va < vaEnd) && decide (va % pteSize e = 0)
    && decide (pteBase e % pteSize e = 0) && ownerPart s page == some p && !(small && !pagePinned s page)
    && (pteAt t va).isNone && !regionHas t va (!small)

/-- An entry in its place by VA. -/
def addPte (va : Nat) (e : BitVec 64) (t : List Pte) : List Pte := insertBy (fun a b => decide (a.va ≤ b.va)) { va := va, bits := e } t

/-- All entries of a request installed, or none. -/
def mapAll (s : State) (p : Nat) : List (Nat × BitVec 64) → List Pte → Option (List Pte)
  | [], t => some t
  | (va, e) :: l, t => if mapOk s p t va e then mapAll s p l (addPte va e t) else none

/-- PART MAP. -/
def mapH (q : Req) (s : State) : Reply :=
  let p := q.f 0 1
  let n := q.f 2 2
  let l := (List.range n).map (fun i => (q.f (16 + 16 * i) 8, BitVec.ofNat 64 (q.f (24 + 16 * i) 8)))
  checked (partChecks s q existing ++ [(decide (n < 1 ∨ 254 < n), 0x5101)])
    (match mapAll s p l (getPart s p).ptab with
      | none => .no 0x5140
      | some t => .ok (modPart p (fun x => { x with ptab := t }) s) [])

/-- The entry of command 0x0208 in its table. -/
def cmdMap : Cmd :=
  { opcode := 0x0208, cls := 1, d := false, named := fun q => [(0, 1), (2, 2), (16, 16 * q.f 2 2)], part := part0 }

def execMap (sub : Submission) (s : State) : Host.Outcome State Fault Refusal :=
  mail cmdMap mapH sub s

/-- A VA lies in an area. -/
def inArea (a : Option Area) (va : Nat) : Bool := match a with
  | some x => decide (x.va ≤ va ∧ va < x.va + 0x10000 * x.units)
  | none => false

/-- A VA lies in one of the areas that stay mapped (R378). -/
def inAreas (pr : Params) (va : Nat) : Bool := inArea pr.kvArea va || inArea pr.ttArea va || inArea pr.collArea va

/-- A VA is the start of a 64 KiB entry of a KV pool page (08 R211). -/
def poolEntry (pt : Part) (va : Nat) : Bool := pt.ptab.any (fun e => e.va == va && e.bits.getLsbD 1 && mem (ptePage e) pt.pool)

/-- PART UNMAP: nothing more is launched until it ends (07 R198). -/
def unmapH (q : Req) (s : State) : Reply :=
  let p := q.f 0 1
  let n := q.f 2 2
  let vas := q.list 8 8 n
  let pt := getPart s p
  checked (partChecks s q existing ++ [(decide (n < 1 ∨ 509 < n) || vas.any (fun v => decide (v % 0x10000 ≠ 0 ∨ vaEnd ≤ v)), 0x5101),
      (vas.any (poolEntry pt) || (inState pt [.serving, .draining, .halted] && vas.any (inAreas pt.params)), 0x5131)])
    (.op (modPart p (fun x => { x with unmapping := true, unmapVas := vas }) s) (some p) [])

/-- The entry of command 0x0209 in its table. -/
def cmdUnmap : Cmd :=
  { opcode := 0x0209, cls := 1, d := false, named := fun q => [(0, 1), (2, 2), (8, 8 * q.f 2 2)], part := part0 }

def execUnmap (sub : Submission) (s : State) : Host.Outcome State Fault Refusal :=
  mail cmdUnmap unmapH sub s

/-- An area that an unmap touches becomes unset (R378). -/
def keepArea (vas : List Nat) (a : Option Area) : Option Area := if vas.any (inArea a) then none else a

/-- What an unmap does to its partition: the entries that start at its VAs go, with the areas they lie in. -/
def unmapPart (pt : Part) : Part :=
  let vas := pt.unmapVas
  { pt with
    unmapping := false, unmapVas := [], ptab := pt.ptab.filter (fun e => !mem e.va vas),
    params := { pt.params with kvArea := keepArea vas pt.params.kvArea, ttArea := keepArea vas pt.params.ttArea,
                               collArea := keepArea vas pt.params.collArea } }

/-- UNMAP_DONE: no kernel of the partition runs and every SCU command it dispatched has completed (07 R198), and
Ifewin runs (01 R19). -/
def unmapDone (p : Nat) (s : State) : State :=
  let pt := getPart s p
  if pt.unmapping && pt.kernel.isNone && !scuBusy s p && !s.sb.restarting then endOps p 0x0209 0 (modPart p unmapPart s) else s

def execUnmapDone (p : Nat) (s : State) : Host.Outcome State Fault Refusal := onPart p (.next (unmapDone p s))

/-! ### The KV pool (08 R211) -/

/-- Each 64 KiB page of a page is mapped by exactly one 64 KiB entry, with R, W and SCU. -/
def poolMapped (t : List Pte) (g : Nat) : Bool :=
  (List.range 32).all (fun i =>
    let es := t.filter (fun e => e.bits.getLsbD 1 && pteBase e.bits / 0x10000 == 32 * g + i)
    es.length == 1 && es.all (fun e => e.bits.getLsbD 2 && e.bits.getLsbD 3 && e.bits.getLsbD 4))

/-- Every 64 KiB page of a pool page is free. -/
def poolFree (pt : Part) (g : Nat) : Bool := (List.range 32).all (fun i => (spGet? pt.kvUse (32 * g + i)).isNone && !mem (32 * g + i) pt.kvFill)

/-- PART KV_POOL; a page named twice counts once (log entry 117). -/
def kvPoolH (q : Req) (s : State) : Reply :=
  let p := q.f 0 1
  let n := q.f 2 2
  let gs := dedup (q.list 4 4 n)
  let pt := getPart s p
  let add := q.f 1 1 == 0
  checked (partChecks s q existing ++ [(decide (1 < q.f 1 1 ∨ n < 1 ∨ 1019 < n), 0x5101),
      (add && gs.any (fun g => pageOwner s g != .part p), 0x5130),
      (gs.any (fun g => if add then mem g pt.pool || !pagePinned s g || !poolMapped pt.ptab g
        else !mem g pt.pool || !poolFree pt g), 0x5131)])
    (.ok (modPart p (fun x => { x with pool := if add then x.pool ++ gs else x.pool.filter (fun g => !mem g gs) }) s) [])

/-- The entry of command 0x020A in its table. -/
def cmdKvPool : Cmd :=
  { opcode := 0x020A, cls := 1, d := false, named := fun q => [(0, 1), (1, 1), (2, 2), (4, 4 * q.f 2 2)], part := part0 }

def execKvPool (sub : Submission) (s : State) : Host.Outcome State Fault Refusal :=
  mail cmdKvPool kvPoolH sub s

/-! ### States (09 R246, R247; 13 R343) -/

/-- An image's LCORES, LCHANNELS and ORDER are met by a partition as it is now (06 R174). -/
def imageFits (s : State) (pt : Part) (i : Image) : Bool :=
  decide (i.lcores ≤ (presentOf s.units.core pt.cores).length) && decide (i.lchannels ≤ (presentOf s.units.chan pt.chans).length)
    && (i.order == 0 || (i.order == 1 && pt.params.ordered) || (i.order == 2 && !pt.params.ordered))

/-- The image that a start chooses: of those that fit the one with the largest LCORES, the first of equals. -/
def chooseImage (s : State) (pt : Part) : Option Nat :=
  match pt.model with
  | none => none
  | some m =>
    ((List.range m.images.length).zip m.images).foldl (fun (a : Option (Nat × Nat)) e =>
      if imageFits s pt e.2 then match a with
        | some (_, k) => if k < e.2.lcores then some (e.1, e.2.lcores) else a
        | none => some (e.1, e.2.lcores)
      else a) none |>.map (·.1)

/-- The parameters that a start needs are set and usable (R378). -/
def startable (s : State) (pt : Part) : Bool :=
  let pr := pt.params
  match pr.logits, pr.lpitch with
  | some va, some pitch =>
    pr.kvArea.isSome && pr.ttArea.isSome && pr.collArea.isSome && ((geomOf pt).isNone || !pt.pool.isEmpty)
      && decide (4 * vocabOf pt ≤ pitch)
      && rangeMapped s pt.ptab (fun b => b.getLsbD 2 && b.getLsbD 3) (pt.ptab.length + 1) va (va + pitch * pr.stepRows)
  | _, _ => false

/-- The directories of the sessions that have none are placed; none when one does not fit (08 R210). -/
def placeDirs (p : Nat) (s : State) : Option State :=
  if (geomOf (getPart s p)).isNone then some s
  else (sessOf s p).foldl (fun acc n => acc.bind (fun t =>
    if (getSess t n).dirSize ≠ 0 then some t else if (dirPlace t p).isNone then none else some (placeDir p n t))) (some s)

/-- PART START. -/
def partStartH (q : Req) (s : State) : Reply :=
  let p := q.f 0 1
  let pt := getPart s p
  checked (partChecks s q [.drained] ++ [(s.boot.domainsOff, 0x5130), (!startable s pt, 0x5131)])
    (match chooseImage s pt, placeDirs p s with
      | none, _ => .no 0x1172
      | some _, none => .no 0x5131
      | some i, some s1 => .ok (modPart p (fun x => { x with st := .serving, imageUse := i }) s1) (leBytes i 1))

/-- The entry of command 0x020B in its table. -/
def cmdPartStart : Cmd :=
  { opcode := 0x020B, cls := 1, d := true, named := fun _ => [(0, 1)], part := part0, needs := fun q s => (getPart s (q.f 0 1)).cores.map (fun n => (1, n)) }

def execPartStart (sub : Submission) (s : State) : Host.Outcome State Fault Refusal :=
  mail cmdPartStart partStartH sub s

/-- PART DRAIN: a Serving partition begins to drain; a Halted one is Drained at once, and CUT ends the requests still open (05 R141). -/
def partDrainH (q : Req) (s : State) : Reply :=
  let p := q.f 0 1
  let cut := q.f 1 1 == 1
  checked (partChecks s q [.serving, .halted] ++ [(decide (1 < q.f 1 1), 0x5101)])
    (if (getPart s p).st = .halted then
      let s1 := if cut then retryAll p 0x4120 (breakGroupsOf p s) else s
      .op (modPart p (fun x => { x with st := .drained }) s1) (some p) []
    else .op (beginDrain p cut s) (some p) [])

/-- The entry of command 0x020C in its table. -/
def cmdPartDrain : Cmd :=
  { opcode := 0x020C, cls := 1, d := true, named := fun _ => [(0, 1), (1, 1)], part := part0 }

def execPartDrain (sub : Submission) (s : State) : Host.Outcome State Fault Refusal :=
  mail cmdPartDrain partDrainH sub s

/-- PART RESUME (05 R141). -/
def partResumeH (q : Req) (s : State) : Reply :=
  checked (partChecks s q [.halted] ++ [(s.boot.domainsOff, 0x5130)]) (.ok (modPart (q.f 0 1) (fun x => { x with st := .serving }) s) [])

/-- The entry of command 0x020D in its table. -/
def cmdPartResume : Cmd :=
  { opcode := 0x020D, cls := 1, d := true, named := fun _ => [(0, 1)], part := part0 }

def execPartResume (sub : Submission) (s : State) : Host.Outcome State Fault Refusal :=
  mail cmdPartResume partResumeH sub s

/-- PART ABORT (05 R142). -/
def partAbortH (q : Req) (s : State) : Reply :=
  checked (partChecks s q [.drained, .serving, .draining, .halted]) (.ok (abortPart (q.f 0 1) s) [])

/-- The entry of command 0x020E in its table. -/
def cmdPartAbort : Cmd :=
  { opcode := 0x020E, cls := 1, d := true, named := fun _ => [(0, 1)], part := part0 }

def execPartAbort (sub : Submission) (s : State) : Host.Outcome State Fault Refusal :=
  mail cmdPartAbort partAbortH sub s

/-! ### STATUS -/

/-- The 512 bits of a halt record (05 R140). -/
def HaltRec.toNat (r : HaltRec) : Nat :=
  put r.command.toNat 256 + put (r.tHalt % 2 ^ 64) 192 + put (r.faultVa % 2 ^ 48) 144 + put (r.pushed % 2 ^ 48) 96
  + put (r.ordinal % 2 ^ 48) 48 + put r.slot 36 + put (b2n r.part) 35 + put (b2n r.ctrl) 34 + put r.queue 32 + put r.lcore 24
  + put r.core 16 + r.code

/-- The 512 bits of a step record (09 R252). -/
def StepRec.toNat (r : StepRec) : Nat :=
  let ev := ((List.range 4).zip r.events).foldl (fun a e => a + put e.2.toNat (96 + 5 * e.1)) 0
  let po := ((List.range 4).zip r.poison).foldl (fun a e => a + put (b2n e.2) (116 + e.1)) 0
  put (r.tEnd % 2 ^ 64) 256 + put (r.tLaunch % 2 ^ 64) 192 + put (r.posted % 2 ^ 32) 152 + put (r.rows % 2 ^ 32) 120 + po + ev
  + put r.code 80 + r.no % 2 ^ 80

/-- The code of a partition's state in the order of R246. -/
def PState.code : PState → Nat
  | .absent => 0
  | .empty => 0
  | .drained => 1
  | .serving => 2
  | .draining => 3
  | .halted => 4

/-- A list of records in a response: their number, and the records from +16. -/
def recPayload (l : List Nat) : List Byte := leBytes l.length 2 ++ List.replicate 14 0 ++ l.flatMap (fun r => leBytes r 64)

/-- The summary of PART STATUS. -/
def partSummary (s : State) (p : Nat) : List Byte :=
  let pt := getPart s p
  leBytes pt.st.code 1 ++ leBytes (b2n pt.params.ordered) 1 ++ leBytes pt.imageUse 1 ++ [0] ++ leBytes (openOf s p).length 4
  ++ leBytes pt.stepNo 8 ++ leBytes (maskOf pt.cores) 18 ++ List.replicate 6 0 ++ leBytes (maskOf pt.slices) 8 ++ leBytes (maskOf pt.chans) 32

/-- PART STATUS. -/
def partStatusH (q : Req) (s : State) : Reply :=
  let p := q.f 0 1
  let pt := getPart s p
  let what := q.f 1 1
  let mx := q.f 6 2
  let recs := if what = 1 then pt.haltRecs.map HaltRec.toNat else pt.stepRecs.map StepRec.toNat
  checked (partChecks s q existing ++ [(decide (2 < what ∨ mx < 1 ∨ 63 < mx), 0x5101)])
    (.ok s (if what = 0 then partSummary s p else recPayload ((recs.drop (q.f 4 2)).take mx)))

/-- The entry of command 0x020F in its table. -/
def cmdPartStatus : Cmd :=
  { opcode := 0x020F, cls := 0, d := true, named := fun _ => [(0, 1), (1, 1), (4, 2), (6, 2)] }

def execPartStatus (sub : Submission) (s : State) : Host.Outcome State Fault Refusal :=
  mail cmdPartStatus partStatusH sub s

end Sys2Proof.Machine
end

