-- ==== Sys2Proof/Machine/Mirror.lean ====
section
/-!
DEFINITION. What waits for a buddy's acknowledgement (13 R347, R348): the rows and postings of a mirrored session, their release, and a
partition that becomes Unprotected.
-/

namespace Sys2Proof.Machine

/-- The postings of a session whose log entries the buddy holds go to its completion ring. -/
def releaseHeld (n : Nat) (s : State) : State :=
  let x := getSess s n
  let go := x.held.takeWhile (fun p => decide (p.need ≤ x.mirAcked))
  go.foldl (fun t p => ringPost x.compRing p t) (modSess n (fun y => { y with held := y.held.drop go.length }) s)

/-- The input rows that waited are committed once every log entry is acknowledged. -/
def releaseRows (n : Nat) (s : State) : State :=
  let x := getSess s n
  if x.mirRows = 0 ∨ x.mirAcked < x.log.length then s
  else modSessDir x.part n (fun y => { commitRows y.mirRows y with mirRows := 0 }) s

/-- The buddy holds a session's log up to a length. -/
def ackSess (n upTo : Nat) (s : State) : State :=
  releaseHeld n (releaseRows n (modSess n (fun x => { x with mirAcked := max x.mirAcked (min upTo x.log.length) }) s))

/-- The mirrored sessions of a partition. -/
def mirrored (s : State) (p : Nat) : List Nat := (sessOf s p).filter (fun n => (getSess s n).mirror)

/-- A session goes on without waiting for its buddy. -/
def letGo (n : Nat) (s : State) : State :=
  modSess n (fun x => { x with mirLive := false }) (ackSess n (getSess s n).log.length s)

/-- The mirrored sessions of a partition become Unprotected: 0x3150, and nothing waits (R348). -/
def unprotect (p : Nat) (s : State) : State :=
  let pt := getPart s p
  if pt.buddy.isNone || (pt.unprotected && !pt.syncing) then s
  else
    let s1 := modPart p (fun x => { x with unprotected := true, syncing := false }) s
    post 0x3150 5 p ((mirrored s1 p).foldl (fun t n => letGo n t) s1)

/-- Every partition whose buddy is a device. -/
def partsWithBuddy (s : State) (b : Nat) : List Nat := (List.range 16).filter (fun p => (getPart s p).buddy == some b)

end Sys2Proof.Machine
end

