-- ==== Sys2Proof/Machine/Heat.lean ====
section
/-!
DEFINITION. Power and heat (16): the power samples and the clamp (R403, R411), the thermal model and its diodes (R404 to R406), the
duty ticks (R410), the brake (R412), refresh (R413), the orderly stop (R414) and the thermal trip (R415).
-/

namespace Sys2Proof.Machine

/-- The next tick of a period: the model's time moves to it, unless it is there already (log entry 2). -/
def tickTo (period last : Nat) (s : State) : State := timeTo ((last + 1) * period) s

/-! ### Power (R403, R411) -/

def sumOf (l : List Nat) : Nat := l.foldl (· + ·) 0

/-- The mean over the last k samples of the sum of some domains, in mW; 0 before the first sample. -/
def meanOf (samples : List (List Nat)) (k : Nat) (f : List Nat → Nat) : Nat :=
  let l := lastN k samples
  if l.isEmpty then 0 else sumOf (l.map f) / l.length

/-- Package power in mW: over the last 100 samples, and over the last 10 (R403, R411). -/
def pkgPower (s : State) : Nat := meanOf s.heat.samples 100 sumOf
def pkgPower10 (s : State) : Nat := meanOf s.heat.samples 10 sumOf

/-- The power of n domains from number i on, over the last 1 ms. -/
def domainPower (s : State) (i n : Nat) : Nat := meanOf s.heat.samples 100 (fun l => sumOf ((l.drop i).take n))

/-- The clamp after a sample: it acts when the last 10 samples exceed the limit, with the factor that brings the power to 0.92 of it
(log entry 21), and while it acts, the time since the stepped duties alone stay at or below 0.95 of the limit. -/
def clampStep (s : State) : State :=
  let P := pkgPower10 s
  let L := pkgLimit s
  match s.heat.clamp with
  | none => if 1000 * L < P then { s with heat := { s.heat with clamp := some (max 500 (920000 * L / P)), clampOkSince := none } } else s
  | some f =>
    { s with heat := { s.heat with clampOkSince := if 100 * P ≤ 95 * L * f then some (s.heat.clampOkSince.getD s.ftime) else none } }

/-- POWER_SAMPLE: the 498 domains' powers in mW, in the rows of 01 R27. -/
def execPowerSample (mw : List Nat) (s : State) : Host.Outcome State Fault Refusal :=
  let s1 := tickTo 10000 s.heat.sampleTick s
  let l := (List.range 498).map (fun i => (mw[i]?).getD 0)
  .next (clampStep { s1 with heat := { s1.heat with sampleTick := s1.ftime / 10000, samples := lastN 100 (s1.heat.samples ++ [l]) } })

/-- CLAMP_RELEASE: the stepped duties alone have kept the power for 1 ms (R411). -/
def execClampRelease (s : State) : Host.Outcome State Fault Refusal :=
  .next (match s.heat.clamp, s.heat.clampOkSince with
    | some _, some t => let s1 := timeTo (t + 1000000) s; { s1 with heat := { s1.heat with clamp := none, clampOkSince := none } }
    | _, _ => s)

/-! ### Nodes, regions and temperatures (R404 to R406) -/

/-- The region of a node: quadrants 0 to 3, stacks 4 to 11; the other nodes lie in none. -/
def nodeRegion (n : Nat) : Option Nat :=
  if n < 144 then some (n / 36) else if n < 208 then some ((n - 144) / 16) else if n < 212 then some (n - 208)
  else if 234 ≤ n ∧ n < 362 then some (4 + (n - 234) / 16) else none

/-- The region of a diode: 12 in each quadrant, then 6 in each stack. -/
def diodeRegion (d : Nat) : Nat := if d < 48 then d / 12 else 4 + (d - 48) / 6

/-- The diodes of a region. -/
def regionDiodes (r : Nat) : List Nat := if r < 4 then (List.range 12).map (fun i => 12 * r + i) else (List.range 6).map (fun i => 48 + 6 * (r - 4) + i)

/-- A diode. -/
def diode (s : State) (d : Nat) : Diode := spGet {} s.heat.diodes d

/-- The healthy diodes of a region. -/
def healthyDiodes (s : State) (r : Nat) : List Nat := (regionDiodes r).filter (fun d => (diode s d).healthy)

/-- 25 degrees, at which the model starts (log entry 7). -/
def coldTemp : Int := 400

/-- The offset of a region in 1/16 degree. -/
def offsetOf (s : State) (r : Nat) : Int := spGet 0 s.heat.offsets r / 10

/-- The model's temperature of a node with its region's offset. -/
def modelTemp (s : State) (n : Nat) : Int :=
  spGet coldTemp s.heat.nodes n + (match nodeRegion n with
    | some r => offsetOf s r
    | none => 0)

/-- The hottest of some temperatures, at least d. -/
def hottest (d : Int) (l : List Int) : Int := l.foldl max d

/-- What a node reads (R406): the model's value; in a suspect region at least the hottest healthy diode plus 3 degrees; in one without
healthy diodes the model plus 5. -/
def nodeTemp (s : State) (n : Nat) : Int :=
  let m := modelTemp s n
  match nodeRegion n with
  | none => m
  | some r =>
    let hs := healthyDiodes s r
    if hs.isEmpty then m + 80
    else if mem r s.heat.suspect then hottest m (hs.map (fun d => (diode s d).reading + 48)) else m

/-- The base-die and DRAM-die nodes of a stack. -/
def baseNodes (k : Nat) : List Nat := (List.range 4).map (fun i => 234 + 16 * k + i)
def dramNodes (k : Nat) : List Nat := (List.range 12).map (fun i => 238 + 16 * k + i)

/-- The hottest of some nodes. -/
def hotNode (s : State) (l : List Nat) : Int := match l with
  | [] => coldTemp
  | n :: t => hottest (nodeTemp s n) (t.map (nodeTemp s))

/-- The stack temperature (R404). -/
def stackTemp (s : State) (k : Nat) : Int := hotNode s (dramNodes k)

/-- A DRAM-die node. -/
def isDram (n : Nat) : Bool := decide (234 ≤ n ∧ n < 362 ∧ 4 ≤ (n - 234) % 16)

/-- The throttle, stop and trip thresholds of a node in 1/16 degree (R408). -/
def throttleAt (n : Nat) : Option Int := if isDram n then some 1440 else if n < 214 ∨ (234 ≤ n ∧ n < 362) then some 1520 else none
def stopAt (n : Nat) : Option Int := if isDram n then some 1568 else if n < 362 then some 1680 else none
def tripAt (n : Nat) : Option Int := if isDram n then some 1680 else if n < 362 then some 1840 else none

/-- The nodes of a duty group: the cores of a quadrant, or a stack's dies. -/
def groupNodes (g : Nat) : List Nat := if g < 4 then (List.range 36).map (fun i => 36 * g + i) else baseNodes (g - 4) ++ dramNodes (g - 4)

/-- The margin of a group: the least distance of its nodes below their throttle thresholds (R408). -/
def marginOf (s : State) (g : Nat) : Int :=
  ((groupNodes g).map (fun n => (throttleAt n).getD 0 - nodeTemp s n)).foldl min 100000

/-- A group is hot: some node is at or above its throttle threshold. -/
def groupHot (s : State) (g : Nat) : Bool := (groupNodes g).any (fun n => decide ((throttleAt n).getD 0 ≤ nodeTemp s n))

/-- The hottest node of a group is at or below its release temperature, 3 degrees below the threshold. -/
def groupReleased (s : State) (g : Nat) : Bool := (groupNodes g).all (fun n => decide (nodeTemp s n + 48 ≤ (throttleAt n).getD 0))

/-! ### Domains off -/

/-- The ports go off: one that was Up reports its departure (11 R288). -/
def portsLost (s : State) : State :=
  (s.fab.ports.filter (fun e => portUp e.2)).foldl (fun t e => portEvent 0x0302 e.1 e.2.partner t) s

/-- What is lost in the domains that a stop switches off: cores, slices, SCU queues and the kernels they ran. -/
def domainsLost (s0 : State) : State :=
  let s := portsLost s0
  { s with
    cores := [], cache := {},
    chans := (s.chans.map (fun e => (e.1, { e.2 with queue := [], wbQ := [], testQ := [] }))).filter (fun e => e.2 != ({} : Chan)),
    parts := s.parts.map (fun e => (e.1, { e.2 with kernel := none, step := none, coll := [] })),
    fab := { s.fab with ports := s.fab.ports.map (fun e => (e.1, { e.2 with st := .disabled, good := 0, level := 0, credit := [], tx := [], bufWritten := false })) } }

/-- Every domain but PCIe and always-on goes off (R414 step 5); what recorded it is `cause` of LAST_STOP. -/
def domainsDown (cause : Nat) (s : State) : State :=
  let s1 := domainsLost s
  rewriteReport { s1 with boot := { s1.boot with phase := .stopped, domainsOff := true, lastStop := cause } }

/-- Every domain but always-on goes off at once (R415, 18 R451): BAR0 does not answer, the Dispatcher's state is lost. -/
def allDown (cause : Nat) (s : State) : State :=
  let s1 := domainsDown cause s
  { s1 with
    boot := { s1.boot with pcieOff := true }, rings := [], sess := [],
    host := { s1.host with linkUp := false } }

/-! ### The orderly stop (R414) -/

/-- Every group at d = 0.20. -/
def floorAll (s : State) : State :=
  (List.range 12).foldl (fun t g => { t with heat := { t.heat with groups := spMod {} t.heat.groups g (fun x => { x with duty := 10 }) } }) s

/-- The keys and members of the Formed groups of the device, and the notice that abandons them (step 4, 11 R310). -/
def abandonNotices (gs : List (Nat × Group)) (s : State) : State :=
  gs.foldl (fun t e => (dedup (e.2.members.map (·.1))).foldl (fun t d =>
    if d = s.fab.ident.toNat then t else sendNotice "abandon" d [e.2.key.toNat] t) t) s

/-- The device stops in order. It carries out every step at once; a buddy that has not acknowledged by then leaves its sessions
Unprotected (step 3, log entry 58). -/
def thermalStop (s : State) : State :=
  let formed := s.fab.groups.filter (fun e => e.2.st == .formed)
  let s1 := thSet 1 (postRec { code := 0x6210 } [1, 2, 3] (floorAll { s with heat := { s.heat with stopping := true } }))
  let s2 := (abortable s1).foldl (fun t p => abortWith p 0x6210 0x1150 t) s1
  let s3 := (List.range 16).foldl (fun t p => if (mirrored t p).any (fun n => !(getSess t n).held.isEmpty) then unprotect p t else t) s2
  let s4 := departNotices (abandonNotices formed s3)
  domainsDown 2 { s4 with host := { s4.host with alertAon := true } }

/-- A stack passes 85 degrees up or down: its refresh interval changes (R413). -/
def refreshStep (k : Nat) (s : State) : State :=
  let hot := decide (1360 < stackTemp s k)
  if hot = mem k s.heat.hotStacks then s
  else if hot then post 0x0604 9 k { s with heat := { s.heat with hotStacks := sortNat (k :: s.heat.hotStacks) } }
  else post 0x0605 9 k { s with heat := { s.heat with hotStacks := s.heat.hotStacks.filter (· != k) } }

/-- A node at or above its stop threshold. -/
def mustStop (s : State) : Bool := (List.range 362).any (fun n => match stopAt n with
  | some t => decide (t ≤ nodeTemp s n)
  | none => false)

/-- The last sample of the domains' powers. -/
def lastSample (s : State) : List Nat := (s.heat.samples.getLast?).getD (List.replicate 498 0)

/-- THERMAL_MODEL_UPDATE: every node from the temperatures and the measured powers (R404, log entry 21). -/
def thermalModelUpdate (s : State) : State :=
  let s1 := tickTo 10000 s.heat.modelTick s
  let temps := (List.range 512).map (fun n => spGet coldTemp s.heat.nodes n)
  let ns := (List.range 512).foldl (fun m n => spSet coldTemp m n (Config.thermalStep n temps (lastSample s))) []
  let s2 := { s1 with heat := { s1.heat with nodes := ns, modelTick := s1.ftime / 10000 } }
  let s3 := if s2.boot.domainsOff then s2 else (List.range 8).foldl (fun t k => refreshStep k t) s2
  if s3.boot.domainsOff || s3.heat.stopping || !mustStop s3 then s3 else thermalStop s3

def execThermalModelUpdate (s : State) : Host.Outcome State Fault Refusal := .next (thermalModelUpdate s)

/-! ### Diodes (R405, R406) -/

/-- The median of some temperatures: of an even number, the mean of the middle two. -/
def median (l : List Int) : Int :=
  let t := sortBy (fun a b => decide (a ≤ b)) l
  let n := t.length
  if n % 2 = 1 then (t[n / 2]?).getD 0 else ((t[n / 2 - 1]?).getD 0 + (t[n / 2]?).getD 0) / 2

/-- The model's temperature at a diode's place. -/
def placeTemp (s : State) (d : Nat) : Int := modelTemp s (Config.diodeNode d % 512)

/-- Two temperatures differ by more than 6 degrees. -/
def farApart (a b : Int) : Bool := decide (96 < a - b ∨ 96 < b - a)

/-- One diode compared with the model and with the other healthy diodes of its region; ten misses in a row break it. -/
def checkDiode (s0 : State) (t : State) (d : Nat) : State :=
  let x := diode t d
  let others := ((healthyDiodes s0 (diodeRegion d)).filter (· != d)).map (fun e => (diode t e).reading)
  if !x.healthy then t
  else
    let miss := farApart x.reading (placeTemp s0 d) && !others.isEmpty && farApart x.reading (median others)
    let y := { x with misses := if miss then x.misses + 1 else 0, healthy := !(miss && decide (10 ≤ x.misses + 1)) }
    let t1 := { t with heat := { t.heat with diodes := spSet {} t.heat.diodes d y } }
    if y.healthy then t1 else thSet 2 (post 0x6201 0 0 t1)

/-- A region after the check: its suspicion (R406). -/
def checkRegion (t : State) (r : Nat) : State :=
  let hs := healthyDiodes t r
  let was := mem r t.heat.suspect
  let far := (hs.filter (fun d => let a := (diode t d).reading; let b := placeTemp t d
    if was then decide (96 ≤ a - b ∨ 96 ≤ b - a) else farApart a b)).length
  let now := decide (hs.length < 2 * far)
  if now = was then t
  else if now then thSet 2 (post 0x6202 0 0 { t with heat := { t.heat with suspect := sortNat (r :: t.heat.suspect) } })
  else { t with heat := { t.heat with suspect := t.heat.suspect.filter (· != r) } }

/-- A number kept within ± b. -/
def within (b x : Int) : Int := max (-b) (min b x)

/-- A region's offset moves by at most 0.1 degree, to at most ± 10 (R406, log entry 21). -/
def moveOffset (t : State) (r : Nat) : State :=
  let hs := healthyDiodes t r
  if hs.isEmpty then t
  else
    let k := Config.offsetStep (hs.map (fun d => (diode t d).reading - placeTemp t d))
    { t with heat := { t.heat with offsets := spMod 0 t.heat.offsets r (fun o => within 1600 (o + within 16 k)) } }

/-- DIODE_CHECK with the 96 readings. -/
def diodeCheck (readings : List Int) (s : State) : State :=
  let s1 := tickTo 1000000 s.heat.diodeTick s
  let ds := (List.range 96).foldl (fun m d => match readings[d]? with
    | some v => spMod {} m d (fun x => { x with reading := v })
    | none => m) s1.heat.diodes
  let s2 := { s1 with heat := { s1.heat with diodes := ds, diodeTick := s1.ftime / 1000000 } }
  (List.range 12).foldl moveOffset ((List.range 12).foldl checkRegion ((List.range 96).foldl (checkDiode s2) s2))

def execDiodeCheck (readings : List Int) (s : State) : Host.Outcome State Fault Refusal := .next (diodeCheck readings s)

/-! ### Duty (R407 to R410) -/

/-- A duty group. -/
def dutyOf (s : State) (g : Nat) : DutyGroup := spGet {} s.heat.groups g

/-- The unit of an event about a group: a stack for an SCU group. -/
def groupUnit (g : Nat) : Nat × Nat := if g < 4 then (0, 0) else (9, g - 4)

/-- An event about a group. -/
def groupPost (code : Code) (g : Nat) (s : State) : State := post code (groupUnit g).1 (groupUnit g).2 s

/-- Changing a group. -/
def modDuty (g : Nat) (f : DutyGroup → DutyGroup) (s : State) : State := { s with heat := { s.heat with groups := spMod {} s.heat.groups g f } }

/-- A group lowered by one step for heat, or for power: its entry into that throttling is reported. -/
def lowerDuty (heat : Bool) (g : Nat) (s : State) : State :=
  let x := dutyOf s g
  let was := if heat then x.heat else x.power
  let s1 := modDuty g (fun x => { x with duty := x.duty - 1, stepsDown := x.stepsDown + 1, heat := x.heat || heat, power := x.power || !heat }) s
  let s2 := if was then s1 else groupPost (if heat then 0x0601 else 0x0602) g s1
  if x.heat || x.power then s2 else thSet 0 s2

/-- A group raised by one step; at 1.00 it is free again. -/
def raiseDuty (g : Nat) (s : State) : State :=
  let x := dutyOf s g
  if x.duty + 1 < 50 then modDuty g (fun x => { x with duty := x.duty + 1 }) s
  else thSet 0 (groupPost 0x0603 g (modDuty g (fun x => { x with duty := 50, heat := false, power := false }) s))

/-- The first group of a list with the least value. -/
def leastBy (f : Nat → Int) : List Nat → Option Nat
  | [] => none
  | g :: t => match leastBy f t with
    | none => some g
    | some h => if f g ≤ f h then some g else some h

/-- The time since a group has stayed at the floor and hot. -/
def floorWatch (g : Nat) (s : State) : State :=
  let at_ := decide ((dutyOf s g).duty = 10) && groupHot s g
  modDuty g (fun x => { x with floorSince := if at_ then some (x.floorSince.getD s.ftime) else none, floorTold := x.floorTold && at_ }) s

/-- DUTY_TICK (R410); while the brake holds nothing rises (R412). -/
def dutyTickRow (s : State) : State :=
  let s0 := tickTo 1000000 s.heat.dutyTick s
  let s1 := { s0 with heat := { s0.heat with dutyTick := s0.ftime / 1000000, limit := some (limitSet s0) } }
  let P := pkgPower s1
  let L := 1000 * pkgLimit s1
  let gs := List.range 12
  let hot := gs.filter (fun g => groupHot s1 g)
  let low := hot.filter (fun g => decide (10 < (dutyOf s1 g).duty))
  let s2 := low.foldl (fun t g => lowerDuty true g t) s1
  let s3 :=
    if L < P then
      match leastBy (marginOf s2) (gs.filter (fun g => decide (10 < (dutyOf s2 g).duty) && !mem g low)) with
      | some g => lowerDuty false g s2
      | none => s2
    else if 100 * P ≤ 98 * L ∧ hot = [] ∧ s2.heat.brake = false then
      match leastBy (fun g => -marginOf s2 g) (gs.filter (fun g => decide ((dutyOf s2 g).duty < 50) && groupReleased s2 g)) with
      | some g => raiseDuty g s2
      | none => s2
    else s2
  gs.foldl (fun t g => floorWatch g t) s3

def execDutyTick (s : State) : Host.Outcome State Fault Refusal := .next (dutyTickRow s)

/-- GROUP_AT_FLOOR: 100 ms at d = 0.20 and hot, reported once (R410). -/
def groupAtFloor (g : Nat) (s : State) : State :=
  match (dutyOf s g).floorSince with
  | some t => if (dutyOf s g).floorTold then s
      else groupPost 0x6220 g (modDuty g (fun x => { x with floorTold := true }) (timeTo (t + 100000000) s))
  | none => s

def execGroupAtFloor (g : Nat) (s : State) : Host.Outcome State Fault Refusal := onUnit "group" g 12 (.next (groupAtFloor g s))

/-! ### Brake and trip (R412, R415) -/

/-- POWER_BRAKE: PWRBRK_N is asserted. -/
def powerBrake (s : State) : State :=
  if s.heat.brake then s
  else thSet 3 (post 0x0606 0 0 (floorAll { s with heat := { s.heat with brake := true }, host := { s.host with pwrbrkHigh := false } }))

def execPowerBrake (s : State) : Host.Outcome State Fault Refusal := .next (powerBrake s)

/-- POWER_BRAKE_RELEASE: the groups rise with the ticks that follow. -/
def execPowerBrakeRelease (s : State) : Host.Outcome State Fault Refusal :=
  .next { s with heat := { s.heat with brake := false }, host := { s.host with pwrbrkHigh := true } }

/-- The trip threshold of a diode's place: the last four diodes of a stack lie in DRAM dies. -/
def diodeTrip (d : Nat) : Int := if 48 ≤ d ∧ 2 ≤ (d - 48) % 6 then 1680 else 1840

/-- The nodes of a region. -/
def regionNodes (r : Nat) : List Nat := (List.range 512).filter (fun n => nodeRegion n == some r)

/-- The comparators of a diode's place fire on two consecutive samples: the diode's, or the model's temperatures where the region has
no healthy diode. -/
def trips (s : State) (d : Nat) (a b : Int) : Bool :=
  let r := diodeRegion d
  if (healthyDiodes s r).isEmpty then (regionNodes r).any (fun n => match tripAt n with
    | some t => decide (t ≤ nodeTemp s n)
    | none => false)
  else (diode s d).healthy && decide (diodeTrip d ≤ a) && decide (diodeTrip d ≤ b)

/-- THERMTRIP: the pin is asserted and every domain but always-on goes off at once. -/
def thermtrip (d : Nat) (a b : Int) (s : State) : State :=
  if trips s d a b && !s.host.thermDrive then
    let s1 := allDown 3 s
    post 0x6211 0 0 { s1 with host := { s1.host with thermDrive := true } }
  else s

def execThermtrip (d : Nat) (a b : Int) (s : State) : Host.Outcome State Fault Refusal := onUnit "diode" d 96 (.next (thermtrip d a b s))

end Sys2Proof.Machine
end

