-- ==== Sys2Proof/Machine/Fabric.lean ====
section
/-!
DEFINITION. The Junction fabric (11 R283 to R300, R310 to R312) and the mirror stream (13 R346 to R348): ports and their training, lanes
and replays, keepalives and notices, forwarding, fabric time, the formation of groups, and both ends of log mirroring.
-/

namespace Sys2Proof.Machine

/-! ### Ports (R284 to R289) -/

/-- A Junction port. -/
def onPort (p : Nat) (k : Host.Outcome State Fault Refusal) : Host.Outcome State Fault Refusal := onUnit "port" p 18 k

/-- The good lanes of a port. -/
def laneCount (g : BitVec 8) : Nat := (bitsOf 8 g.toNat).length

/-- The width that a port's good lanes allow (R286 step 3). -/
def widthOf (g : BitVec 8) : PortState :=
  let n := laneCount g
  if n = 8 then .up8 else if 6 ≤ n then .up6 else if 4 ≤ n then .up4 else .down

/-- The highest level in a set, 0 for none (R297). -/
def topLevel (l : Nat) : Nat := (bitsOf 16 l).foldl (fun a b => max a (b + 1)) 0

/-- A port works: present, its domain on, and enabled. -/
def portLive (s : State) (p : Nat) : Bool := unitOn s s.units.port p && (getPort s p).enabled

/-- The remote atomics whose owner no path reaches any more end with 0x3210 (10 R276). -/
def lostPaths (s : State) : State :=
  (List.range 16).foldl (fun t p => wake p (
    ((getPart t p).coll.filter (fun r => r.started && cOp r.req.toNat == 7)).foldl (fun t r =>
      match groupOf t (cGroup r.req.toNat) with
      | none => t
      | some g => if canSend t (memberIdent g (cRoot r.req.toNat)) then t else collFail p r 0x3210 t) t)) s

/-- A port goes to a state in which it is not Up; from Up it reports the departure of its partner (R288), and what it held for a replay and its
credits end with the link (log entry 94). -/
def leaveUp (p : Nat) (st : PortState) (s : State) : State :=
  let x := getPort s p
  let s1 := modPort p (fun x => { x with st := st, level := 0, sameReplay := 0, credit := [], tx := [] }) s
  if portUp x then lostPaths (portEvent 0x0302 p x.partner s1) else if x.st = st then s1 else rewriteReport s1

/-- PORT_SIGNAL_DETECT: an enabled port that is not Up looks for a signal on at least four lanes (R286 step 1); Ifewin has written its receive
buffer before (12 R323). -/
def portSignalDetect (p : Nat) (lanes : BitVec 8) (s0 : State) : State :=
  let x := getPort s0 p
  let s := modPort p (fun x => { x with bufWritten := true }) s0
  if !portLive s0 p || portUp x || x.st == .training then s0
  else if 4 ≤ laneCount lanes then modPort p (fun x => { x with st := .training, good := lanes }) s
  else leaveUp p .down (modPort p (fun x => { x with good := lanes }) s)

def execPortSignalDetect (p : Nat) (lanes : BitVec 8) (s : State) : Host.Outcome State Fault Refusal := onPort p (.next (portSignalDetect p lanes s))

/-- TRAIN_FAILED: one of steps 2 to 6 exceeded its bound. -/
def trainFailed (p step : Nat) (s : State) : State :=
  if (getPort s p).st = .training ∧ 2 ≤ step ∧ step ≤ 6 then jnSet p (post 0x3101 4 p (leaveUp p .down s)) else s

def execTrainFailed (p step : Nat) (s : State) : Host.Outcome State Fault Refusal := onPort p (.next (trainFailed p step s))

/-- The partner claims this device's own identity (R290). -/
def ownClaimed (s : State) (rec : BitVec 256) : Bool := s.fab.assigned && rec.getLsbD 25 && fld rec.toNat 15 0 == s.fab.ident.toNat

/-- The neighbour record that this device sends on a port (R287). -/
def ownRecord (s : State) (p : Nat) : Nat :=
  put s.fab.timeState 164 + put s.fab.stratum 160 + put s.fuse.serial.toNat 96 + put (runningImage s).version.toNat 64 + put (ownLevels s) 32
  + put (b2n s.fab.assigned) 25 + put p 16 + s.fab.ident.toNat

/-- NEIGHBOUR_ARRIVED: the end of training (R286 steps 3 to 6): the lanes that passed, the exchange of neighbour records on VC0, and the
partner's record. -/
def neighbourArrived (p : Nat) (good : BitVec 8) (rec : BitVec 256) (s : State) : State :=
  if (getPort s p).st ≠ .training ∨ portLive s p = false then s
  else
    let w := widthOf good
    let lv := topLevel (ownLevels s &&& fld rec.toNat 47 32)
    let s0 := if w = .down then s else sendLink p "neighbour record" (leBytes (ownRecord s p) 32) s
    let s1 := modPort p (fun x => { x with good := good, partner := rec }) s0
    if w = .down then jnSet p (post 0x3101 4 p (leaveUp p .down s1))
    else if ownClaimed s rec then jnSet p (post 0x3103 4 p (leaveUp p .conflict s1))
    else if lv = 0 then jnSet p (post 0x3102 4 p (leaveUp p .incompatible s1))
    else portEvent 0x0301 p rec (modPort p (fun x => { x with st := w, level := lv }) s1)

def execNeighbourArrived (p : Nat) (good : BitVec 8) (rec : BitVec 256) (s : State) : Host.Outcome State Fault Refusal :=
  onPort p (.next (neighbourArrived p good rec s))

/-- An Up port restripes to the width that its good lanes allow; traffic resumes from the replay buffer (R289). -/
def restripe (p : Nat) (good : BitVec 8) (s : State) : State :=
  let x := getPort s p
  let w := widthOf good
  let s1 := modPort p (fun x => { x with good := good }) s
  if w = .down then leaveUp p .down s1
  else
    let s2 := modPort p (fun x => { x with st := w, restripes := x.restripes + 1 }) s1
    if w = x.st then s2 else portEvent 0x0303 p 0 s2

/-- A lane of an Up port is found bad. -/
def laneBad (p lane : Nat) (s : State) : State :=
  let x := getPort s p
  if portUp x && x.good.getLsbD lane then restripe p (x.good &&& ~~~bitOf 8 lane) s else s

def execLaneBad (p lane : Nat) (s : State) : Host.Outcome State Fault Refusal := onPort p (onUnit "lane" lane 8 (.next (laneBad p lane s)))

/-- LANE_RETRAIN: the bad lanes that pass are good again; the port widens when enough of them do (R289). -/
def laneRetrain (p : Nat) (pass : BitVec 8) (s : State) : State :=
  let x := getPort s p
  let g := x.good ||| pass
  if !portUp x || x.st == .up8 then s else if widthOf g = x.st then modPort p (fun x => { x with good := g }) s else restripe p g s

def execLaneRetrain (p : Nat) (pass : BitVec 8) (s : State) : Host.Outcome State Fault Refusal := onPort p (.next (laneRetrain p pass s))

/-- The codewords that a port holds from a sequence number on. -/
def heldFrom (x : Port) (seq : Nat) : List Codeword :=
  if x.tx.any (fun c => c.seq == seq) then x.tx.filter (fun c => decide (seq ≤ c.seq)) else []

/-- CODEWORD_REPLAY: the partner asks for a codeword again, and what the port holds from it on is sent once more. The 64th replay of one codeword
in a row has the lanes diagnosed, and those found bad taken away (R284). -/
def codewordReplay (p seq : Nat) (bad : BitVec 8) (s : State) : State :=
  let x := getPort s p
  let again := heldFrom x seq
  let n := if x.sameReplay ≠ 0 ∧ x.lastSeq = seq then x.sameReplay + 1 else 1
  let s1 := again.foldl (fun t c => emit (.codeword p c) t)
    (modPort p (fun x => { x with replays := x.replays + again.length, lastSeq := seq, sameReplay := if n = 64 then 0 else n }) s)
  if n = 64 ∧ x.good &&& bad ≠ 0 then restripe p (x.good &&& ~~~bad) s1 else s1

/-- A replay that the partner asks for, or one that this device's receiver asks for. -/
def execCodewordReplay (p seq : Nat) (ask : Replay) (s : State) : Host.Outcome State Fault Refusal :=
  onPort p (.next (if !portUp (getPort s p) then s
    else match ask with
      | .own => sendLink p "replay request" (leBytes seq 8) s
      | .partner bad => codewordReplay p seq bad s))

/-- LINK_KEEPALIVE: sent on every port that R285 lets carry it. -/
def execLinkKeepalive (p : Nat) (s : State) : Host.Outcome State Fault Refusal :=
  let x := getPort s p
  onPort p (.next (if portUp x || x.st == .incompatible then sendLink p "keepalive" [] s else s))

/-! ### The watched peers (R291, R300) -/

/-- PEER_KEEPALIVE: one to each watched peer that a path reaches. -/
def execPeerKeepalive (s : State) : Host.Outcome State Fault Refusal :=
  .next (s.fab.peers.foldl (fun t x => sendNotice "keepalive" x.ident [] t) s)

/-- Changing a peer. -/
def modPeer (d : Nat) (f : Peer → Peer) (s : State) : State :=
  { s with fab := { s.fab with peers := s.fab.peers.map (fun x => if x.ident = d then f x else x) } }

/-- KEEPALIVE_RECEIVED: the peer's count starts again (R291). -/
def execKeepaliveReceived (d : Nat) (s : State) : Host.Outcome State Fault Refusal :=
  .next (modPeer d (fun x => { x with last := s.ftime, dead := false }) s)

/-- The Formed groups that a device shares. -/
def sharedGroups (s : State) (d : Nat) : List (Nat × Group) :=
  s.fab.groups.filter (fun e => e.2.st == .formed && e.2.members.any (fun m => m.1 == d))

/-- The remote atomics of a group whose owner is lost (10 R276, R310). -/
def failAtomics (g : Group) (d : Nat) (s : State) : State :=
  ((getPart s g.part).coll.filter (fun r => cOp r.req.toNat == 7 && groupOf s (cGroup r.req.toNat) == some g
      && memberIdent g (cRoot r.req.toNat) == d)).foldl (fun t r => collFail g.part r 0x3210 t) s

/-- A device is lost: the groups shared with it break, and with them the watch over their neighbours, and the sessions that it holds copies of
are Unprotected (R300, R310, 13 R348). -/
def loseDevice (d : Nat) (s : State) : State :=
  let s1 := (sharedGroups s d).foldl (fun t e => breakGroup e.1 0x3130 (failAtomics e.2 d t)) s
  (partsWithBuddy s1 d).foldl (fun t p => unprotect p t) (modPeer d (fun x => { x with dead := true }) s1)

/-- The dead-peer notice to some devices. -/
def deadNotices (to_ : List Nat) (d : Nat) (s : State) : State :=
  (dedup to_).foldl (fun t m => if m = d ∨ m = s.fab.ident.toNat then t else sendNotice "dead" m [d] t) s

/-- 64 keepalive intervals in ns. -/
def deadNs : Nat := 6400000

/-- PEER_DEAD: no keepalive in 64 intervals (R291). -/
def peerDead (d : Nat) (s : State) : State :=
  match s.fab.peers.find? (fun x => x.ident == d && !x.dead) with
  | none => s
  | some x =>
    let s1 := timeTo (x.last + deadNs) s
    loseDevice d (deadNotices ((sharedGroups s1 d).flatMap (fun e => e.2.members.map (·.1))) d (post 0x3140 0 0 s1))

def execPeerDead (d : Nat) (s : State) : Host.Outcome State Fault Refusal := .next (peerDead d s)

/-- PEER_DEAD_NOTICE: forwarded to the group neighbours while a group shared with the dead peer is still Formed (R291). -/
def peerDeadNotice (d src : Nat) (s : State) : State :=
  let to_ := ((sharedGroups s d).flatMap (fun e => groupPeers s e.2)).filter (· != src)
  loseDevice d (deadNotices to_ d s)

def execPeerDeadNotice (d src : Nat) (s : State) : Host.Outcome State Fault Refusal := .next (peerDeadNotice d src s)

/-- DEPARTURE_NOTICE: the sender is departed at once (R292). -/
def execDepartureNotice (src : Nat) (s : State) : Host.Outcome State Fault Refusal := .next (loseDevice src s)

/-- ABANDON_NOTICE: the named groups of the sender break (R310). -/
def execAbandonNotice (src : Nat) (keys : List Nat) (s : State) : Host.Outcome State Fault Refusal :=
  .next (((sharedGroups s src).filter (fun e => mem e.2.key.toNat keys)).foldl (fun t e => breakGroup e.1 0x3131 t) s)

/-! ### Forwarding (R294, R295) -/

/-- PACKET_FORWARD: a packet for another device goes on by this device's table, whole; one that has no way is answered with a header-only NACK.
A device without an identity sources and sinks nothing (R290). -/
def packetForward (p : Nat) (k : Packet) (s : State) : State :=
  if !portUp (getPort s p) || !s.fab.assigned || k.dst == s.fab.ident.toNat then s
  else (route k s).getD (sendPacket { vc := 2, dst := k.src, src := s.fab.ident.toNat, flow := k.flow, what := "nack", args := k.args } s)

def execPacketForward (a : Arrived) (s : State) : Host.Outcome State Fault Refusal :=
  onPort a.port (onUnit "virtual channel" a.packet.vc 4 (.next (packetForward a.port a.packet s)))

/-! ### Fabric time (R311, R312) -/

/-- The time state changes (R312). -/
def setTime (v : Nat) (s : State) : State :=
  if s.fab.timeState = v then s else jnSet 18 (post 0x0304 0 0 { s with fab := { s.fab with timeState := v } })

/-- STRATUM of an Up port's partner, and its identity, as last heard. -/
def portStratum (s : State) (p : Nat) : Nat := fld (getPort s p).partner.toNat 163 160
def portIdent (s : State) (p : Nat) : Nat := fld (getPort s p).partner.toNat 15 0

/-- One neighbour goes before another: lower stratum, then lower identity, then lower port (R311). -/
def before (s : State) (a b : Nat) : Bool :=
  decide (portStratum s a < portStratum s b) || (decide (portStratum s a = portStratum s b) &&
    (decide (portIdent s a < portIdent s b) || (decide (portIdent s a = portIdent s b) && decide (a < b))))

/-- The port whose neighbour the device follows: the first of the Up ports whose partner has a stratum. -/
def followed (s : State) : Option Nat :=
  (List.range 18).foldl (fun a p =>
    if portUp (getPort s p) && decide (portStratum s p < 15) then
      (match a with
      | none => some p
      | some b => if before s p b then some p else some b)
    else a) none

/-- 200 ppm of the 100 µs between two exchanges, in ns. -/
def slewMax : Int := 20

/-- The device follows a neighbour: its first lock steps its time once; after that it corrects by slewing, by at most 200 ppm of an interval, and its
time never runs backward (R312; log entry 95). A neighbour at stratum 0 is the master itself; of one further away the identity of the master is a
free value, since no record carries it. -/
def follow (stratum ident : Nat) (offset : Int) (s : State) : State :=
  let f := s.fab
  let lock := f.timeState ≠ 1
  let m := if stratum = 0 then ident else if lock then (Config.freeWord s.free).toNat % 2 ^ 16 else f.masterId
  let s1 := { s with
    free := if lock ∧ stratum ≠ 0 then s.free + 1 else s.free,
    ftime := if f.stepped then s.ftime + (min slewMax offset).toNat else ((s.ftime : Int) + offset).toNat }
  setTime 1 { s1 with fab := { s1.fab with
    stratum := min 15 (stratum + 1), masterId := m, stepped := true, lastLower := s1.ftime,
    slew := if f.stepped then max (-slewMax) (min slewMax offset) else 0 } }

/-- An exchange came from a stratum lower than the device's own: the 10 ms of R312 begin again. -/
def heardLower (stratum : Nat) (s : State) : State :=
  if stratum < s.fab.stratum then { s with fab := { s.fab with lastLower := s.ftime } } else s

/-- TIME_EXCHANGE: the device's own time goes to the neighbour; the neighbour's stratum is kept, and its offset used when it is the one that the
device follows. -/
def timeExchange (p stratum ident : Nat) (offset : Int) (s : State) : State :=
  let x := getPort s p
  if !portUp x then s
  else
    let r := x.partner.toNat
    let note := BitVec.ofNat 256 (r - put (fld r 163 160) 160 + put (stratum % 16) 160)
    let s0 := sendLink p "time" (leBytes (put s.fab.ident.toNat 68 + put s.fab.stratum 64 + s.ftime % 2 ^ 64) 16) s
    let s1 := heardLower stratum (modPort p (fun x => { x with partner := note }) s0)
    if followed s1 = some p ∧ s.fab.role ≠ 1 ∧ stratum < 15 ∧ (s.fab.timeState ≠ 1 ∨ stratum < s.fab.stratum) then follow stratum ident offset s1 else s1

def execTimeExchange (p stratum ident : Nat) (offset : Int) (_delay : Nat) (s : State) : Host.Outcome State Fault Refusal :=
  onPort p (.next (timeExchange p stratum ident offset s))

/-- The device becomes the master of fabric time (R311). -/
def becomeMaster (s : State) : State := { s with fab := { s.fab with stratum := 0, masterId := s.fab.ident.toNat, slew := 0 } }

/-- HOLDOVER: 10 ms without an exchange from a lower stratum. The backup becomes the master. Without one, of the Synced devices of the lowest
stratum the one with the lowest identity does, and another holds over: which it is depends on the other devices, a free value (R311, R312; log
entry 95). -/
def holdover (s : State) : State :=
  if s.fab.timeState ≠ 1 ∨ s.fab.role = 1 ∨ s.fab.stratum = 0 then s
  else
    let s1 := timeTo (s.fab.lastLower + 10000000) s
    if s.fab.role = 2 then becomeMaster s1
    else
      let s2 := { s1 with free := s.free + 1 }
      if (Config.freeWord s.free).getLsbD 0 then becomeMaster s2 else setTime 2 s2

def execHoldover (s : State) : Host.Outcome State Fault Refusal := .next (holdover s)

/-! ### Formation of groups (R299, R300) -/

/-- Every member has answered: Formed, and its neighbours watched (R300). -/
def tryForm (g : Nat) (s : State) : State :=
  match groupOf s g with
  | none => s
  | some x =>
    if x.st ≠ .forming ∨ x.complete = false ∨ !(List.range x.members.length).all (fun r => mem r x.answered) then s
    else endForm g 0 (syncPeers (modGroup g (fun x => { x with st := .formed }) s))

/-- GROUP_FORMATION_RECORD: a member's record for a group: its key, list, mode and levels, or its refusal. A record that is no answer is answered
once this device has the list too. A refusal or another mode ends a formation, and breaks a group that is Formed (R299, R300, 02 R56). -/
def formationRecord (g rank : Nat) (key : BitVec 64) (members : List (Nat × Nat)) (ordered : Bool) (levels : BitVec 16) (kind : RecordKind)
    (s : State) : State :=
  match groupOf s g with
  | none => s
  | some x =>
    let end_ := fun (code : Code) => if x.st = .forming then endForm g code s else breakGroup g 0x3130 s
    if x.st = .broken ∨ x.complete = false ∨ key ≠ x.key ∨ x.members.length ≤ rank ∨ rank = x.rank then s
    else if kind = .refusal then end_ 0x3124
    else if members ≠ x.members then s
    else if ordered ≠ (getPart s x.part).params.ordered then end_ 0x3120
    else
      let s1 := if kind = .answer then s else sendRecord x [rank] (ownLevels s) false true s
      if x.st = .forming then
        tryForm g (modGroup g (fun x => { x with answered := addOnce rank x.answered, level := min x.level (topLevel levels.toNat) }) s1)
      else s1

def execGroupFormationRecord (g rank : Nat) (key : BitVec 64) (members : List (Nat × Nat)) (ordered : Bool) (levels : BitVec 16)
    (kind : RecordKind) (s : State) : Host.Outcome State Fault Refusal :=
  onGroup g (.next (formationRecord g rank key members ordered levels kind s))

/-- GROUP_TIMEOUT: the formation's time is over. -/
def groupTimeout (g : Nat) (s : State) : State :=
  match groupOf s g with
  | none => s
  | some x => if x.st = .forming ∧ x.complete = true then endForm g 0x3122 (timeTo x.dueAt s) else s

def execGroupTimeout (g : Nat) (s : State) : Host.Outcome State Fault Refusal := onGroup g (.next (groupTimeout g s))

/-! ### The buddy's side of mirroring (13 R346 to R348) -/

/-- The copies of other sessions of a source partition. -/
def copiesOf (s : State) (src spart : Nat) : List MirCopy := s.fab.copies.filter (fun c => c.src == src && c.spart == spart)

/-- The 64 KiB chunks of a copy: the entry's 256 bytes, the model identity and the log. -/
def copyChunks (log : List Nat) : Nat := cdiv (264 + 4 * log.length) 0x10000

/-- The grant of a source partition. -/
def grantOf (s : State) (src spart : Nat) : Option Grant := s.mem.grants.find? (fun g => g.src == src && g.spart == spart)

/-- What is sent back on VC2: acknowledged up to a log length, or full. -/
def mirrorReply (what : String) (src spart n upTo : Nat) (s : State) : State := sendTo 2 what src [spart, n, upTo] [] [] s

/-- MIRROR_ENTRIES_ARRIVAL: the entry and the log entries from a position on are written and acknowledged where the region takes them, and
the copy of a closed session is discarded. -/
def mirrorArrival (src spart n : Nat) (model : BitVec 64) (settings : List Byte) (frm : Nat) (toks : List Nat) (closed : Bool) (s : State) : State :=
  match grantOf s src spart with
  | none => s
  | some g =>
    let mine := fun (c : MirCopy) => c.src == src && c.spart == spart && c.session == n
    let rest := s.fab.copies.filter (fun c => !mine c)
    let old := ((s.fab.copies.find? mine).map (·.log)).getD []
    if closed then { s with fab := { s.fab with copies := rest } }
    else if old.length < frm then s
    else
      let log := old.take frm ++ toks
      let others := ((copiesOf { s with fab := { s.fab with copies := rest } } src spart).map (fun c => copyChunks c.log)).foldl (· + ·) 0
      if 32 * g.pages.length < others + copyChunks log then mirrorReply "mirror full" src spart n old.length s
      else
        let c : MirCopy := { src := src, spart := spart, session := n, model := model, settings := padTo 256 settings, log := log }
        mirrorReply "mirror ack" src spart n log.length { s with fab := { s.fab with copies := rest ++ [c] } }

def execMirrorEntriesArrival (src spart n : Nat) (model : BitVec 64) (settings : List Byte) (frm : Nat) (toks : List Nat) (closed : Bool) (s : State) :
    Host.Outcome State Fault Refusal := .next (if s.fab.assigned then mirrorArrival src spart n model settings frm toks closed s else s)

/-! ### The source's side -/

/-- BUDDY_ACK: the buddy holds a session's log up to a length; a session whose whole copy is held waits again from now on (R347, R348). -/
def buddyAck (p n upTo : Nat) (s : State) : State :=
  let x := getSess s n
  let pt := getPart s p
  if x.part ≠ p ∨ x.mirror = false ∨ pt.buddy.isNone = true ∨ (pt.unprotected = true ∧ pt.syncing = false) then s
  else
    let s1 := ackSess n upTo s
    if pt.syncing && decide (x.log.length ≤ upTo) then modSess n (fun x => { x with mirLive := true }) s1 else s1

def execBuddyAck (p n upTo : Nat) (s : State) : Host.Outcome State Fault Refusal := onPart p (onUnit "session" n 65536 (.next (buddyAck p n upTo s)))

/-- A session waits for its buddy. -/
def waitsAck (s : State) (n : Nat) : Bool := let x := getSess s n; x.mirLive && (!x.held.isEmpty || x.mirRows != 0 || decide (x.mirAcked < x.mirSent))

/-- MIRROR_ACK_TIMEOUT: something sent has had no acknowledgement for 1 ms (R348). -/
def execMirrorAckTimeout (p : Nat) (s : State) : Host.Outcome State Fault Refusal :=
  onPart p (.next (if (mirrored s p).any (waitsAck s) then unprotect p s else s))

/-- BUDDY_SYNCED: every mirrored session of the partition is held by its new buddy (R348). -/
def buddySynced (p : Nat) (s : State) : State :=
  if (getPart s p).syncing && (mirrored s p).all (fun n => (getSess s n).mirLive) then
    post 0x0305 5 p (modPart p (fun x => { x with syncing := false, unprotected := false }) s)
  else s

def execBuddySynced (p : Nat) (s : State) : Host.Outcome State Fault Refusal := onPart p (.next (buddySynced p s))

end Sys2Proof.Machine
end

