-- ==== Sys2Proof/Machine/Sha.lean ====
section
/-!
DEFINITION. SHA-384, which 15 R393, 17 R439 and R440 name: the hash of FIPS 180-4 (PRESUMED: a standard outside the spec, log entry 12).
Its constants are computed here from their own definition, the first 64 bits of the fractions of roots of primes.
-/

namespace Sys2Proof.Machine

/-- The 80 primes below 410, which have no prime factor below 20 but themselves. -/
def shaPrimes : List Nat :=
  (List.range 410).filter (fun n => decide (1 < n) && [2, 3, 5, 7, 11, 13, 17, 19].all (fun d => n == d || n % d != 0))

/-- The whole part of the k-th root of n, found bit by bit below bit b above the part r already found. -/
def rootFrom (k n : Nat) : Nat → Nat → Nat
  | 0, r => r
  | b + 1, r => rootFrom k n b (if (r + 2 ^ b) ^ k ≤ n then r + 2 ^ b else r)

/-- The first 64 bits of the fraction of the k-th root of p, for roots below 32. -/
def rootFraction (k p : Nat) : Word := BitVec.ofNat 64 (rootFrom k (p * 2 ^ (64 * k)) 69 0)

/-- The eighty round constants: cube roots of the first eighty primes. -/
def shaConstants : List Word := shaPrimes.map (rootFraction 3)

/-- The chaining value before the first block: square roots of the ninth to the sixteenth prime. -/
def shaStart : List Word := ((shaPrimes.drop 8).take 8).map (rootFraction 2)

/-- The sum modulo 2 of one word turned right by each of several counts. -/
def turns (counts : List Nat) (x : Word) : Word := counts.foldl (fun acc n => acc ^^^ x.rotateRight n) 0

/-- Word i of a list, 0 beyond its end. -/
def wordAt (l : List Word) (i : Nat) : Word := (l[i]?).getD 0

/-- What a round works on: the sixteen message words to come, oldest first, and two lines of four working words, newest first. -/
structure ShaWork where
  /-- The message words of this round and the fifteen after it. -/
  window : List Word
  /-- The last four words of the line that both functions feed. -/
  upper : List Word
  /-- The last four words of the line that only the first function feeds. -/
  lower : List Word
  deriving DecidableEq, Repr

/-- One round with its constant: each line takes in one word and drops its oldest, and the window slides by one. -/
def ShaWork.round (v : ShaWork) (constant : Word) : ShaWork :=
  let up := wordAt v.upper
  let low := wordAt v.lower
  let msg := wordAt v.window
  let feed := low 3 + turns [14, 18, 41] (low 0) + (low 2 ^^^ (low 0 &&& (low 1 ^^^ low 2))) + constant + msg 0
  let vote := (up 0 &&& up 1) ||| (up 2 &&& (up 0 ||| up 1))
  let early := turns [1, 8] (msg 1) ^^^ (msg 1 >>> 7)
  let late := turns [19, 61] (msg 14) ^^^ (msg 14 >>> 6)
  { window := v.window.drop 1 ++ [msg 0 + early + msg 9 + late]
    upper := (feed + turns [28, 34, 39] (up 0) + vote) :: v.upper.take 3
    lower := (up 3 + feed) :: v.lower.take 3 }

/-- The chaining value after a block of 128 bytes. -/
def shaAbsorb (chain : List Word) (block : List Byte) : List Word :=
  let words := (chunksOf 8 block).map (fun b => BitVec.ofNat 64 (ofBe b))
  let v := shaConstants.foldl ShaWork.round { window := words, upper := chain.take 4, lower := chain.drop 4 }
  List.zipWith (fun a b => a + b) chain (v.upper ++ v.lower)

/-- A message filled up to whole blocks: one bit set, zeros, and its length in bits in the last sixteen bytes. -/
def shaFill (m : List Byte) : List Byte :=
  m ++ (0x80 :: List.replicate ((239 - m.length % 128) % 128) 0) ++ beBytes (8 * m.length) 16

/-- The 48-byte SHA-384 digest: the first six words of the last chaining value. -/
def sha384 (m : List Byte) : List Byte :=
  let last := (chunksOf 128 (shaFill m)).foldl shaAbsorb shaStart
  (last.take 6).flatMap (fun x => beBytes x.toNat 8)

end Sys2Proof.Machine
end

