-- ==== Sys2Proof/Machine/TelCmd.lean ====
section
/-!
DEFINITION. The TEL, INT and FW commands (14 R382 to R384): the floor-plan report, sensors (16 R417), event and error records, the power
limit, the checker mode (12 R324), map-outs (12 R333), and the staging of firmware (13 R356, 17 R440).
-/

namespace Sys2Proof.Machine

/-! ### TEL (R382) -/

/-- TEL FLOORPLAN: a piece of the report from a byte offset on. -/
def floorplanH (q : Req) (s : State) : Reply :=
  let piece := (s.report.drop (q.f 0 4)).take 4064
  .ok s (leBytes s.report.length 4 ++ leBytes piece.length 4 ++ List.replicate 8 0 ++ piece)

/-- The entry of command 0x0601 in its table. -/
def cmdFloorplan : Cmd :=
  { opcode := 0x0601, cls := 0, d := true, named := fun _ => [(0, 4)] }

def execFloorplan (sub : Submission) (s : State) : Host.Outcome State Fault Refusal :=
  mail cmdFloorplan floorplanH sub s

/-- A temperature as a signed 16-bit value. -/
def temp16 (t : Int) : List Byte := leBytes (wrap 16 t) 2

/-- The STATE of a group: the brake, the clamp, else what its duty was lowered for. -/
def groupState (s : State) (g : Nat) : Nat :=
  let x := dutyOf s g
  if s.heat.brake then 4 else if s.heat.clamp.isSome then 5 else b2n x.heat + 2 * b2n x.power

/-- The power of a group's domains: a quadrant's cores, a stack's SCUs. -/
def groupPower (s : State) (g : Nat) : Nat := if g < 4 then domainPower s (36 * g) 36 else domainPower s (208 + 32 * (g - 4)) 32

/-- A group record (R417). -/
def groupRecord (s : State) (g : Nat) : List Byte :=
  let x := dutyOf s g
  padTo 32 ([BitVec.ofNat 8 g, BitVec.ofNat 8 (groupState s g)] ++ leBytes x.duty 2 ++ temp16 (hotNode s (groupNodes g)) ++ temp16 (marginOf s g)
    ++ leBytes (groupPower s g) 4 ++ leBytes x.stepsDown 4 ++ leBytes (b2n (decide (4 ≤ g) && mem (g - 4) s.heat.hotStacks)) 8 ++ leBytes s.ftime 8)

/-- A diode record. -/
def diodeRecord (s : State) (d : Nat) : List Byte :=
  let x := diode s d
  let r := diodeRegion d
  padTo 16 ([BitVec.ofNat 8 d, BitVec.ofNat 8 (b2n x.healthy), BitVec.ofNat 8 r, 0] ++ temp16 x.reading ++ temp16 (placeTemp s d)
    ++ temp16 (offsetOf s r))

/-- The package record. -/
def pkgRecord (s : State) : List Byte :=
  padTo 32 (leBytes (pkgPower s) 4 ++ leBytes (pkgLimit s) 4 ++ leBytes (fusedWatts s) 4
    ++ [BitVec.ofNat 8 (b2n s.heat.clamp.isSome), BitVec.ofNat 8 (b2n s.heat.brake)] ++ leBytes (maskOf s.heat.suspect) 2 ++ leBytes s.ftime 8)

/-- The records that WHAT selects. -/
def sensorRecords (s : State) (what : Nat) : List (List Byte) :=
  match what with
  | 0 => (List.range 12).map (groupRecord s)
  | 1 => (List.range 96).map (diodeRecord s)
  | 2 => (List.range 512).map (fun n => temp16 (nodeTemp s n))
  | 3 => [pkgRecord s]
  | _ => (List.range 498).map (fun i => leBytes (domainPower s i 1) 4)

/-- The bytes of one record. -/
def sensorSize (what : Nat) : Nat := match what with
  | 1 => 16
  | 2 => 2
  | 4 => 4
  | _ => 32

/-- TEL SENSORS: as many records from FROM on as a response holds. -/
def sensorsH (q : Req) (s : State) : Reply :=
  let what := q.f 0 1
  let l := ((sensorRecords s what).drop (q.f 4 4)).take (4064 / sensorSize what)
  checked [(decide (4 < what), 0x5101)] (.ok s (leBytes l.length 2 ++ List.replicate 14 0 ++ l.flatten))

/-- The entry of command 0x0602 in its table. -/
def cmdSensors : Cmd :=
  { opcode := 0x0602, cls := 0, d := true, named := fun _ => [(0, 1), (4, 4)] }

def execSensors (sub : Submission) (s : State) : Host.Outcome State Fault Refusal :=
  mail cmdSensors sensorsH sub s

/-- Records of a master's queue that pass a filter, read from an EVT_SEQ on (R375, R382). An empty queue's oldest record is the next. -/
def eventsH (keep : EvRec → Bool) (q : Req) (s : State) : Reply :=
  let x := getBox s q.master
  let l := x.events.filter keep
  let oldest := (l.head?.map (·.evtSeq)).getD (x.evtSeq + 1)
  let from_ := q.f 0 8
  let n := q.f 8 1
  let out := (l.filter (fun e => decide (from_ ≤ e.evtSeq))).take n
  checked [(decide (n = 0 ∨ 63 < n), 0x5101)]
    (.ok s (leBytes oldest 8 ++ [BitVec.ofNat 8 out.length, BitVec.ofNat 8 (b2n (decide (from_ < oldest)))] ++ List.replicate 6 0
      ++ out.flatMap (fun e => leBytes e.toNat 64)))

/-- The entry of command 0x0603 in its table. -/
def cmdTelEvents : Cmd :=
  { opcode := 0x0603, cls := 0, d := true, named := fun _ => [(0, 8), (8, 1)] }

def execTelEvents (sub : Submission) (s : State) : Host.Outcome State Fault Refusal :=
  mail cmdTelEvents (eventsH (fun _ => true)) sub s

/-- TEL POWER_LIMIT: it governs from the next duty tick (16 R409). -/
def powerLimitH (q : Req) (s : State) : Reply :=
  let w := q.f 0 2
  checked [(decide (w < 500 ∨ fusedWatts s < w), 0x5101)] (.ok { s with cfg := { s.cfg with powerLimit := some w } } [])

/-- The entry of command 0x0604 in its table. -/
def cmdPowerLimit : Cmd :=
  { opcode := 0x0604, cls := 1, d := false, named := fun _ => [(0, 2)] }

def execPowerLimit (sub : Submission) (s : State) : Host.Outcome State Fault Refusal :=
  mail cmdPowerLimit powerLimitH sub s

/-! ### INT (R383) -/

/-- INT RECORDS. -/
def intRecordsH (q : Req) (s : State) : Reply :=
  let n := q.f 4 1
  let l := (s.sb.errRecs.filter (fun r => decide (q.f 0 4 ≤ r.seq))).take n
  checked [(decide (n = 0 ∨ 63 < n), 0x5101)]
    (.ok s (leBytes l.length 16 ++ l.flatMap (fun r => leBytes r.toNat 64)))

/-- The entry of command 0x0701 in its table. -/
def cmdIntRecords : Cmd :=
  { opcode := 0x0701, cls := 0, d := true, named := fun _ => [(0, 4), (4, 1)] }

def execIntRecords (sub : Submission) (s : State) : Host.Outcome State Fault Refusal :=
  mail cmdIntRecords intRecordsH sub s

/-- INT CHK_MODE (12 R324). -/
def chkModeH (q : Req) (s : State) : Reply :=
  checked [(decide (2 < q.f 0 1), 0x5101)] (.ok { s with cfg := { s.cfg with chkMode := q.f 0 1 } } [])

/-- The entry of command 0x0702 in its table. -/
def cmdChkMode : Cmd :=
  { opcode := 0x0702, cls := 1, d := false, named := fun _ => [(0, 1)] }

def execChkMode (sub : Submission) (s : State) : Host.Outcome State Fault Refusal :=
  mail cmdChkMode chkModeH sub s

/-- INT MAPOUT starts: the unit's map-out is pending; a channel's is reported (03 R83 step 1). -/
def mapoutH (q : Req) (s : State) : Reply :=
  let k := q.f 0 1
  let n := q.f 2 1
  let present := match k with
    | 1 => unitPresent s.units.core n
    | 2 => unitPresent s.units.slice n
    | _ => unitPresent s.units.chan n
  let s1 := match k with
    | 1 => { s with cfg := { s.cfg with pendCores := addOnce n s.cfg.pendCores } }
    | 2 => { s with cfg := { s.cfg with pendSlices := addOnce n s.cfg.pendSlices } }
    | _ => pendChannel n 0x2220 s
  checked [(decide (k = 0 ∨ 3 < k ∨ (k = 1 ∧ 143 < n) ∨ (k = 2 ∧ 63 < n)), 0x5101), (!present, 0x5130)] (.op s1 none (leBytes k 1 ++ leBytes n 1))

/-- The entry of command 0x0703 in its table. -/
def cmdMapout : Cmd :=
  { opcode := 0x0703, cls := 1, d := false, named := fun _ => [(0, 1), (2, 1)] }

/-- MAPOUT: the pending map-out of a free core or slice proceeds at once (12 R333). -/
def execMapout (sub : Submission) (s : State) : Host.Outcome State Fault Refusal :=
  .next (settleFree (mailRow cmdMapout mapoutH sub s))

/-- INT SPARES: the spare rows taken in the 48 banks of a channel. -/
def sparesH (q : Req) (s : State) : Reply :=
  .ok s ((List.range 48).map (fun b => BitVec.ofNat 8 (spGet 0 (getChan s (q.f 0 1)).spares b)))

/-- The entry of command 0x0704 in its table. -/
def cmdSpares : Cmd :=
  { opcode := 0x0704, cls := 0, d := true, named := fun _ => [(0, 1)] }

def execSpares (sub : Submission) (s : State) : Host.Outcome State Fault Refusal :=
  mail cmdSpares sparesH sub s

/-! ### FW (R384) -/

/-- n bytes of the staged image. -/
def staged (s : State) (off n : Nat) : List Byte := spBytes s.fw.staged off n

/-- A field of the staged image. -/
def stagedNum (s : State) (off n : Nat) : Nat := ofLe (staged s off n)

/-- FW INFO. -/
def fwInfoH (_ : Req) (s : State) : Reply :=
  let r := runningImage s
  .ok s (leBytes r.version.toNat 4 ++ leBytes (stagedNum s 8 4) 4 ++ leBytes (b2n s.fw.verified) 4 ++ leBytes r.levels.toNat 4
    ++ leBytes (stagedNum s 12 4) 4 ++ leBytes s.fw.fallback.version.toNat 4)

/-- The entry of command 0x0801 in its table. -/
def cmdFwInfo : Cmd :=
  { opcode := 0x0801, cls := 0, d := true }

def execFwInfo (sub : Submission) (s : State) : Host.Outcome State Fault Refusal :=
  mail cmdFwInfo fwInfoH sub s

/-- The bounds of the staging storage. -/
def stageEnd : Nat := 0x4000000

/-- FW STAGE_WRITE. -/
def stageWriteH (q : Req) (s : State) : Reply :=
  let off := q.f 0 4
  let data := q.pay.drop 8
  checked [(decide (off % 8 ≠ 0 ∨ stageEnd ≤ off ∨ stageEnd < off + data.length), 0x5101)]
    (.ok { s with fw := { s.fw with staged := spWrite s.fw.staged off data, stagedLen := max s.fw.stagedLen (off + data.length), verified := false } } [])

/-- The entry of command 0x0802 in its table. -/
def cmdStageWrite : Cmd :=
  { opcode := 0x0802, cls := 1, d := true, named := fun q => [(0, 4), (8, q.pay.length - 8)] }

def execStageWrite (sub : Submission) (s : State) : Host.Outcome State Fault Refusal :=
  mail cmdStageWrite stageWriteH sub s

/-- The entry of command 0x0803 in its table. -/
def cmdStageVerify : Cmd :=
  { opcode := 0x0803, cls := 1, d := true, named := fun _ => [(0, 4)] }

/-- FW STAGE_VERIFY starts. -/
def execStageVerify (sub : Submission) (s : State) : Host.Outcome State Fault Refusal :=
  mail cmdStageVerify (fun q s => .op s none (leBytes (q.f 0 4) 4)) sub s

/-- The staged image verifies for a LENGTH (17 R440). -/
def verifies (s : State) (len : Nat) : Bool :=
  let body := stagedNum s 16 4
  let sig := staged s (64 + body) 256
  let key := sig.take 96
  stagedNum s 0 4 == 0x4E574649 && stagedNum s 4 2 == 1 && stagedNum s 6 2 == 0 && body % 64 == 0 && (staged s 20 44).all (· == 0)
  && len == 320 + body && decide (len ≤ stageEnd) && (sig.drop 192).all (· == 0)
  && sha384 key == s.fuse.keyHash && Config.ecdsaValid (sha384 (staged s 0 (64 + body))) ((sig.drop 96).take 96) key

/-- STAGE_VERIFY_DONE: VERIFIED, or 0x5212. -/
def stageVerifyDone (s : State) : State :=
  match s.sb.ops.find? (fun o => o.opcode == 0x0803) with
  | none => s
  | some o =>
    let ok := verifies s (numAt o.arg 0 4)
    opDone o (if ok then 0 else 0x5212) 0 { s with fw := { s.fw with verified := ok } }

def execStageVerifyDone (s : State) : Host.Outcome State Fault Refusal := .next (stageVerifyDone s)

/-- The number of contract levels in a set. -/
def levelCount (l : Nat) : Nat := (bitsOf 32 l).length

/-- FW ACTIVATE (13 R356): the start into the staged image follows, with START; from recovery it is a cold one (15 R393). -/
def activateH (q : Req) (s : State) : Reply :=
  let s1 := if q.force then cutAll s else s
  checked [(!s.fw.verified || (!q.force && !(activeParts s).isEmpty), 0x5210),
      (decide (levelCount (stagedNum s 12 4) < levelCount (runningImage s).levels.toNat) && !q.down, 0x5211)]
    (.ok { s1 with
      boot := { s1.boot with activating := true, resetPending := some ((if s.boot.phase = .recovery then .cold else .warm), 3) } } [])

/-- The entry of command 0x0804 in its table. -/
def cmdActivate : Cmd :=
  { opcode := 0x0804, cls := 1, d := true, force := true, down := true }

def execActivate (sub : Submission) (s : State) : Host.Outcome State Fault Refusal :=
  mail cmdActivate activateH sub s

end Sys2Proof.Machine
end

