-- ==== Sys2Proof/Machine/FabCmd.lean ====
section
/-!
DEFINITION. The FAB commands (14 R385): identity (11 R290), routes (R293), time (R311), ports, buddies and mirror regions (13 R346, R348),
groups (11 R299, R300), status and events.
-/

namespace Sys2Proof.Machine

/-! ### Identity, routes, time, ports -/

/-- The Up ports whose partner claims the identity just assigned go to Conflict (11 R290). -/
def conflicts (s : State) : State :=
  (List.range 18).foldl (fun t p =>
    let x := getPort t p
    if portUp x && ownClaimed t x.partner then jnSet p (post 0x3103 4 p (leaveUp p .conflict t)) else t) s

/-- FAB IDENTITY. -/
def identityH (q : Req) (s : State) : Reply :=
  .ok (conflicts { s with fab := { s.fab with ident := BitVec.ofNat 16 (q.f 0 2), assigned := true } }) []

/-- The entry of command 0x0901 in its table. -/
def cmdFabIdentity : Cmd :=
  { opcode := 0x0901, cls := 2, d := false, named := fun _ => [(0, 2)] }

def execFabIdentity (sub : Submission) (s : State) : Host.Outcome State Fault Refusal :=
  mail cmdFabIdentity identityH sub s

/-- A routing entry that R293 refuses. -/
def routeBad (s : State) (dst e : Nat) : Bool :=
  fld e 31 30 != 0 || fld e 23 18 != 0 || (tbit e 25 && !(s.fab.assigned && s.fab.ident.toNat == dst))

/-- FAB ROUTE. -/
def routeH (q : Req) (s : State) : Reply :=
  let first := q.f 0 4
  let n := q.f 4 2
  let es := (List.range n).map (fun i => (first + i, q.f (8 + 4 * i) 4))
  checked [(decide (n < 1 ∨ 1016 < n ∨ 65536 < first + n), 0x5101), (es.any (fun e => routeBad s e.1 e.2), 0x3111)]
    (.ok (lostPaths { s with fab := { s.fab with routes := es.foldl (fun m e => spSet 0 m e.1 (BitVec.ofNat 32 e.2)) s.fab.routes } }) [])

/-- The entry of command 0x0902 in its table. -/
def cmdRoute : Cmd :=
  { opcode := 0x0902, cls := 2, d := false, named := fun q => [(0, 4), (4, 2), (8, 4 * min 1016 (q.f 4 2))] }

def execRoute (sub : Submission) (s : State) : Host.Outcome State Fault Refusal :=
  mail cmdRoute routeH sub s

/-- The role that FAB TIME names: the master is at stratum 0 and Synced; a device that is master no more follows again. -/
def takeRole (role : Nat) (s : State) : State :=
  if role = 1 then setTime 1 { s with fab := { s.fab with role := 1, stratum := 0, masterId := s.fab.ident.toNat, stepped := true, slew := 0 } }
  else { s with fab := { s.fab with role := role, stratum := if s.fab.role = 1 then 15 else s.fab.stratum, lastLower := s.ftime } }

/-- FAB TIME (11 R311): the value can be set once, while the device is Unsynced. -/
def fabTimeH (q : Req) (s : State) : Reply :=
  let set := q.f 1 1
  let s1 := if set = 1 then { s with ftime := q.f 8 8, fab := { s.fab with timeSet := true } } else s
  checked [(decide (2 < q.f 0 1 ∨ 1 < set), 0x5101), (set == 1 && (s.fab.timeState != 0 || s.fab.timeSet), 0x5131)]
    (.ok (takeRole (q.f 0 1) s1) [])

/-- The entry of command 0x0903 in its table. -/
def cmdFabTime : Cmd :=
  { opcode := 0x0903, cls := 2, d := false, named := fun _ => [(0, 1), (1, 1), (8, 8)] }

def execFabTime (sub : Submission) (s : State) : Host.Outcome State Fault Refusal :=
  mail cmdFabTime fabTimeH sub s

/-- FAB PORT. A port that is disabled while Up tells the watched peers first (11 R292; log entry 96). -/
def fabPortH (q : Req) (s : State) : Reply :=
  let p := q.f 0 1
  let on := q.f 1 1
  let s1 := modPort p (fun x => { x with enabled := on == 1 }) s
  checked [(decide (17 < p ∨ 1 < on), 0x5101), (!unitPresent s.units.port p, 0x5130)]
    (.ok (if on = 0 then leaveUp p .disabled (if portUp (getPort s p) then departNotices s1 else s1)
      else if (getPort s p).st = .disabled ∧ unitOn s s.units.port p then leaveUp p .down s1 else s1) [])

/-- The entry of command 0x0904 in its table. -/
def cmdFabPort : Cmd :=
  { opcode := 0x0904, cls := 1, d := true, named := fun _ => [(0, 1), (1, 1)], needs := fun q _ => [(4, q.f 0 1)] }

def execFabPort (sub : Submission) (s : State) : Host.Outcome State Fault Refusal :=
  mail cmdFabPort fabPortH sub s

/-! ### Buddies and mirror regions -/

/-- A partition's buddy is another device, or none: nothing waits for the old one, and every mirrored session is copied to the new one
before it waits again (13 R348). -/
def setBuddy (p : Nat) (b : Option Nat) (s : State) : State :=
  let ns := mirrored s p
  let s1 := ns.foldl (fun t n => letGo n t) s
  let due := b.isSome && !ns.isEmpty
  let s2 := syncPeers (modPart p (fun x => { x with buddy := b, unprotected := due, syncing := due }) s1)
  if b.isSome then ns.foldl (fun t n => mirrorSend n (modSess n (fun x => { x with mirSent := 0, mirAcked := 0 }) t)) s2 else s2

/-- FAB BUDDY. -/
def buddyH (q : Req) (s : State) : Reply :=
  let p := q.f 0 1
  let b := if q.f 1 1 = 1 then some (q.f 2 2) else none
  checked (partChecks s q existing ++ [(decide (1 < q.f 1 1), 0x5101),
      (b.isSome && decide (4096 < (watchedSoon (modPart p (fun x => { x with buddy := b }) s)).length), 0x3124)])
    (.ok (setBuddy p b s) [])

/-- The entry of command 0x0905 in its table. -/
def cmdBuddy : Cmd :=
  { opcode := 0x0905, cls := 1, d := true, named := fun _ => [(0, 1), (1, 1), (2, 2)], part := part0 }

def execBuddy (sub : Submission) (s : State) : Host.Outcome State Fault Refusal :=
  mail cmdBuddy buddyH sub s

/-- The free Spread pages above the reserve. -/
def freeSpread (s : State) : List Nat :=
  (List.range (stackEnd / 0x200000)).filter (fun g => decide (16 ≤ rowOf g) && !pagePinned s g && pageOwner s g == .free
    && !mem g s.mem.filling && unitPresent s.units.chan (homeOf g))

/-- FAB GRANT (13 R346): pages go to the reserve, and come back to be filled when the region is released. -/
def grantH (q : Req) (s : State) : Reply :=
  let src := q.f 2 2
  let sp := q.f 4 1
  let n := q.f 8 4
  let pages := (freeSpread s).take n
  if q.f 0 1 = 0 then
    checked [(decide (15 < sp ∨ n < 1 ∨ 32768 < n), 0x5101), ((grantOf s src sp).isSome, 0x5131),
        (decide (64 ≤ s.mem.grants.length ∨ pages.length < n), 0x5130)]
      (let s1 := pages.foldl (fun t g => setOwner g .reserve t) s
       .ok { s1 with mem := { s1.mem with grants := s1.mem.grants ++ [{ src := src, spart := sp, pages := pages }] } } [])
  else
    checked [(decide (1 < q.f 0 1 ∨ 15 < sp), 0x5101), ((grantOf s src sp).isNone, 0x5131)]
      (let gone := ((grantOf s src sp).map (·.pages)).getD []
       let s1 := returnPages gone { s with mem := { s.mem with grants := s.mem.grants.filter (fun g => !(g.src == src && g.spart == sp)) } }
       .ok { s1 with fab := { s1.fab with copies := s1.fab.copies.filter (fun c => !(c.src == src && c.spart == sp)) } } [])

/-- The entry of command 0x0906 in its table. -/
def cmdGrant : Cmd :=
  { opcode := 0x0906, cls := 1, d := false, named := fun _ => [(0, 1), (2, 2), (4, 1), (8, 4)] }

def execGrant (sub : Submission) (s : State) : Host.Outcome State Fault Refusal :=
  mail cmdGrant grantH sub s

/-! ### Groups (11 R299, R300) -/

/-- The members that a part of a list carries, and whether a reserved bit of one is set. -/
def partMembers (q : Req) : List (Nat × Nat) :=
  (List.range (q.f 12 2)).map (fun i => let w := q.f (32 + 4 * i) 4; (fld w 15 0, fld w 19 16))

def memberBad (q : Req) : Bool := (List.range (q.f 12 2)).any (fun i => fld (q.f (32 + 4 * i) 4) 31 20 != 0)

/-- No pair of a list comes twice: sorted, no neighbours are equal. -/
def distinctPairs (l : List (Nat × Nat)) : Bool := !hasRepeat (l.map (fun m => 16 * m.1 + m.2))

/-- The list received so far for a group, with the fields that every part must repeat. -/
def listSoFar (q : Req) (s : State) : Group :=
  match groupOf s (q.f 0 2) with
  | some x => x
  | none => { part := q.f 2 1, key := BitVec.ofNat 64 (q.f 16 8), total := q.f 4 4, timeout := q.f 24 4 }

/-- A part that R299 and R385 call malformed, or that does not go on with its list. -/
def formBad (q : Req) (x : Group) : Bool :=
  decide (1023 < q.f 0 2 ∨ 15 < q.f 2 1 ∨ q.f 4 4 < 2 ∨ 65536 < q.f 4 4 ∨ q.f 12 2 < 1 ∨ 1012 < q.f 12 2 ∨ q.f 24 4 < 1 ∨ 60000 < q.f 24 4)
  || memberBad q || x.part != q.f 2 1 || x.key.toNat != q.f 16 8 || x.total != q.f 4 4 || x.timeout != q.f 24 4
  || x.members.length != q.f 8 4 || decide (x.total < q.f 8 4 + q.f 12 2)

/-- This device's place in a member list. -/
def ownRank (s : State) (p : Nat) (l : List (Nat × Nat)) : Option Nat :=
  if s.fab.assigned then (List.range l.length).find? (fun i => l[i]? == some (s.fab.ident.toNat, p)) else none

/-- A list discarded and the command refused. A group in use stays. -/
def dropList (q : Req) (s : State) : State :=
  match groupOf s (q.f 0 2) with
  | some x => if x.complete then s else dropGroup (q.f 0 2) s
  | none => s

/-- A group's entry written. -/
def putGroup (g : Nat) (x : Group) (s : State) : State :=
  let s1 := dropGroup g s
  { s1 with fab := { s1.fab with groups := s1.fab.groups ++ [(g, x)] } }

/-- A list that is whole, and the formation that starts with it. -/
def newGroup (s : State) (x : Group) (l : List (Nat × Nat)) : Group :=
  { x with
    members := l, complete := true, rank := (ownRank s x.part l).getD 0, level := topLevel (ownLevels s),
    answered := [(ownRank s x.part l).getD 0], dueAt := s.ftime + 1000000 * x.timeout, op := s.sb.opNext }

/-- FAB GROUP_FORM: one part of a list; the last one starts the formation, which is refused, and every member told, when it would take the watched
set past 4,096 devices (R300). -/
def groupFormH (q : Req) (s : State) : Reply :=
  let g := q.f 0 2
  let x := listSoFar q s
  let l := x.members ++ partMembers q
  let y := newGroup s x l
  if (getPart s (q.f 2 1)).st = .absent then .no 0x5131
  else if l.length < x.total then .ok (putGroup g { x with members := l } s) []
  else if 4096 < (watchedSoon (putGroup g y s)).length then .cut (dropGroup g (tellMembers y true s)) 0x3124
  else .op (tellMembers y false (putGroup g y s)) none []

/-- A part is refused with 0x3121. -/
def formRefused (q : Req) (s : State) : Bool :=
  let x := listSoFar q s
  let l := x.members ++ partMembers q
  x.complete || formBad q x || (l.length == x.total && (!distinctPairs l || (ownRank s x.part l).isNone))

/-- GROUP_FORM: a malformed part discards its list (R385). -/
def groupFormCmd (q : Req) (s : State) : Reply := if formRefused q s then .cut (dropList q s) 0x3121 else groupFormH q s

/-- The fields that GROUP_FORM names. -/
def formFields (q : Req) : List (Nat × Nat) := [(0, 2), (2, 1), (4, 4), (8, 4), (12, 2), (16, 8), (24, 4), (32, 4 * min 1012 (q.f 12 2))]

/-- The entry of command 0x0907 in its table. -/
def cmdGroupForm : Cmd :=
  { opcode := 0x0907, cls := 1, d := true, named := formFields }

def execGroupForm (sub : Submission) (s : State) : Host.Outcome State Fault Refusal :=
  mail cmdGroupForm groupFormCmd sub s

/-- FAB GROUP_RELEASE. -/
def groupReleaseH (q : Req) (s : State) : Reply :=
  let g := q.f 0 2
  match groupOf s g with
  | none => checked [(decide (1023 < g), 0x5101)] (.no 0x5131)
  | some x => checked [(x.st == .forming && x.complete, 0x5131)] (.ok (syncPeers (dropGroup g (breakGroup g 0x3130 s))) [])

/-- The entry of command 0x0908 in its table. -/
def cmdGroupRelease : Cmd :=
  { opcode := 0x0908, cls := 1, d := true, named := fun _ => [(0, 2)] }

def execGroupRelease (sub : Submission) (s : State) : Host.Outcome State Fault Refusal :=
  mail cmdGroupRelease groupReleaseH sub s

/-! ### Status and events -/

/-- The state codes and widths of a port (11 R285). -/
def PortState.code : PortState → Nat
  | .disabled => 0
  | .training => 1
  | .up8 => 2
  | .up6 => 3
  | .up4 => 4
  | .restriping => 5
  | .down => 6
  | .incompatible => 7
  | .conflict => 8

def PortState.width : PortState → Nat
  | .up8 => 8
  | .up6 => 6
  | .up4 => 4
  | _ => 0

/-- The code of a group's state. -/
def GState.code : GState → Nat
  | .forming => 0
  | .formed => 1
  | .broken => 2

/-- A port's status. -/
def portStatus (s : State) (p : Nat) : List Byte :=
  let x := getPort s p
  leBytes (put (fld x.partner.toNat 87 64) 40 + put x.level 32 + put (fld x.partner.toNat 15 0) 16 + put x.st.width 8 + x.st.code) 8

/-- FAB STATUS. -/
def fabStatusH (q : Req) (s : State) : Reply :=
  match q.f 0 1 with
  | 0 => .ok s ((List.range 18).flatMap (portStatus s))
  | 1 => match groupOf s (q.f 2 2) with
    | none => checked [(decide (1023 < q.f 2 2), 0x5101)] (.no 0x5131)
    | some x => .ok s (leBytes x.st.code 1 ++ leBytes x.level 1 ++ leBytes x.rank 4 ++ leBytes x.total 4)
  | 2 => .ok s (leBytes s.fab.timeState 1 ++ leBytes s.fab.stratum 1 ++ leBytes s.fab.masterId 2)
  | _ => .no 0x5101

/-- The entry of command 0x0909 in its table. -/
def cmdFabStatus : Cmd :=
  { opcode := 0x0909, cls := 0, d := true, named := fun _ => [(0, 1), (2, 2)] }

def execFabStatus (sub : Submission) (s : State) : Host.Outcome State Fault Refusal :=
  mail cmdFabStatus fabStatusH sub s

/-- FAB EVENTS: the records of class 0x3 and the codes 0x0300 to 0x03FF. -/
def fabRecord (e : EvRec) : Bool := decide (e.code / 0x1000 = 3 ∨ e.code / 0x100 = 3)

/-- The entry of command 0x090A in its table. -/
def cmdFabEvents : Cmd :=
  { opcode := 0x090A, cls := 0, d := true, named := fun _ => [(0, 8), (8, 1)] }

def execFabEvents (sub : Submission) (s : State) : Host.Outcome State Fault Refusal :=
  mail cmdFabEvents (eventsH fabRecord) sub s

end Sys2Proof.Machine
end

