-- ==== Sys2Proof/Machine/DiagCmd.lean ====
section
/-!
DEFINITION. The DIAG commands (14 R386): diagnostic kernels (06 R179), reading a core, injection and raw reads (12 R326), and power domains
(01 R27 to R29).
-/

namespace Sys2Proof.Machine

/-! ### LAUNCH, READ_STORE, READ_SCOREBOARD -/

/-- DIAG LAUNCH: the image runs with its stop count; KERNEL_END or HALT_COMPLETE ends the operation. -/
def diagLaunchH (q : Req) (s : State) : Reply :=
  let p := q.f 0 1
  let pt := getPart s p
  let img := (pt.model.bind (fun m => m.images[q.f 1 1]?)).getD {}
  let ok := (pt.model.bind (fun m => m.images[q.f 1 1]?)).isSome
  let n := q.f 8 8
  let sc := q.f 2 1
  let len := q.f 16 2
  checked (partChecks s q [.drained] ++ [(s.boot.domainsOff, 0x5130),
      (!ok || decide (3 < q.f 1 1 ∨ 2 ^ 48 ≤ n ∨ 4048 < len) || (n != 0 && sc != 0xFF && decide (img.lcores ≤ sc)), 0x5101),
      (!imageFits s pt img, 0x1172)])
    (.op (launchKernel p img (bytesAt q.pay 32 len) true n sc s) (some p) [])

/-- The entry of command 0x0A01 in its table. -/
def cmdDiagLaunch : Cmd :=
  { opcode := 0x0A01, cls := 1, d := false, part := part0, named := fun q => [(0, 1), (1, 1), (2, 1), (8, 8), (16, 2), (32, min 4048 (q.f 16 2))], needs := fun q s => (getPart s (q.f 0 1)).cores.map (fun n => (1, n)) }

def execDiagLaunch (sub : Submission) (s : State) : Host.Outcome State Fault Refusal :=
  mail cmdDiagLaunch diagLaunchH sub s

/-- The code that a read of a physical core meets: the core Absent or in no partition, or its partition neither Halted nor Drained. -/
def coreReadable (s : State) (n : Nat) : List (Bool × Code) :=
  [(decide (143 < n), 0x5101), (!unitPresent s.units.core n || (coreOwner s n).isNone, 0x5130),
   (!inState (getPart s ((coreOwner s n).getD 0)) [.halted, .drained], 0x5131)]

/-- The core that a command names first. -/
def needsCore (q : Req) (_ : State) : List (Nat × Nat) := [(1, q.f 0 1)]

/-- DIAG READ_STORE: the store's own codes apply (03 R78, R79). -/
def readStoreH (q : Req) (s : State) : Reply :=
  let n := q.f 0 1
  let a := q.f 4 4
  let len := q.f 8 2
  let c := getCore s n
  let hits := sramHits c.storeChk a len
  let l := pbData (sramBytes c.store c.storeChk a len)
  let s1 := if hits.isEmpty then s
    else modCore n (fun c => { c with storeChk := sramMark c.store c.storeChk a len }) (sramErrors 7 0 n c.store hits s)
  checked ((decide (len < 1 ∨ 4064 < len), 0x5101) :: coreReadable s n)
    (match storeCode c a len with
      | some k => .no k
      | none => .ok s1 l)

/-- The entry of command 0x0A02 in its table. -/
def cmdReadStore : Cmd :=
  { opcode := 0x0A02, cls := 1, d := false, named := fun _ => [(0, 1), (4, 4), (8, 2)], needs := needsCore }

def execReadStore (sub : Submission) (s : State) : Host.Outcome State Fault Refusal :=
  mail cmdReadStore readStoreH sub s

/-- DIAG READ_SCOREBOARD. -/
def readScoreboardH (q : Req) (s : State) : Reply :=
  let c := getCore s (q.f 0 1)
  checked (coreReadable s (q.f 0 1))
    (.ok s ((List.range 64).flatMap (fun i => leBytes (ctr c i).toNat 4)
      ++ (List.range 4).flatMap (fun e => (List.range 64).flatMap (fun i => leBytes (spGet 0 (getEng c e).slots i).toNat 4))))

/-- The entry of command 0x0A03 in its table. -/
def cmdReadScoreboard : Cmd :=
  { opcode := 0x0A03, cls := 1, d := false, named := fun _ => [(0, 1)], needs := needsCore }

def execReadScoreboard (sub : Submission) (s : State) : Host.Outcome State Fault Refusal :=
  mail cmdReadScoreboard readScoreboardH sub s

/-! ### INJECT and RAW_READ (12 R324, R326) -/

/-- The channel that owner's partition names. -/
def chanOwner (s : State) (c : Nat) : Option Nat := (s.parts.find? (fun e => e.2.st != .absent && mem c e.2.chans)).map (·.1)

/-- A unit is drained: owned by no partition, or by one that is Drained or Empty. -/
def unitDrained (s : State) (o : Option Nat) : Bool := match o with
  | none => true
  | some p => inState (getPart s p) [.empty, .drained]

/-- A location: a line of a channel; a slice, set and way; a byte of a core's store. -/
inductive RawPlace where
  | line (chan off : Nat)
  | way (slice set way : Nat)
  | byte (core a : Nat)
deriving DecidableEq, Repr

/-- A location that a request names, or its code. -/
def rawPlace (s : State) (q : Req) : Except Code RawPlace :=
  let v := q.f 8 8
  match q.f 0 1 with
  | 0 => if v % 64 ≠ 0 ∨ stackEnd ≤ v then .error 0x5101 else match locate s v with
    | some (c, o) => .ok (.line c o)
    | none => .error 0x5130
  | 1 => if fld v 39 36 ≠ 0 ∨ fld v 31 0 ≠ 0 ∨ 63 < fld v 63 56 ∨ 2047 < fld v 55 40 then .error 0x5101
    else if unitPresent s.units.slice (fld v 63 56) then .ok (.way (fld v 63 56) (fld v 55 40) (fld v 35 32)) else .error 0x5130
  | 2 => if fld v 55 20 ≠ 0 ∨ 143 < fld v 63 56 then .error 0x5101
    else if unitPresent s.units.core (fld v 63 56) then .ok (.byte (fld v 63 56) (fld v 19 0)) else .error 0x5130
  | _ => .error 0x5101

/-- The owner of the unit of a location. -/
def placeOwner (s : State) : RawPlace → Option Nat
  | .line c _ => chanOwner s c
  | .way n _ _ => sliceOwner s n
  | .byte n _ => coreOwner s n

/-- A list of remembered locations with one more, of at most 256. -/
def remember (x : Nat) (l : List Nat) : List Nat := if mem x l ∨ 256 ≤ l.length then l else l ++ [x]

/-- The line held in a way of a set of a slice. -/
def heldIn (s : State) (n st w : Nat) : Option (Nat × CLine) := (setLines s n st).find? (fun e => e.2.way == w)

/-- The check differences of 64 bytes from a free value: no layout of CHECK for a slice is given (log entry 60). -/
def freeChk (k : Nat) : Sp (BitVec 5) := (List.range 64).foldl (fun m i => spSet 0 m i ((Config.freeByte (k + i)).truncate 5)) []

/-- The data and check bits written at a location. -/
def injectAt (pl : RawPlace) (data chk : List Byte) (s : State) : State :=
  match pl with
  | .line c o =>
    let d := BitVec.ofNat 64 (ofLe chk) ^^^ BitVec.ofNat 64 (ofLe (rsCheck data (lineLA c o)))
    modChan c (fun x => { x with wbQ := x.wbQ.filter (· != o), injected := remember (o / 64) x.injected }) (putRaw c o data d s)
  | .way n st w =>
    let mine := s.cache.injected.filter (fun e => e.1 == n)
    let s1 := if mine.length < 256 ∧ mine.all (fun e => e != (n, st, w)) then
      { s with cache := { s.cache with injected := s.cache.injected ++ [(n, st, w)] } } else s
    match heldIn s n st w with
    | some (L, ln) => putLine L { ln with data := data, chk := freeChk s.free } { s1 with free := s.free + 64 }
    | none => { s1 with
        free := s.free + 64,
        cache := { s1.cache with bare := s1.cache.bare.filter (fun e => !e.isAt n st w) ++ [{ slice := n, set := st, way := w, data := data, chk := freeChk s.free }] } }
  | .byte n a =>
    let b := data.headD 0
    let d := (chk.headD 0).truncate 5 ^^^ byteCheck b
    modCore n (fun c => { c with store := spSet 0 c.store a b, storeChk := spSet 0 c.storeChk a d, injected := remember a c.injected }) s

/-- The unit of a place. -/
def placeUnit (pl : RawPlace) : Nat × Nat := match pl with
  | .line c _ => (3, c)
  | .way n _ _ => (2, n)
  | .byte n _ => (1, n)

/-- The unit of the place that a command names. -/
def needsPlace (q : Req) (s : State) : List (Nat × Nat) := match rawPlace s q with
  | .error _ => []
  | .ok pl => [placeUnit pl]

/-- DIAG INJECT. -/
def injectH (q : Req) (s : State) : Reply :=
  match rawPlace s q with
  | .error k => .no k
  | .ok pl => checked [(s.cfg.chkMode == 0 || !unitDrained s (placeOwner s pl), 0x2260)]
      (.ok (injectAt pl (bytesAt q.pay 16 64) (bytesAt q.pay 80 8) s) [])

/-- The fields of INJECT; for a core-store byte only byte 0 of DATA and the low byte of CHECK are named. -/
def injectFields (q : Req) : List (Nat × Nat) := if q.f 0 1 = 2 then [(0, 1), (8, 8), (16, 64), (80, 1), (88, 0)] else [(0, 1), (8, 8), (16, 64), (80, 8)]

/-- The entry of command 0x0A04 in its table. -/
def cmdInject : Cmd :=
  { opcode := 0x0A04, cls := 1, d := false, named := injectFields, needs := needsPlace }

def execInject (sub : Submission) (s : State) : Host.Outcome State Fault Refusal :=
  mail cmdInject injectH sub s

/-- The row of R319 of a line's difference, and of R315 of a byte's, counted from 0. -/
def lineRow (d : BitVec 64) : Nat := match lineDecode d with
  | .good => 0
  | .poison => 1
  | .corrected _ => 2
  | .misaddress => 3
  | .uncorrectable => 4

def byteRow (d : BitVec 5) : Nat :=
  let s := byteS d
  if !byteP d then (if s = 0 then 0 else 5) else if s = 0 then 1 else if s ≤ 12 then 2 else if s = 13 then 3 else 4

/-- Raw data, CHECK and OUTCOME of a way: CHECK is a free value, OUTCOME the worst row of its bytes (log entry 60). -/
def wayRead (data : List Byte) (chk : Sp (BitVec 5)) (s : State) : State × List Byte :=
  ({ s with free := s.free + 1 },
   data ++ leBytes (Config.freeWord s.free).toNat 8 ++ leBytes ((chk.map (fun e => byteRow e.2)).foldl max 0) 1)

/-- Raw data, check bits and outcome of a location. A way that holds no line and that no injection wrote holds nothing known (log
entry 60). -/
def rawRead (pl : RawPlace) (s : State) : State × List Byte :=
  match pl with
  | .line c o =>
    let data := rawLine s c o
    let chk := BitVec.ofNat 64 (ofLe (rsCheck data (lineLA c o))) ^^^ rawChk s c o
    (s, data ++ leBytes chk.toNat 8 ++ leBytes (lineRow (rawChk s c o)) 1)
  | .way n st w =>
    match heldIn s n st w with
    | some (_, ln) => wayRead ln.data ln.chk s
    | none => match s.cache.bare.find? (fun e => e.isAt n st w) with
      | some e => wayRead e.data e.chk s
      | none => ({ s with free := s.free + 73 }, (List.range 73).map (fun i => Config.freeByte (s.free + i)))
  | .byte n a =>
    let c := getCore s n
    let b := spGet 0 c.store a
    (s, padTo 64 [b] ++ leBytes (byteCheck b ^^^ spGet 0 c.storeChk a).toNat 8 ++ leBytes (byteRow (spGet 0 c.storeChk a)) 1)

/-- DIAG RAW_READ: on drained units, while injection is allowed (R324, R326). -/
def rawReadH (q : Req) (s : State) : Reply :=
  match rawPlace s q with
  | .error k => .no k
  | .ok pl => checked [(s.cfg.chkMode == 0 || !unitDrained s (placeOwner s pl), 0x2260)] (let r := rawRead pl s; .ok r.1 r.2)

/-- The entry of command 0x0A05 in its table. -/
def cmdRawRead : Cmd :=
  { opcode := 0x0A05, cls := 1, d := false, named := fun _ => [(0, 1), (8, 8)], needs := needsPlace }

def execRawRead (sub : Submission) (s : State) : Host.Outcome State Fault Refusal :=
  mail cmdRawRead rawReadH sub s

/-! ### DOMAIN (01 R27 to R29) -/

/-- How many domains of a kind there are. -/
def domainCount (k : Nat) : Nat := (([144, 64, 256, 8, 18, 4, 2, 1, 1] : List Nat)[k]?).getD 0

/-- The state byte of a domain. -/
def domainByte (s : State) (k n : Nat) : Nat :=
  match k with
  | 0 => stateByte s (spGet 0 s.units.core n)
  | 1 => stateByte s (spGet 0 s.units.slice n)
  | 2 => scuByte s n
  | 3 => stateByte s (spGet 0 s.units.stack n)
  | 4 => stateByte s (spGet 0 s.units.port n)
  | 5 => stateByte s (spGet 0 s.units.quad n)
  | 6 => stateByte s (spGet 0 s.units.bridge n)
  | _ => 0

/-- A domain of a partition. -/
def domainOwned (s : State) (k n : Nat) : Bool := match k with
  | 0 => (coreOwner s n).isSome
  | 1 => (sliceOwner s n).isSome
  | 2 => (chanOwner s n).isSome
  | 3 => (List.range 32).any (fun i => (chanOwner s (32 * n + i)).isSome)
  | _ => false

/-- Domains of a kind that are On. -/
def anyOn (s : State) (k : Nat) (l : List Nat) : Bool := l.any (fun n => domainByte s k n == 0)

/-- Switching a domain would break R28: a child on under a parent that is off, a parent off over a child that is on, a stack off that is
not wholly mapped out (R29), or a domain that Ifewin never switches. -/
def breaksOrder (s : State) (k n on : Nat) : Bool :=
  if s.boot.domainsOff ∨ 7 ≤ k then true
  else if on = 1 then match k with
    | 0 => domainByte s 5 (n / 36) != 0
    | 1 => domainByte s 5 (n / 16) != 0
    | 2 => domainByte s 3 (n / 32) != 0
    | 6 => false
    | _ => domainByte s 6 0 != 0 || domainByte s 6 1 != 0
  else match k with
    | 3 => (List.range 32).any (fun i => unitPresent s.units.chan (32 * n + i))
    | 5 => anyOn s 0 ((List.range 36).map (fun i => 36 * n + i)) || anyOn s 1 ((List.range 16).map (fun i => 16 * n + i))
    | 6 => [0, 1, 2, 3, 4, 5].any (fun j => anyOn s j (List.range (domainCount j)))
    | _ => false

/-- The state byte of a domain written. -/
def setDomain (k n v : Nat) (s : State) : State :=
  let u := s.units
  { s with units := match k with
    | 0 => { u with core := spSet 0 u.core n v }
    | 1 => { u with slice := spSet 0 u.slice n v }
    | 2 => { u with scu := spSet 1 u.scu n v }
    | 3 => { u with stack := spSet 0 u.stack n v }
    | 4 => { u with port := spSet 0 u.port n v }
    | 5 => { u with quad := spSet 0 u.quad n v }
    | _ => { u with bridge := spSet 0 u.bridge n v } }

/-- What a domain loses as it goes off, and what happens before (R27): a core its stores, a slice its place in the hash, a port its
partner, the watched peers told first (11 R292). -/
def domainOff (k n : Nat) (s : State) : State :=
  match k with
  | 0 => setDomain 0 n 1 (modCore n (fun _ => darkCore) s)
  | 1 => setDomain 1 n 1 (emptySlice n s)
  | 4 => setDomain 4 n 1 (modPort n (fun x => { x with bufWritten := false }) (leaveUp n .disabled (departNotices s)))
  | _ => setDomain k n 1 s

/-- A domain goes on: a core's banks are On and read 0 (03 R79); a slice that joins the hash finds it empty of what it will serve. -/
def domainOn (k n : Nat) (s : State) : State :=
  match k with
  | 0 => setDomain 0 n 0 (modCore n (fun _ => {}) s)
  | 1 =>
    let s1 := setDomain 1 n 0 s
    setDomain 1 n 0 ((cmoWhere 1 (fun L => mem n (sliceSet s1 (L / 0x8000))) s).1)
  | 4 => let s1 := setDomain 4 n 0 s; if (getPort s n).enabled then leaveUp n .down s1 else s1
  | _ => setDomain k n 0 s

/-- The unit of a domain, for those that R375 numbers. -/
def domainUnit (q : Req) (_ : State) : List (Nat × Nat) := match q.f 0 1 with
  | 0 => [(1, q.f 2 2)]
  | 1 => [(2, q.f 2 2)]
  | 2 => [(3, q.f 2 2)]
  | 3 => [(9, q.f 2 2)]
  | 4 => [(4, q.f 2 2)]
  | _ => []

/-- DIAG DOMAIN: a free unit's domain is switched. -/
def domainH (q : Req) (s : State) : Reply :=
  let k := q.f 0 1
  let n := q.f 2 2
  let on := q.f 4 1
  let was := domainByte s k n
  checked [(decide (8 < k ∨ domainCount k ≤ n ∨ 1 < on), 0x5101), (decide (2 ≤ was) || domainOwned s k n, 0x5130), (breaksOrder s k n on, 0x5133)]
    (.ok (if was + on = 1 then s else unitChanged (if on = 0 then domainOff k n s else domainOn k n s)) [])

/-- The entry of command 0x0A06 in its table. -/
def cmdDiagDomain : Cmd :=
  { opcode := 0x0A06, cls := 1, d := false, named := fun _ => [(0, 1), (2, 2), (4, 1)], needs := domainUnit }

def execDiagDomain (sub : Submission) (s : State) : Host.Outcome State Fault Refusal :=
  mail cmdDiagDomain domainH sub s

end Sys2Proof.Machine
end

