-- ==== Sys2Proof/Machine/Host.lean ====
section
/-!
DEFINITION. The host's memory window and its cache maintenance, and the reset of a function (17 R422 to R425, R434, R436; 03 R72 to R75).
-/

namespace Sys2Proof.Machine

/-! ### The window (R423, R424) -/

/-- The DPA of a BAR4 offset: the PF's own, a VF's through its window (R423, R424). -/
def windowDpa (s : State) (fn off : Nat) : Nat := if fn = 0 then off else spGet 0 s.host.vfwin fn * 0x40000000 + off

/-- Some ring of function v belongs to partition p. -/
def fnHasRing (s : State) (v p : Nat) : Bool := s.rings.any (fun e => e.2.st != .absent && e.2.fn == v && e.2.part == p)

/-- The page is paired under 12 R338, as primary or as mirror. -/
def pairedPage (s : State) (page : Nat) : Bool := s.mem.mirrors.any (fun e => e.1 == page || e.2 == page)

/-- The code of R423's table for an access of a page by a function, if it is refused. While the stacks are off no page is
reachable (log entry 51). -/
def pageCode (s : State) (fn : Nat) (write : Bool) (page : Nat) : Option Code :=
  if stackEnd / 0x200000 ≤ page then some 0x2101
  else if !unitPresent s.units.chan (homeOf page) then some 0x2102
  else if s.boot.domainsOff then some 0x2160
  else match pageOwner s page with
    | .part p => if fn ≠ 0 ∧ fnHasRing s fn p = false then some 0x2160 else if write && pairedPage s page then some 0x2232 else none
    | _ => some 0x2160

/-- The pages of a range of DPAs, at most as many as the stacks hold and one more. -/
def pagesIn (dpa len : Nat) : List Nat :=
  (List.range (min (pageOf (dpa + len - 1) + 1 - pageOf dpa) (stackEnd / 0x200000 + 1))).map (fun i => pageOf dpa + i)

/-- The first code that the pages of a range meet. -/
def rangeCode (s : State) (fn : Nat) (write : Bool) (dpa len : Nat) : Option Code := (pagesIn dpa len).findSome? (pageCode s fn write)

/-- The bytes of a function's BAR4: the PF's is fixed, a VF's resizable (R420). -/
def bar4Size (s : State) (fn : Nat) : Nat := if fn = 0 then 2 ^ 39 else 2 ^ 30 * 2 ^ min 9 (getFn s fn).bar4

/-- BAR4 accesses are at most a TLP of 4 KiB long and within the BAR (R419, R420). -/
def barSpan (s : State) (fn off len : Nat) : Bool := decide (0 < len) && decide (len ≤ 4096) && decide (off + len ≤ bar4Size s fn)

/-- The lines that a range of bytes touches. -/
def linesTouched (dpa len : Nat) : List Nat := (lineSpans dpa len).map (·.1)

/-- A write with the EP bit: every line it touches is written whole and poisoned, the bytes supplied included (R425). -/
def poisonLines (dpa len : Nat) (s : State) : State :=
  (linesTouched dpa len).foldl (fun t L =>
    let (t1, l) := lineRead 1 L t
    lineWriteAlloc L 0 (pbOf true (pbData l)) t1) s

/-- BAR4_WRITE: refused under R423 and dropped, or merged into the owning slices (03 R72, R73). -/
def bar4Write (fn off : Nat) (data : List Byte) (ep : Bool) (s : State) : State :=
  if !hostUp s || !barSpan s fn off data.length then s
  else
    let d := windowDpa s fn off
    match rangeCode s fn true d data.length with
    | some c => hostErr fn true 2 c off s
    | none =>
      let s1 := dpaHostWrite d (pbOf ep data) s
      if ep then hostErr fn true 2 0x2162 off (poisonLines d data.length s1) else s1

def execBar4Write (fn off : Nat) (data : List Byte) (ep : Bool) (s : State) : Host.Outcome State Fault Refusal :=
  onFn fn (.next (bar4Write fn off data ep s))

/-- The whole lines of a range of bytes read by the host, and whether one of them is poisoned (12 R336). -/
def hostRead (d len : Nat) (s : State) : State × List Byte × Bool :=
  let lo := d / 64 * 64
  let (s1, l) := dpaRead 1 lo (cdiv (d + len) 64 * 64 - lo) s
  (s1, (pbData (l.drop (d - lo))).take len, pbPoison l)

/-- BAR4_READ: all ones where R423 refuses it; all ones with EP where a line is poisoned (12 R336); else the bytes. -/
def bar4Read (fn off len : Nat) (s : State) : State :=
  if !hostUp s || !barSpan s fn off len then s
  else
    let d := windowDpa s fn off
    match rangeCode s fn false d len with
    | some c => emit (.readData fn (List.replicate len 0xFF) false) (hostErr fn false 2 c off s)
    | none =>
      let (s1, l, poison) := hostRead d len s
      if poison then emit (.readData fn (List.replicate len 0xFF) true) (hostErr fn false 2 0x2211 off s1)
      else emit (.readData fn l false) s1

def execBar4Read (fn off len : Nat) (s : State) : Host.Outcome State Fault Refusal := onFn fn (.next (bar4Read fn off len s))

/-! ### Cache maintenance of the host (R434, R436) -/

/-- Changing SV_CMO of a function. -/
def modCmo (fn : Nat) (g : Cmo → Cmo) (s : State) : State := modFn fn (fun h => { h with cmo := g h.cmo }) s

/-- SV_CMO_GO with an operation: dropped while Busy; the range and its pages checked; started (R436). -/
def cmoGo (op fn : Nat) (tag : BitVec 32) (rsv : BitVec 30) (s : State) : State :=
  if !hostUp s then s
  else
    let s1 := if rsv = 0 then s else rsvWrite fn s
    let c := (getFn s fn).cmo
    if c.st = 1 then hostErr fn true 1 0x2131 0x20000 s1
    else
      let n := c.lines.toNat
      let d := windowDpa s fn c.base.toNat
      let bad := if n = 0 ∨ 2 ^ 34 < n then some 0x2130 else rangeCode s fn false d (64 * n)
      match bad with
      | some k => modCmo fn (fun c => { c with tag := tag, op := op, code := k, st := 3, written := 0, dropped := 0 }) s1
      | none => modCmo fn (fun c => { c with tag := tag, op := op, code := 0, st := 1, written := 0, dropped := 0, run := some (d, 64 * n) }) s1

def execHostFlush (fn : Nat) (tag : BitVec 32) (rsv : BitVec 30) (s : State) : Host.Outcome State Fault Refusal :=
  onFn fn (.next (cmoGo 0 fn tag rsv s))

def execHostFlushInv (fn : Nat) (tag : BitVec 32) (rsv : BitVec 30) (s : State) : Host.Outcome State Fault Refusal :=
  onFn fn (.next (cmoGo 1 fn tag rsv s))

def execHostInv (fn : Nat) (tag : BitVec 32) (rsv : BitVec 30) (s : State) : Host.Outcome State Fault Refusal :=
  onFn fn (.next (cmoGo 2 fn tag rsv s))

/-- CMO_DONE: the operation that runs is carried out over its DPAs; its counts as 03 R75 reports them, and the flag (R436). -/
def cmoDone (fn : Nat) (s : State) : State :=
  let c := (getFn s fn).cmo
  match c.run with
  | none => s
  | some (d, len) =>
    let (s1, k) := cmoWhere c.op (fun L => decide (d ≤ 64 * L ∧ 64 * L < d + len)) s
    hiSet fn 2 (modCmo fn (fun c => { c with
      st := 2, run := none, written := k.written, dropped := if c.op = 2 then k.discarded else k.dropped,
      code := if k.discarded = 0 then 0 else 0x0210 }) s1)

def execCmoDone (fn : Nat) (s : State) : Host.Outcome State Fault Refusal := onFn fn (.next (cmoDone fn s))

/-! ### Function level reset (R422) -/

/-- The sessions with an open request whose completion ring is one of a function's. -/
def openOnFn (s : State) (v : Nat) : List Nat :=
  (s.sess.map (·.1)).filter (fun n =>
    let x := getSess s n
    x.opened && (getRing s x.compRing).fn == v && (getRing s x.compRing).st != .absent)

/-- A request ends at the end of the step in progress as under CANCEL, or at once (09 R241). -/
def cancelAtStepEnd (n : Nat) (s : State) : State :=
  if (getPart s (getSess s n).part).step.isSome then modSess n (fun x => { x with work := { x.work with cancel := true } }) s
  else endReq n 0x0420 4 false s

/-- The host-facing state of a VF after its reset: configuration space, of which the size of its BAR4 is modelled, MSI-X, and the fields R422
names; the rest kept. -/
def flrFn (h : HostFn) : HostFn :=
  { h with status := h.status &&& 0xF8, imask := 0xFF, herrValid := false, herrWrite := false, herrBar := 0, herrCode := 0,
           msix := [], msixPend := [], bar4 := 9 }

/-- The function level reset of VF v: its rings go to Error with 0x4171 and its requests end with nothing posted. -/
def flrVf (v : Nat) (s : State) : State :=
  let rs := (s.rings.map (·.1)).filter (fun r => (getRing s r).st != .absent && (getRing s r).fn == v)
  let ns := openOnFn s v
  let s1 := rs.foldl (fun t r => dropBacklog r (modRing r (fun x => { x with st := .error, code := 0x4171 }) t)) s
  modFn v flrFn (ns.foldl (fun t n => cancelAtStepEnd n t) s1)

def execFlr (fn : Nat) (s : State) : Host.Outcome State Fault Refusal :=
  onFn fn (.next (if fn = 0 ∨ hostUp s = false then s else flrVf fn s))

def execVfEnableClear (s : State) : Host.Outcome State Fault Refusal :=
  .next (if hostUp s then (List.range 63).foldl (fun t i => flrVf (i + 1) t) s else s)

end Sys2Proof.Machine
end

