-- ==== Sys2Proof/Machine/ModelCmd.lean ====
section
/-!
DEFINITION. The MODEL commands (14 R379): loading Myluhild images (06 R171 to R174), unloading, the Retained attribute (03 R67), mirrors of
weight pages (12 R338) and the confirmation of a reload (12 R339).
-/

namespace Sys2Proof.Machine

/-! ### Images (06 R171 to R174) -/

/-- A field of w bits at a bit offset of some bytes. -/
def fieldAt (bs : List Byte) (bit w : Nat) : Nat := (numAt bs (bit / 8) (cdiv (bit % 8 + w) 8) >>> (bit % 8)) % 2 ^ w

/-- The bytes with that field 0. -/
def zeroField (bs : List Byte) (bit w : Nat) : List Byte :=
  let lo := bit / 8
  let n := cdiv (bit % 8 + w) 8
  bs.take lo ++ leBytes (numAt bs lo n - fieldAt bs bit w * 2 ^ (bit % 8)) n ++ bs.drop (lo + n)

/-- A section table entry (R172). -/
structure Sect where
  kind : Nat
  req : Bool
  off : Nat
  len : Nat
  resv : Bool
deriving DecidableEq, Repr

/-- The section table of an image. -/
def sectTable (d : List Byte) : List Sect :=
  (List.range (numAt d 12 2)).map (fun i =>
    let v := numAt d (64 + 32 * i) 32
    { kind := fld v 7 0, req := tbit v 8, off := fld v 63 32, len := fld v 95 64, resv := fld v 31 9 != 0 || fld v 255 96 != 0 })

/-- The bytes of a section. -/
def sectBytes (d : List Byte) (x : Sect) : List Byte := bytesAt d x.off x.len

/-- The bytes of the section of a kind, none when it is missing. -/
def sectOf (d : List Byte) (k : Nat) : Option (List Byte) := ((sectTable d).find? (fun x => x.kind == k)).map (sectBytes d)

/-- The relocation entries of an image (R173). -/
def relocsOf (d : List Byte) : List Nat := (chunksOf 16 ((sectOf d 6).getD [])).map ofLe

def relKind (r : Nat) : Nat := fld r 51 48
def relWidth (r : Nat) : Nat := fld r 47 40
def relSect (r : Nat) : Nat := fld r 39 32
def relOff (r : Nat) : Nat := fld r 31 0
def relIndex (r : Nat) : Nat := fld r 95 64

/-- The header's fields. -/
def hdrOf (d : List Byte) : Nat := numAt d 0 64

/-- A header field that R171 rejects, or whose reserved bits are not zero. -/
def headerBad (d : List Byte) : Bool :=
  let h := hdrOf d
  fld h 511 224 != 0 || fld h 159 146 != 0 || fld h 127 120 != 0 || fld h 63 56 != 0 || fld h 31 0 != 0x484C594D || fld h 47 32 != 1
    || fld h 95 64 != d.length || fld h 223 192 % 4 != 0 || decide (4096 < fld h 175 160) || fld h 145 144 == 3 || decide (20 < fld h 143 139)
    || fld h 138 137 == 3 || decide (256 < fld h 136 128) || fld h 119 112 == 0 || decide (144 < fld h 119 112)

/-- A section kind that the device knows. -/
def knownKind (k : Nat) : Bool := decide (1 ≤ k ∧ k ≤ 9)

/-- A kind is present with REQUIRED set. -/
def sectRequired (d : List Byte) (k : Nat) : Bool := (sectTable d).any (fun x => x.kind == k && x.req)

/-- The codes that the header and the section table give; KIND 0x00 is rejected whether REQUIRED or not. -/
def tableCodes (d : List Byte) : List Code :=
  let t := sectTable d
  when_ (headerBad d || t.any (fun x => x.resv || decide (x.off % 64 ≠ 0 ∨ d.length < x.off + x.len))) 0x1170
  ++ when_ (hasRepeat (t.map (·.kind)) || t.any (fun x => x.kind == 0 || (!knownKind x.kind && x.req)) || !sectRequired d 1 || !sectRequired d 2) 0x1173

/-- A relocation that R173 rejects by itself. -/
def relocBad (d : List Byte) (r : Nat) : Bool :=
  match (sectTable d)[relSect r]? with
  | none => true
  | some x => !(decide (1 ≤ relKind r ∧ relKind r ≤ 3)) || decide (relWidth r < 1 ∨ 48 < relWidth r) || x.kind == 8
      || decide (8 * x.len < relOff r + relWidth r)
      || (relKind r == 2 && decide (fld (hdrOf d) 136 128 ≤ relIndex r)) || (relKind r == 3 && decide (fld (hdrOf d) 191 176 ≤ relIndex r))

/-- The digest of an image: every section but DIGEST in table order, relocated fields taken as 0 (R172, R173). -/
def imageDigest (d : List Byte) : List Byte :=
  let rs := relocsOf d
  let t := sectTable d
  sha384 (((List.range t.length).zip t).flatMap (fun e =>
    if e.2.kind = 8 then []
    else (rs.filter (fun r => relSect r == e.1 && !relocBad d r)).foldl (fun b r => zeroField b (relOff r) (relWidth r)) (sectBytes d e.2)))

/-- The codes that the contents of an image give. -/
def contentCodes (d : List Byte) : List Code :=
  let h := hdrOf d
  let code := (sectOf d 1).getD []
  let prod := (sectOf d 7).getD []
  when_ (code.length % 4 != 0 || ((sectOf d 2).getD []).length % 32 != 0 || ((sectOf d 6).getD []).length % 16 != 0
      || decide (code.length < fld h 223 192 + 4) || prod.length != fld h 191 176 || prod.any (· == 0)
      || decide (65536 < ((sectOf d 4).getD []).length) || (relocsOf d).any (fun r => fld r 127 96 != 0 || fld r 63 52 != 0)) 0x1170
  ++ when_ (fld h 55 48 != 1) 0x1171
  ++ when_ ((relocsOf d).any (relocBad d)) 0x1174
  ++ when_ (match sectOf d 8 with
      | some x => x != imageDigest d
      | none => false) 0x1175

/-- The code that rejects an image by itself: of the header and table first, then of the contents; the lowest (log entry 56). -/
def imageCode (d : List Byte) : Option Code :=
  if d.length < 64 ∨ d.length < 64 + 32 * numAt d 12 2 then some 0x1170
  else match lowest (tableCodes d) with
    | some c => some c
    | none => lowest (contentCodes d)

/-- The patched value of a relocated field, which the image will use (R173). -/
def patched (d : List Byte) (r : Nat) : Nat := match (sectTable d)[relSect r]? with
  | some x => fieldAt (sectBytes d x) (relOff r) (relWidth r)
  | none => 0

/-- The image as it is loaded. -/
def parseImage (d : List Byte) : Image :=
  let h := hdrOf d
  { entry := fld h 223 192, argLen := fld h 175 160, order := fld h 145 144, waitK := fld h 143 139, storeSize := fld h 138 137,
    lchannels := fld h 136 128, lcores := fld h 119 112, code := (sectOf d 1).getD [],
    templates := (chunksOf 32 ((sectOf d 2).getD [])).map (fun b => BitVec.ofNat 256 (ofLe b)),
    storeInit := (sectOf d 4).getD [], products := ((sectOf d 7).getD []).map (·.toNat),
    binding := (relocsOf d).map (fun r => (relKind r, relIndex r, patched d r)) }

/-- An unknown section was skipped. -/
def skipped (d : List Byte) : Bool := (sectTable d).any (fun x => !knownKind x.kind)

/-- A patched field does not hold what its kind binds it to (R173; for KIND 1 log entry 13). -/
def bindingBad (s : State) (pt : Part) (d : List Byte) (r : Nat) : Bool :=
  let v := patched d r
  match relKind r with
  | 1 => (pteAt pt.ptab v).isNone
  | 2 => !mem v (presentOf s.units.chan pt.chans)
  | _ => decide (v < 1 ∨ 255 < v)

/-- The codes that the images give together and against their partition. -/
def fitCodes (s : State) (pt : Part) (ds : List (List Byte)) : List Code :=
  let is := ds.map parseImage
  let sum := fun (l : List Nat) => l.foldl (· + ·) 0
  when_ (decide (0x10000 < sum (is.map (·.code.length)) ∨ 0x20000 < sum (is.map (fun i => 32 * i.templates.length)))
      || !is.any (imageFits s pt)) 0x1172
  ++ when_ (ds.any (fun d => (relocsOf d).any (bindingBad s pt d))) 0x1174

/-! ### LOAD -/

/-- The KV geometry that a LOAD carries, none with KV_FMT 0xFF. -/
def loadGeom (q : Req) : Option KvGeom :=
  if q.f 3 1 = 0xFF then none
  else some { fmt := q.f 3 1, d := q.f 4 2, h := q.f 6 1, hg := q.f 7 1, layers := q.f 8 2, maxCtx := q.f 12 4 }

/-- A LOAD that R202 or R379 refuses with 0x4201. -/
def loadGeomBad (q : Req) : Bool := match loadGeom q with
  | some g => g.bad
  | none => q.f 4 2 != 0 || q.f 6 1 != 0 || q.f 7 1 != 0 || q.f 8 2 != 0 || q.f 12 4 != 0

/-- The fields of a LOAD. -/
def loadFields (q : Req) : List (Nat × Nat) :=
  [(0, 1), (1, 1), (2, 1), (3, 1), (4, 2), (6, 1), (7, 1), (8, 2), (12, 4), (16, 4), (24, 8)]
  ++ (List.range (q.f 1 1)).map (fun k => (32 + 16 * k, 12))

/-- MODEL LOAD: checked, and then the operation reads and checks the images. -/
def modelLoadH (q : Req) (s : State) : Reply :=
  let p := q.f 0 1
  checked (partChecks s q [.empty] ++ [(decide (q.f 1 1 < 1 ∨ 4 < q.f 1 1 ∨ 1 < q.f 2 1 ∨ q.f 16 4 < 1 ∨ 262144 < q.f 16 4), 0x5101),
      (s.boot.domainsOff, 0x5130), (loadGeomBad q, 0x4201)])
    (.op (modPart p (fun x => { x with loading := some (padTo 96 q.pay) }) s) (some p) [])

/-- The entry of command 0x0301 in its table. -/
def cmdModelLoad : Cmd :=
  { opcode := 0x0301, cls := 1, d := false, named := loadFields, part := part0 }

def execModelLoad (sub : Submission) (s : State) : Host.Outcome State Fault Refusal :=
  mail cmdModelLoad modelLoadH sub s

/-- The images of a load as read through the owning slices; none where one is not readable or poisoned (log entry 56). -/
def readImages (p : Nat) (pay : List Byte) (s : State) : State × Option (List (List Byte)) :=
  (List.range (numAt pay 1 1)).foldl (fun (t : State × Option (List (List Byte))) k =>
    match t.2, vaRead p (numAt pay (32 + 16 * k) 8) (numAt pay (40 + 16 * k) 4) t.1 with
    | some ds, .ok s1 l => (s1, if pbPoison l then none else some (ds ++ [pbData l]))
    | _, .ok s1 _ => (s1, none)
    | _, .err s1 _ _ => (s1, none)) (s, some [])

/-- The pages of a list that can be weight pages: those that the partition owns. Which of them are mapped without W, weightPage
asks at each use (12 R338). -/
def weightsOf (s : State) (p : Nat) (l : List Nat) : List Nat := (dedup l).filter (fun g => ownerPart s g == some p)

/-- The model of a load. -/
def loadedModel (pay : List Byte) (ds : List (List Byte)) : Model :=
  let q : Req := { master := 0, owned := 0, raw := [], hdr := 0, pay := pay }
  { payload := pay, features := q.f 2 1 == 1, kv := loadGeom q, vocab := q.f 16 4, modelId := BitVec.ofNat 64 (q.f 24 8),
    images := ds.map parseImage }

/-- The end of a load: its code, and the partition Drained with its model where no image was rejected. A model of acoustic features
cannot have the Siding (08 R225): the load of one turns it off (log entry 127). -/
def loadImages (p : Nat) (pay : List Byte) (weights : List Nat) (ds : List (List Byte)) (s : State) : State × Code :=
  match lowest (ds.filterMap imageCode) with
  | some c => (s, c)
  | none => match lowest (fitCodes s (getPart s p) ds) with
    | some c => (s, c)
    | none =>
      let ws := weightsOf s p weights
      let m := loadedModel pay ds
      let s1 := modPart p (fun x => { x with
        st := .drained, model := some m, params := { x.params with siding := x.params.siding && !m.features }, imageUse := 0, stepNo := 0, launches := 0, weights := ws }) s
      (scuDomains (getPart s p).chans s1, if ds.any skipped then 0x0111 else 0)

/-- MODEL_LOAD_DONE, not while Ifewin restarts (01 R19); `weights` are the pages that the BUFFERS sections mark as weights, whose layout the spec does not give (log
entry 13). -/
def modelLoadDone (p : Nat) (weights : List Nat) (s : State) : State :=
  match (getPart s p).loading with
  | none => s
  | some pay =>
    if s.sb.restarting then s else
    let r := readImages p pay (modPart p (fun x => { x with loading := none }) s)
    match r.2 with
    | none => endOps p 0x0301 0x1170 r.1
    | some ds => let t := loadImages p pay weights ds r.1; endOps p 0x0301 t.2 t.1

def execModelLoadDone (p : Nat) (weights : List Nat) (s : State) : Host.Outcome State Fault Refusal :=
  onPart p (.next (modelLoadDone p weights s))

/-! ### UNLOAD, RETAIN, INFO -/

/-- MODEL UNLOAD: every session Free (09 R247). -/
def modelUnloadH (q : Req) (s : State) : Reply :=
  let p := q.f 0 1
  let cs := (getPart s p).chans
  checked (partChecks s q [.drained] ++ [(!(sessOf s p).isEmpty, 0x5131)])
    (.ok (scuDomains cs (modPart p (fun x => { x with st := .empty, model := none, weights := [], repair := [], reload := [] }) s)) [])

/-- The entry of command 0x0302 in its table. -/
def cmdModelUnload : Cmd :=
  { opcode := 0x0302, cls := 1, d := false, named := fun _ => [(0, 1)], part := part0 }

def execModelUnload (sub : Submission) (s : State) : Host.Outcome State Fault Refusal :=
  mail cmdModelUnload modelUnloadH sub s

/-- MODEL RETAIN: the Retained attribute of owned pages set or cleared (03 R67). -/
def retainH (q : Req) (s : State) : Reply :=
  let p := q.f 0 1
  let n := q.f 2 2
  let gs := q.list 4 4 n
  let rest := s.mem.retained.filter (fun g => !mem g gs)
  checked (partChecks s q existing ++ [(decide (1 < q.f 1 1 ∨ n < 1 ∨ 1019 < n), 0x5101), (gs.any (fun g => pageOwner s g != .part p), 0x5130)])
    (.ok { s with mem := { s.mem with retained := if q.f 1 1 = 1 then sortNat (rest ++ dedup gs) else rest } } [])

/-- The entry of command 0x0303 in its table. -/
def cmdRetain : Cmd :=
  { opcode := 0x0303, cls := 1, d := false, named := fun q => [(0, 1), (1, 1), (2, 2), (4, 4 * q.f 2 2)], part := part0 }

def execRetain (sub : Submission) (s : State) : Host.Outcome State Fault Refusal :=
  mail cmdRetain retainH sub s

/-- MODEL INFO: the LOAD payload as accepted; zeros before a model is loaded. -/
def modelInfoH (q : Req) (s : State) : Reply :=
  checked (partChecks s q existing) (.ok s (match (getPart s (q.f 0 1)).model with
    | some m => m.payload
    | none => List.replicate 96 0))

/-- The entry of command 0x0306 in its table. -/
def cmdModelInfo : Cmd :=
  { opcode := 0x0306, cls := 0, d := true, named := fun _ => [(0, 1)] }

def execModelInfo (sub : Submission) (s : State) : Host.Outcome State Fault Refusal :=
  mail cmdModelInfo modelInfoH sub s

/-! ### Mirrors and reloads (12 R338, R339) -/

/-- A line that does not read as zeros with valid check bits. -/
def lineLive (s : State) (L : Nat) : Bool := match locate s (L * 64) with
  | none => false
  | some (c, off) => (getChan s c).failed || rawChk s c off != 0 || (rawLine s c off).any (· != 0)

/-- A page copied over another, stack to stack, poison with it; nothing of either is held by a slice afterwards (R338, R339 step 5). -/
def copyPage (src dst : Nat) (s : State) : State :=
  let s1 := (cmoWhere 1 (fun L => L / 0x8000 == src) s).1
  (((List.range 0x8000).filter (fun i => lineLive s1 (src * 0x8000 + i)))).foldl (fun t i =>
    match locate t ((src * 0x8000 + i) * 64), locate t ((dst * 0x8000 + i) * 64) with
    | some (c, off), some (c2, off2) => let r := stackRead 0 c off t; stackWrite c2 off2 r.2 r.1
    | _, _ => t) (fillPage dst s1)

/-- The stack of a page's home channel. -/
def stackOf (page : Nat) : Nat := homeOf page / 32

/-- A pairing that R338 allows: a weight page and another page of the partition, both Spread, or both Pinned on different stacks;
neither in a pair yet. -/
def pairOk (s : State) (p : Nat) (e : Nat × Nat) : Bool :=
  weightPage s e.1 && ownerPart s e.1 == some p && e.1 != e.2 && !pairedPage s e.1 && !pairedPage s e.2
    && (if pagePinned s e.1 then pagePinned s e.2 && stackOf e.1 != stackOf e.2 else !pagePinned s e.2)

/-- MODEL MIRROR. -/
def modelMirrorH (q : Req) (s : State) : Reply :=
  let p := q.f 0 1
  let n := q.f 2 2
  let ps := (List.range n).map (fun i => (q.f (8 + 8 * i) 4, q.f (12 + 8 * i) 4))
  let pair := q.f 1 1 == 0
  checked (partChecks s q existing ++ [(decide (1 < q.f 1 1 ∨ n < 1 ∨ 509 < n), 0x5101),
      (ps.any (fun e => pageOwner s e.1 != .part p || pageOwner s e.2 != .part p), 0x5130),
      (pair && (ps.any (fun e => !pairOk s p e) || hasRepeat (ps.flatMap (fun e => [e.1, e.2]))), 0x2232)])
    (.op (modPart p (fun x => { x with mirroring := some (pair, ps) }) s) (some p) [])

/-- The entry of command 0x0304 in its table. -/
def cmdModelMirror : Cmd :=
  { opcode := 0x0304, cls := 1, d := false, named := fun q => [(0, 1), (1, 1), (2, 2), (8, 8 * q.f 2 2)], part := part0 }

def execModelMirror (sub : Submission) (s : State) : Host.Outcome State Fault Refusal :=
  mail cmdModelMirror modelMirrorH sub s

/-- A pairing carried out: the primary is copied into the mirror. -/
def addMirror (e : Nat × Nat) (s : State) : State :=
  copyPage e.1 e.2 { s with mem := { s.mem with mirrors := sortBy (fun a b => decide (a.1 ≤ b.1)) (s.mem.mirrors ++ [e]) } }

/-- MIRROR_DONE: the pairs are made, or cleared; not while Ifewin restarts (01 R19). -/
def mirrorDone (p : Nat) (s : State) : State :=
  match (getPart s p).mirroring with
  | none => s
  | some (pair, ps) =>
    if s.sb.restarting then s else
    let s1 := modPart p (fun x => { x with mirroring := none }) s
    let s2 := if pair then ps.foldl (fun t e => addMirror e t) s1
      else { s1 with mem := { s1.mem with mirrors := s1.mem.mirrors.filter (fun e => !ps.any (· == e)) } }
    endOps p 0x0304 0 s2

def execMirrorDone (p : Nat) (s : State) : Host.Outcome State Fault Refusal := onPart p (.next (mirrorDone p s))

/-- MODEL RELOADED: a page that was reported with 0x2230 has been rewritten; with the last one the partition resumes. -/
def reloadedH (q : Req) (s : State) : Reply :=
  let p := q.f 0 1
  let g := q.f 4 4
  checked (partChecks s q existing ++ [(!mem g (getPart s p).reload, 0x5101)])
    (.ok (modPart p (fun x => { x with reload := x.reload.filter (· != g) }) s) [])

/-- The entry of command 0x0305 in its table. -/
def cmdReloaded : Cmd :=
  { opcode := 0x0305, cls := 1, d := false, named := fun _ => [(0, 1), (4, 4)], part := part0 }

def execReloaded (sub : Submission) (s : State) : Host.Outcome State Fault Refusal :=
  mail cmdReloaded reloadedH sub s

end Sys2Proof.Machine
end

