-- ==== Sys2Proof/Machine/SessCmd.lean ====
section
/-!
DEFINITION. The SESS commands (14 R381): opening, settings (09 R234), closing, reading, and the adoption of mirrored sessions (13 R349).
-/

namespace Sys2Proof.Machine

/-! ### The device reserve (03 R65, log entry 57) -/

/-- The bytes of a session's log and penalty count table. -/
def sessReserve (cap : Nat) : Nat := logBytes cap + penBytes

/-- The bytes of the reserve in use: the Session Table, the logs and the penalty count tables. -/
def reserveUsed (s : State) : Nat :=
  2 ^ 24 + ((s.sess.filter (fun e => e.2.st != .free)).map (fun e => sessReserve e.2.logCap)).foldl (· + ·) 0

/-- The reserve holds one more log. -/
def reserveFits (s : State) (cap : Nat) : Bool := decide (reserveUsed s + sessReserve cap ≤ 0x2000000 * (healthy s).length)

/-! ### OPEN and CLOSE -/

/-- A session just opened. -/
def freshSess (n p ten cap : Nat) : Sess :=
  { st := .idle, part := p, tenant := ten, logCap := cap, logPtr := reserveAddr (1 + 2 * n), penPtr := reserveAddr (2 + 2 * n) }

/-- SESS OPEN. -/
def sessOpenH (q : Req) (s : State) : Reply :=
  let n := q.f 0 2
  let p := q.f 2 1
  let fl := q.f 3 1
  let cap := q.f 8 4
  let x := { freshSess n p (q.f 4 2) cap with draft := tbit fl 0, penInput := tbit fl 1, link := q.f 6 2 }
  let s1 := modSess n (fun _ => x) s
  checked [(decide (3 < fl), 0x5102), (decide (15 < p ∨ 4095 < q.f 4 2 ∨ cap < 64 ∨ 1048576 < cap), 0x5101),
      ((getSess s n).st != .free, 0x5131), ((getPart s p).st == .absent || !reserveFits s cap || (dirDue s p && (dirPlace s p).isNone), 0x5130)]
    (.ok (if dirDue s p then placeDir p n s1 else s1) (leBytes x.logPtr 8 ++ leBytes x.penPtr 8))

/-- The entry of command 0x0501 in its table. -/
def cmdSessOpen : Cmd :=
  { opcode := 0x0501, cls := 1, d := true, named := fun _ => [(0, 2), (2, 1), (3, 1), (4, 2), (6, 2), (8, 4)] }

def execSessOpen (sub : Submission) (s : State) : Host.Outcome State Fault Refusal :=
  mail cmdSessOpen sessOpenH sub s

/-- The buddy is told that a mirrored session is closed (13 R348). -/
def mirrorClose (n : Nat) (s : State) : State :=
  let x := getSess s n
  match (getPart s x.part).buddy with
  | some b => if x.mirror then sendTo 3 "mirror closed" b [x.part, n] [] [] s else s
  | none => s

/-- A session closed: its pages are cleared (08 R213), its directory, log and table freed; a freed directory is not written. -/
def closeSess (n : Nat) (s : State) : State :=
  let x := getSess s n
  modSess n (fun _ => {}) (releasePages x.part (tailPages (getPart s x.part) x 0) (mirrorClose n s))

/-- SESS CLOSE (09 R235). -/
def sessCloseH (q : Req) (s : State) : Reply :=
  let n := q.f 0 2
  checked [((getSess s n).st == .free, 0x5131), ((getSess s n).opened, 0x4104)] (.ok (closeSess n s) [])

/-- The entry of command 0x0503 in its table. -/
def cmdSessClose : Cmd :=
  { opcode := 0x0503, cls := 1, d := true, named := fun _ => [(0, 2)] }

def execSessClose (sub : Submission) (s : State) : Host.Outcome State Fault Refusal :=
  mail cmdSessClose sessCloseH sub s

/-! ### SETTINGS (09 R234, R260; 13 R346) -/

/-- The settings of an entry laid out as R233, put into a session. -/
def withSettings (e : Nat) (x : Sess) : Sess :=
  { x with
    mirror := tbit e 21, penInput := tbit e 22, link := fld e 319 304, temp := BitVec.ofNat 32 (fld e 639 608),
    topP := BitVec.ofNat 32 (fld e 671 640), minP := BitVec.ofNat 32 (fld e 703 672), rep := BitVec.ofNat 32 (fld e 735 704),
    freq := BitVec.ofNat 32 (fld e 767 736), pres := BitVec.ofNat 32 (fld e 799 768), topK := fld e 810 800, penWindow := fld e 823 811,
    seed := BitVec.ofNat 64 (fld e 895 832),
    stops := (List.range 4).map (fun i => BitVec.ofNat 32 (fld e (927 + 32 * i) (896 + 32 * i))),
    specNodes := fld e 1028 1024, parents := BitVec.ofNat 60 (fld e 1091 1032) }

/-- The bits of R233 that are settings. -/
def settingBits : List (Nat × Nat) := [(22, 21), (319, 304), (823, 608), (895, 832), (1028, 896), (1091, 1032)]

/-- A bit that is no setting is set. -/
def otherBits (e : Nat) : Bool := settingBits.foldl (fun a b => a - fld a b.1 b.2 * 2 ^ b.2) e != 0

/-- An FP32 value is not finite. -/
def notFinite (v : BitVec 32) : Bool := fld v.toNat 30 23 == 255

/-- TEMP negative, infinite or NaN; −0 is not negative. -/
def tempBad (v : BitVec 32) : Bool := notFinite v || decide (0x80000000 < v.toNat)

/-- Not in (0, 1]. -/
def topPBad (v : BitVec 32) : Bool := !(decide (0 < v.toNat ∧ v.toNat ≤ 0x3F800000))

/-- Not in [0, 1). -/
def minPBad (v : BitVec 32) : Bool := !(decide (v.toNat < 0x3F800000 ∨ v.toNat = 0x80000000))

/-- Not finite and positive. -/
def repBad (v : BitVec 32) : Bool := !(decide (0 < v.toNat ∧ v.toNat < 0x7F800000))

/-- The depth of each node of a tree, or none where a parent is not lower than its child. -/
def treeDepths (x : Sess) : Option (List Nat) :=
  (List.range (x.specNodes - 1)).foldl (fun (a : Option (List Nat)) i => a.bind (fun l =>
    (l[parentOf x (i + 1)]?).map (fun d => l ++ [d + 1]))) (some [0])

/-- PARENTS breaks 08 R223. -/
def treeBad (x : Sess) : Bool := match treeDepths x with
  | none => true
  | some l => l.any (fun d => decide (8 < d))

/-- LINK names no draft session of the same tenant whose settings R260 allows. -/
def linkBad (s : State) (x : Sess) : Bool :=
  let d := getSess s x.link
  d.st == .free || !d.draft || d.tenant != x.tenant || !(decide (1 ≤ d.topK ∧ d.topK ≤ 1024) || d.temp == 0)

/-- Settings that R234, R260 or R346 refuse. -/
def settingsBad (s : State) (x : Sess) : Bool :=
  tempBad x.temp || topPBad x.topP || minPBad x.minP || repBad x.rep || notFinite x.freq || notFinite x.pres
  || decide (1024 < x.topK ∨ 4096 < x.penWindow ∨ x.specNodes = 1 ∨ 16 < x.specNodes) || treeBad x || (x.specNodes != 0 && linkBad s x)
  || (x.mirror && (getPart s x.part).buddy.isNone)

/-- A session whose MIRROR bit is set goes to its buddy; of one that was mirrored already the changed entry goes (13 R346, R347); a
cleared one is not mirrored any more. -/
def mirrorSet (n : Nat) (was : Bool) (s : State) : State :=
  let x := getSess s n
  if x.mirror && !was then
    mirrorSend n (modSess n (fun y => { y with mirLive := !(getPart s x.part).unprotected, mirSent := 0, mirAcked := 0 }) s)
  else if x.mirror then mirrorSend n s
  else if was then modSess n (fun y => { y with mirLive := false, mirSent := 0, mirAcked := 0 }) s
  else s

/-- SESS SETTINGS. -/
def settingsH (q : Req) (s : State) : Reply :=
  let n := q.f 0 2
  let e := q.f 16 256
  let x := getSess s n
  checked [(otherBits e, 0x5102), (!(x.st == .idle || (x.st == .sided && !x.opened)) || settingsBad s (withSettings e x), 0x4140)]
    (.ok (mirrorSet n x.mirror (modSess n (withSettings e) s)) [])

/-- The entry of command 0x0502 in its table. -/
def cmdSettings : Cmd :=
  { opcode := 0x0502, cls := 1, d := true, named := fun _ => [(0, 2), (16, 256)] }

def execSettings (sub : Submission) (s : State) : Host.Outcome State Fault Refusal :=
  mail cmdSettings settingsH sub s

/-! ### READ and LOG -/

/-- SESS READ. -/
def sessReadH (q : Req) (s : State) : Reply :=
  let x := getSess s (q.f 0 2)
  .ok s (leBytes x.toNat 256 ++ leBytes x.committed 4 ++ leBytes x.keep 4)

/-- The entry of command 0x0504 in its table. -/
def cmdSessRead : Cmd :=
  { opcode := 0x0504, cls := 0, d := true, named := fun _ => [(0, 2)] }

def execSessRead (sub : Submission) (s : State) : Host.Outcome State Fault Refusal :=
  mail cmdSessRead sessReadH sub s

/-- SESS LOG. -/
def sessLogH (q : Req) (s : State) : Reply :=
  let l := ((getSess s (q.f 0 2)).log.drop (q.f 4 4)).take (q.f 8 2)
  checked [(decide (q.f 8 2 < 1 ∨ 1016 < q.f 8 2), 0x5101)]
    (.ok s (leBytes l.length 2 ++ List.replicate 14 0 ++ l.flatMap (fun e => leBytes e 4)))

/-- The entry of command 0x0505 in its table. -/
def cmdSessLog : Cmd :=
  { opcode := 0x0505, cls := 0, d := true, named := fun _ => [(0, 2), (4, 4), (8, 2)] }

def execSessLog (sub : Submission) (s : State) : Host.Outcome State Fault Refusal :=
  mail cmdSessLog sessLogH sub s

/-! ### Adoption (13 R349) -/

/-- Pair k of an ADOPT payload: local session, source session, partition, tenant. -/
structure AdoptPair where
  loc : Nat
  src : Nat
  part : Nat
  tenant : Nat
deriving DecidableEq, Repr

/-- The pairs of an ADOPT payload. -/
def adoptPairs (pay : List Byte) : List AdoptPair :=
  (List.range (numAt pay 2 1)).map (fun k =>
    { loc := numAt pay (16 + 16 * k) 2, src := numAt pay (18 + 16 * k) 2, part := numAt pay (20 + 16 * k) 1,
      tenant := numAt pay (22 + 16 * k) 2 })

/-- SESS ADOPT: the copies are fetched from the buddy; with no path to it the request ends with 0x3110 (11 R295). -/
def adoptH (q : Req) (s : State) : Reply :=
  let n := q.f 2 1
  checked [(decide (n < 1 ∨ 64 < n) || (adoptPairs q.pay).any (fun a => decide (15 < a.part ∨ 4095 < a.tenant)), 0x5101),
      (!canSend s (q.f 0 2), 0x3110)]
    (.op (sendTo 3 "adopt" (q.f 0 2) [] q.pay [] s) none q.pay)

/-- The entry of command 0x0506 in its table. -/
def cmdAdopt : Cmd :=
  { opcode := 0x0506, cls := 1, d := true, named := fun q => [(0, 2), (2, 1)] ++ (List.range (min 64 (q.f 2 1))).flatMap (fun k => [(16 + 16 * k, 5), (22 + 16 * k, 2)]) }

def execAdopt (sub : Submission) (s : State) : Host.Outcome State Fault Refusal :=
  mail cmdAdopt adoptH sub s

/-- The model identity of a partition. -/
def modelIdOf (pt : Part) : Option (BitVec 64) := pt.model.map (·.modelId)

/-- A pair that is accepted. -/
def adoptOk (s : State) (a : AdoptPair) (c : AdoptCopy) : Bool :=
  (getSess s a.loc).st == .free && c.held && modelIdOf (getPart s a.part) == some c.model && reserveFits s (fld (ofLe c.entry) 511 480)

/-- The adopted session: the copy's settings, log and pending token; nothing of its context is resident. LINK follows the pairs of the
command (log entry 57). -/
def adoptSess (ps : List AdoptPair) (a : AdoptPair) (c : AdoptCopy) : Sess :=
  let e := ofLe c.entry
  let log := c.log.take (fld e 479 448)
  let pend := if fld e 543 512 = 0xFFFFFFFF then none else some (fld e 543 512)
  let x := withSettings e (freshSess a.loc a.part a.tenant (fld e 511 480))
  { x with
    st := .sided, draft := tbit e 20, log := log, pend := pend, committed := log.length - b2n pend.isSome,
    link := ((ps.find? (fun b => b.src == x.link)).map (·.loc)).getD x.link }

/-- One pair adopted: its directory is placed where it can be, and a MIRROR bit takes effect where the partition has a buddy. -/
def adoptOne (ps : List AdoptPair) (a : AdoptPair) (c : AdoptCopy) (s : State) : State :=
  let s1 := modSess a.loc (fun _ => adoptSess ps a c) s
  mirrorSet a.loc false (if dirDue s1 a.part then placeDir a.part a.loc s1 else s1)

/-- ADOPT_DONE: the pairs that can be adopted are; the completion's DETAIL tells which, its code whether all were. -/
def adoptDone (op : Nat) (copies : List AdoptCopy) (s : State) : State :=
  match s.sb.ops.find? (fun o => o.op == op && o.opcode == 0x0506) with
  | none => s
  | some o =>
    let ps := adoptPairs o.arg
    let r := ((List.range ps.length).zip ps).foldl (fun (t : State × Nat) e =>
      match copies[e.1]? with
      | some c => if adoptOk t.1 e.2 c then (adoptOne ps e.2 c t.1, t.2 + 2 ^ e.1) else t
      | none => t) (s, 0)
    opDone o (if r.2 + 1 = 2 ^ ps.length then 0 else 0x4160) (BitVec.ofNat 256 r.2) r.1

def execAdoptDone (op : Nat) (copies : List AdoptCopy) (s : State) : Host.Outcome State Fault Refusal := .next (adoptDone op copies s)

end Sys2Proof.Machine
end

