-- ==== Sys2Proof/Machine/Integrity.lean ====
section
/-!
DEFINITION. Scrubbing, tests, spares and repair (12 R327 to R333, R337, R339), the failure and the map-out of a channel (03 R82 to R84), and
the bridge's spare lanes (01 R17).
-/

namespace Sys2Proof.Machine

/-! ### Scrub and write-back (R327) -/

/-- The lines of a channel. -/
def chanLines : Nat := chanBytes / 64

/-- A channel that answers: present, its stack on, not failed. -/
def chanLive (s : State) (c : Nat) : Bool := unitOn s s.units.chan c && !(getChan s c).failed

/-- A poisoned line was found at a place: sessions whose records lie there fail (R337), and sessions whose pages do are Sided (08 R230). -/
def poisonFound (c off : Nat) (s : State) : State :=
  let s1 := checkRecords s
  match (placeDpa s c off).bind (fun d => ownerPart s (pageOf d)) with
  | some p => loseSessions p s1
  | none => s1

/-- PATROL_SCRUB: the next line of the channel is read. -/
def patrolScrub (c : Nat) (s : State) : State :=
  if !chanLive s c then s
  else
    let i := (getChan s c).scrubPos
    let r := stackRead 2 c (64 * i) (modChan c (fun x => { x with scrubPos := (i + 1) % chanLines }) s)
    if pbPoison r.2 then poisonFound c (64 * i) r.1 else r.1

def execPatrolScrub (c : Nat) (s : State) : Host.Outcome State Fault Refusal := onUnit "channel" c 256 (.next (patrolScrub c s))

/-- CORRECTIVE_WRITE_BACK: the first queued line is written corrected; a newer write has taken it from the queue. -/
def correctiveWriteBack (c : Nat) (s : State) : State :=
  match (getChan s c).wbQ with
  | [] => s
  | off :: rest =>
    if !chanLive s c then s
    else match lineDecode (rawChk s c off) with
      | .corrected es => stackWrite c off (pbOf false (applyFix (rawLine s c off) es)) s
      | _ => modChan c (fun x => { x with wbQ := rest }) s

def execCorrectiveWriteBack (c : Nat) (s : State) : Host.Outcome State Fault Refusal := onUnit "channel" c 256 (.next (correctiveWriteBack c s))

/-! ### Spares (R330, R333) -/

/-- The last record of an error at a place, as the second record repeats it (R332). -/
def lastRec (s : State) (kind unit bank rowSet lineWay : Nat) : ErrRec :=
  ((s.sb.errRecs.filter (fun r => r.kind == kind && r.unit == unit && r.bank == bank && r.rowSet == rowSet && r.lineWay == lineWay)).getLast?).getD
    { code := 0x0220, kind := kind, foundBy := 4, unit := unit, bank := bank, rowSet := rowSet, lineWay := lineWay }

/-- Units to be mapped out, the record saying so. -/
def willPend (kind n : Nat) (s : State) : State :=
  let c := s.cfg
  { s with cfg := match kind with
    | 0 => { c with pendChannels := addOnce n c.pendChannels }
    | 1 => { c with pendSlices := addOnce n c.pendSlices }
    | _ => { c with pendCores := addOnce n c.pendCores } }

/-- A lasting fault without a spare: 0x2220, the map-out pending; a channel's is told to the partitions that own pages of it (03 R83). -/
def noSpare (kind n : Nat) (r : ErrRec) (s : State) : State :=
  let s1 := recordErr { r with code := 0x2220, cls := 2, action := 5 } (willPend kind n s)
  if kind = 0 ∧ mem n s.cfg.pendChannels = false then (homeOwners s n).foldl (fun t p => partEvent p 0x2220 t) s1 else s1

/-- A way is disabled in its set; a fifth of one set or a 513th of one slice takes the slice to map-out. -/
def disableWay (n st w : Nat) (r : ErrRec) (s : State) : State :=
  let s1 := match heldIn s n st w with
    | some (L, ln) => evict L ln s
    | none => s
  let off := if s1.cache.waysOff.any (fun e => e == (n, st, w)) then s1.cache.waysOff else s1.cache.waysOff ++ [(n, st, w)]
  let s2 := { s1 with cache := { s1.cache with waysOff := off } }
  if 4 < (off.filter (fun e => e.1 == n && e.2.1 == st)).length ∨ 512 < (off.filter (fun e => e.1 == n)).length then noSpare 1 n r s2
  else recordErr { r with code := 0x0221, cls := 2, action := 4 } s2

/-- BACKGROUND_TEST: the next set of the slice: its contents are checked, and the ways whose cells fail are disabled (R328). -/
def backgroundTest (n : Nat) (bad : List Nat) (s : State) : State :=
  if !unitOn s s.units.slice n then s
  else
    let st := spGet 0 s.cache.testPos n
    let s1 := { s with cache := { s.cache with testPos := spSet 0 s.cache.testPos n ((st + 1) % 2048) } }
    let s2 := (setLines s1 n st).foldl (fun t e => (checkLine 3 e.1 e.2 t).1) s1
    let ways := (dedup bad).filter (fun w => decide (w < 16) && !mem w (offWays s n st))
    settleFree (ways.foldl (fun t w => disableWay n st w { code := 0x0221, kind := 1, foundBy := 3, unit := n, rowSet := st, lineWay := w } t) s2)

def execBackgroundTest (n : Nat) (bad : List Nat) (s : State) : Host.Outcome State Fault Refusal := onUnit "slice" n 64 (.next (backgroundTest n bad s))

/-- The test of a channel's address path, or of the row of its first queued error (R329, R330). -/
def testChan (c : Nat) (fails : Bool) (s : State) : State :=
  let x := getChan s c
  if x.addrTest then
    let r := ((s.sb.errRecs.filter (fun r => r.kind == 0 && r.unit == c && r.cls == 5)).getLast?).getD { code := 0x2212, kind := 0, foundBy := 4, unit := c }
    let s1 := modChan c (fun x => { x with addrTest := false }) s
    if fails then noSpare 0 c r s1 else s1
  else match x.testQ with
    | [] => s
    | off :: rest =>
      let b := bankOf off
      let r := lastRec s 0 c b (dramRow off) (dramCol off / 64)
      let same := (recent s.ftime dayNs x.errs).filter (fun e => bankOf (64 * e.1) == b && dramRow (64 * e.1) == dramRow off)
      let s1 := modChan c (fun x => { x with testQ := rest }) s
      if !fails && decide (same.length < 2) then recordErr { r with cls := 1 } s1
      else if spGet 0 x.spares b < 4 then
        recordErr { r with code := 0x0221, cls := 2, action := 3 } (modChan c (fun x => { x with spares := spMod 0 x.spares b (· + 1) })
          { s1 with cfg := { s1.cfg with softRepairs := s1.cfg.softRepairs ++ [(c, b, dramRow off)] } })
      else noSpare 0 c r s1

/-- The test of the set and way of a slice's first queued error. -/
def testSlice (n : Nat) (fails : Bool) (s : State) : State :=
  match s.cache.testQ.find? (fun e => e.1 == n) with
  | none => s
  | some (_, st, w) =>
    let q := s.cache.testQ
    let s1 := { s with cache := { s.cache with testQ := q.erase (n, st, w) } }
    let r := lastRec s 1 n 0 st w
    let same := s.cache.errs.filter (fun e => e.1 == n && e.2.1 == st * 16 + w && decide (s.ftime < e.2.2 + dayNs))
    if !fails && decide (same.length < 2) then recordErr { r with cls := 1 } s1 else disableWay n st w r s1

/-- The test of the word of a core's first queued error. -/
def testCore (n : Nat) (fails : Bool) (s : State) : State :=
  let x := getCore s n
  match x.testQ with
  | [] => s
  | w :: rest =>
    let fs := wordFields x.size w
    let r := lastRec s fs.1 n fs.2.1 fs.2.2 0
    let same := (recent s.ftime dayNs x.errs).filter (fun e => e.1 == w)
    let s1 := modCore n (fun x => { x with testQ := rest }) s
    if !fails && decide (same.length < 2) then recordErr { r with cls := 1 } s1 else noSpare 2 n r s1

/-- A lasting fault of a Points lane: the first lane is disabled, a second makes the device failed (13 R344). -/
def laneFault (n : Nat) (s : State) : State :=
  let s1 := recordErr { code := 0x2220, kind := 7, foundBy := 4, cls := 2, unit := n } s
  if mem n s.units.pointsOff then s
  else if s.units.pointsOff.isEmpty then { s1 with units := { s1.units with pointsOff := [n] } }
  else failDevice s1

/-- A lasting fault of a small SRAM: reported with 0x2220 (R333). KIND 5 is Ifewin's RAM, 6 a Junction receive buffer, 7 another. -/
def smallFault (kind n : Nat) (s : State) : State := recordErr { code := 0x2220, kind := kind, foundBy := 4, cls := 2, unit := n } s

/-- A transient error of a small SRAM is only recorded (R330). -/
def smallError (kind n : Nat) (s : State) : State :=
  recordErr { code := 0x0220, kind := kind, foundBy := 4, cls := 1, unit := n, corrected := 1, action := 1 } s

/-- The test of an SRAM outside cores and slices (13 R341): 3 a Points lane, 4 the buffers of an SCU, whose channel goes to map-out, 5 the
SRAM of the Dispatcher and the ring engines, without which the device has failed, 6 Ifewin's RAM, 7 the receive buffer of a port; an error at a
location of the last two that was not written yet is Ifewin's own fault (R323). -/
def testSram (kind n : Nat) (fails : Bool) (s : State) : State := match kind with
  | 3 => if fails then laneFault n s else smallError 7 n s
  | 4 => if !chanLive s n then s else if fails then noSpare 0 n { code := 0x2220, kind := 7, foundBy := 4, unit := n } s else smallError 7 n s
  | 5 => if fails then failDevice (smallFault 7 0 s) else smallError 7 0 s
  | 6 => if !s.sb.ramWritten then unwrittenRead 5 0 4 s else if fails then smallFault 5 0 s else smallError 5 0 s
  | _ => if !(getPort s n).bufWritten then unwrittenRead 6 n 4 s else if fails then smallFault 6 n s else smallError 6 n s

/-- The units of each kind of test. -/
def testCount (kind : Nat) : Nat := (([256, 64, 144, 16, 256, 1, 1, 18] : List Nat)[kind]?).getD 0

/-- TARGETED_TEST of a channel (kind 0), a slice (1), a core (2) or another SRAM (3 to 7): the class of the error is known, and a lasting
fault takes its spare, or what the device does without one. -/
def targetedTest (kind n : Nat) (fails : Bool) (s : State) : State :=
  settleFree (match kind with
    | 0 => if chanLive s n then testChan n fails s else s
    | 1 => if unitOn s s.units.slice n then testSlice n fails s else s
    | 2 => if unitOn s s.units.core n then testCore n fails s else s
    | _ => if s.boot.domainsOff then s else testSram kind n fails s)

def execTargetedTest (kind n : Nat) (fails : Bool) (s : State) : Host.Outcome State Fault Refusal :=
  onUnit "kind of test" kind 8 (onUnit "unit" n (testCount kind) (.next (targetedTest kind n fails s)))

/-! ### Weight pages (R339) -/

/-- A record of a weight page. -/
def weightRec (p page code action : Nat) : ErrRec :=
  { code := code, kind := 0, foundBy := 2, action := action, unit := homeOf page, part := some p, weight := true, dpa := page * 0x200000 }

/-- A line of the page and the line of its mirror at the same offset are both poisoned. -/
def bothSick (s : State) (page mirror : Nat) : Bool :=
  (List.range 0x8000).any (fun i => lineSick s (page * 0x8000 + i) && lineSick s (mirror * 0x8000 + i))

/-- The lines of a page that are not good are read, so that those that cannot be corrected are poisoned (R335). -/
def readPage (g : Nat) (s : State) : State :=
  (List.range 0x8000).foldl (fun t i => match locate t ((g * 0x8000 + i) * 64) with
    | some (c, off) => if rawChk t c off = 0 then t else (stackRead 0 c off t).1
    | none => t) s

/-- Step 5: the primary out of the slices, and the mirror read, out of the slices too. -/
def readyRepair (g m : Nat) (s : State) : State :=
  readPage m (cmoWhere 1 (fun L => L / 0x8000 == m) (cmoWhere 1 (fun L => L / 0x8000 == g) s).1).1

/-- The mirror's lines over the primary's; a good line of the primary is not replaced by a poisoned one of the mirror (log entry 131). -/
def copyMirror (m g : Nat) (s : State) : State :=
  ((List.range 0x8000).filter (fun i => (lineLive s (m * 0x8000 + i) || lineLive s (g * 0x8000 + i)) && !lineSick s (m * 0x8000 + i))).foldl
    (fun t i => match locate t ((m * 0x8000 + i) * 64), locate t ((g * 0x8000 + i) * 64) with
      | some (c, off), some (c2, off2) => let r := stackRead 0 c off t; stackWrite c2 off2 r.2 r.1
      | _, _ => t) s

/-- The owner is asked to reload a weight page (0x2230). -/
def askReload (p g : Nat) (s : State) : State :=
  pevtSet p (recordErr (weightRec p g 0x2230 0) (modPart p (fun x => { x with reload := addOnce g x.reload }) s))

/-- WEIGHT_REPAIR: while no step runs, the first page that waits is copied from its mirror, or its reload is asked for; not while
Ifewin restarts (01 R19). -/
def weightRepair (p : Nat) (s : State) : State :=
  let pt := getPart s p
  match pt.repair with
  | [] => s
  | g :: rest =>
    if pt.kernel.isSome || pt.step.isSome || s.sb.restarting then s
    else
      let s1 := modPart p (fun x => { x with repair := rest }) s
      match s.mem.mirrors.find? (fun e => e.1 == g) with
      | some (_, m) =>
        let s2 := readyRepair g m s1
        if bothSick s2 g m then askReload p g s2 else recordErr (weightRec p g 0x0223 7) (copyMirror m g s2)
      | none => askReload p g s1

def execWeightRepair (p : Nat) (s : State) : Host.Outcome State Fault Refusal := onPart p (.next (weightRepair p s))

/-! ### The failure of a channel (03 R84, 04 R113) -/

/-- The weight pages of a partition that lost lines with a channel: those homed on it, and every Spread one. -/
def weightsLost (s : State) (c p : Nat) : List Nat := ((getPart s p).weights).filter (fun g => weightPage s g && (!pagePinned s g || homeOf g == c))

/-- The commands that a failed channel's SCU held: their ready bits are raised and their cores halt with 0x2141. -/
def loseScu (c : Nat) (s : State) : State :=
  let q := (getChan s c).queue
  q.foldl (fun t e => scuHalt e c 0x2141 (raiseReady e t)) (modChan c (fun x => { x with queue := [], refPauses := 0 }) s)

/-- CHANNEL_FAILURE: the channel reads as poisoned from now on, and its map-out is pending. -/
def channelFailure (c : Nat) (s : State) : State :=
  if !chanLive s c then s
  else
    let s1 := modChan c (fun x => { x with failed := true, wbQ := [], testQ := [] }) (loseScu c s)
    let s2 := (List.range 16).foldl (fun t p => modPart p (fun x => { x with repair := (weightsLost s c p).foldl (fun l g => addOnce g l) x.repair }) t) s1
    let s3 := (List.range 16).foldl (fun t p => loseSessions p t) s2
    checkRecords (pendChannel c 0x2220 s3)

def execChannelFailure (c : Nat) (s : State) : Host.Outcome State Fault Refusal := onUnit "channel" c 256 (.next (channelFailure c s))

/-! ### The map-out of a channel (03 R82, R83) -/

/-- Some page above the reserve homed on a channel is owned (step 2). -/
def homeOwned (s : State) (c : Nat) : Bool :=
  (List.range 768).any (fun f => decide (16 ≤ f) && pageOwner s (c * 768 + f) != .free)

/-- A Spread row above the reserve is wholly free (step 3). -/
def freeRow (s : State) : Bool := (List.range 768).any (fun f => decide (16 ≤ f) && rowModeOf s f == .spread && !rowOwned s f)

/-- The lines with a check difference are read and written back, so that the copy of step 4 carries corrected or poisoned lines. -/
def settleLines (s : State) : State :=
  s.mem.chk.foldl (fun t e =>
    let c := e.1 * 64 / chanBytes
    let off := e.1 * 64 % chanBytes
    if rowModeOf t (off / 0x200000) = .pinned then t else let r := stackRead 0 c off t; stackWrite c off r.2 r.1) s

/-- Where a place lies when channel c is healthy no more; nothing of c's Pinned frames and of the pages homed on c stays. -/
def movedKey (s : State) (c key : Nat) : Option Nat :=
  let hs := healthy s
  (placeDpaIn s hs (key / chanBytes) (key % chanBytes)).bind (fun d =>
    (locateIn s (hs.filter (· != c)) d).map (fun p => placeKey p.1 p.2))

/-- The places of a failed channel's lines of Spread rows. -/
def lostKeys (s : State) (c : Nat) : List Nat :=
  if (getChan s c).failed then
    ((List.range chanLines).filter (fun i => rowModeOf s (64 * i / 0x200000) == .spread)).map (fun i => placeKey c (64 * i))
  else []

/-- Step 4: every Spread row in its new layout; what a failed channel held is poisoned there. -/
def relay (c : Nat) (s : State) : State :=
  let s1 := settleLines s
  let bytes := s1.mem.bytes.foldl (fun m e => match movedKey s1 c e.1 with
    | some k => spSet 0 m k e.2
    | none => m) []
  let chk := s1.mem.chk.foldl (fun m e => match movedKey s1 c (64 * e.1) with
    | some k => spSet 0 m (k / 64) e.2
    | none => m) []
  let lost := (lostKeys s1 c).foldl (fun m key => match movedKey s1 c key with
    | some k => spSet 0 m (k / 64) linePoison
    | none => m) chk
  let pinned := fun (off : Nat) => rowModeOf s1 (off / 0x200000) == .pinned
  { s1 with
    mem := { s1.mem with bytes := bytes, chk := lost },
    chans := (s1.chans.map (fun e => (e.1, { e.2 with
      wbQ := e.2.wbQ.filter pinned, injected := e.2.injected.filter (fun l => pinned (64 * l)) }))).filter (fun e => e.2 != ({} : Chan)) }

/-- Step 5: the channel is Absent; its KV pages, fills and SCU go with it. -/
def chanOut (c : Nat) (s : State) : State :=
  let s1 := (List.range 16).foldl (fun t p =>
    let gone := (getPart t p).pool.filter (fun g => homeOf g == c)
    if gone.isEmpty then t else takeKvPages p gone t) s
  let s2 := modChan c (fun _ => {}) { s1 with
    units := { s1.units with chan := spSet 0 s1.units.chan c mappedOut, scu := spSet 1 s1.units.scu c 1 },
    mem := { s1.mem with filling := s1.mem.filling.filter (fun g => homeOf g != c) },
    cfg := { s1.cfg with outChannels := addOnce c s1.cfg.outChannels, pendChannels := s1.cfg.pendChannels.filter (· != c) } }
  endMapout 3 c (unitChanged (post 0x2221 3 c s2))

/-- MAPOUT_PROCEED: steps 2 to 5 of R83, while Ifewin runs (01 R19); a failed channel's pages need not be moved first (R84). It waits while no row is free. -/
def mapoutProceed (c : Nat) (s : State) : State :=
  if !mem c s.cfg.pendChannels || (homeOwned s c && !(getChan s c).failed) || s.boot.domainsOff || s.sb.restarting then s
  else if !freeRow s then post 0x2220 3 c s
  else chanOut c (relay c s)

def execMapoutProceed (c : Nat) (s : State) : Host.Outcome State Fault Refusal := onUnit "channel" c 256 (.next (mapoutProceed c s))

/-! ### The bridge (01 R17) -/

/-- BRIDGE_LANE_FAULT: a spare lane replaces the failed one; without one the device has failed. -/
def bridgeLaneFault (h : Nat) (s : State) : State :=
  if s.boot.domainsOff then s
  else if spGet 0 s.units.bridgeSpares h < Config.bridgeSpares then
    { s with units := { s.units with bridgeSpares := spMod 0 s.units.bridgeSpares h (· + 1) } }
  else failDevice s

def execBridgeLaneFault (h : Nat) (s : State) : Host.Outcome State Fault Refusal := onUnit "bridge half" h 2 (.next (bridgeLaneFault h s))

end Sys2Proof.Machine
end

