-- ==== Sys2Proof/Machine/Matrix.lean ====
section
/-!
DEFINITION. The Matrix Engine: MATMUL (06 R151 to R153, 02 R42, R43, R50, R51, 05 R131), and SYNC of every engine.
-/

namespace Sys2Proof.Machine

/-- The conversion targets of an output tile: those of 02 R32 but INT32 and E8M0, which R32 limits to other uses. -/
def Fmt.tileOk (f : Fmt) : Bool := f != .int32 && f != .e8m0

/-- The bytes of a block of `rows` rows or columns of one chunk (R152). -/
def Fmt.matBlock (f : Fmt) (rows : Nat) : Nat := rows * (f.blockBytes + f.scaleBytes)

/-- The bytes of an output tile (R152): the elements, and two scale bytes per row for an MX tile. -/
def Fmt.tileBytes (f : Fmt) : Nat := 128 * (2 * f.blockBytes) + if f.isMx then 256 else 0

/-- The first m values of row r of a block. -/
def matRow (f : Fmt) (rows m : Nat) (l : List PB) (r : Nat) : List (Val × Bool) :=
  blockValues f m ((l.drop (r * f.blockBytes)).take f.blockBytes)
    ((l.drop (rows * f.blockBytes + r * f.scaleBytes)).take f.scaleBytes)

/-- The rows of a tile's chunks: for each chunk, each row's values. -/
def matRows (f : Fmt) (rows k : Nat) (blocks : List (List PB)) : List (List (List (Val × Bool))) :=
  ((List.range blocks.length).zip blocks).map (fun e =>
    (List.range rows).map (matRow f rows (min 32 (k - 32 * e.1)) e.2))

/-- One element of a tile from its row's and its column's chunks: the exact sum of each chunk, the chain of each segment, the
tree of the segments (02 R42, R50, R51). -/
def dotChunks (a b : List (List (Val × Bool))) : Nat × Events :=
  let sums := List.zipWith (fun x y => [exactSum (List.zipWith (fun u v => Val.mul u.1 v.1) x y)]) a b
  (tree joinAdd ((chunksOf 32 sums).map chain)).getD (0, 0)

/-- A list of chunks of one row or column. -/
def rowChunks (m : List (List (List (Val × Bool)))) (r : Nat) : List (List (Val × Bool)) := m.map (fun ch => (ch[r]?).getD [])

/-- Any poison among chunks. -/
def chunkPoison (c : List (List (Val × Bool))) : Bool := c.any (fun x => x.any (·.2))

/-- The events of reading some rows. -/
def rowsEv (m : List (List (List (Val × Bool)))) : Events :=
  orEv (m.map (fun c => orEv (c.map (fun r => orEv (r.map (fun v => readEv v.1))))))

/-- The 128 × 64 FP32 results of a tile, row by row, with poison, and the events of the products and sums. -/
def tileSums (am bm : List (List (List (Val × Bool)))) : List (List (Nat × Bool)) × Events :=
  let as_ := (List.range 128).map (rowChunks am)
  let bs := (List.range 64).map (rowChunks bm)
  let ap := as_.map chunkPoison
  let bp := bs.map chunkPoison
  let rows := (as_.zip ap).map (fun a => (bs.zip bp).map (fun b => (dotChunks a.1 b.1, a.2 || b.2)))
  (rows.map (fun r => r.map (fun e => (e.1.1, e.2))), rowsEv am ||| rowsEv bm ||| orEv (rows.map (fun r => orEv (r.map (fun e => e.1.2)))))

/-- The FP32 tile already at the C point added with one rounding (C_IN, R151). -/
def addTile (old : List PB) (t : List (List (Nat × Bool))) : List (List (Nat × Bool)) × Events :=
  let od := pbData old
  let rows := ((List.range t.length).zip t).map (fun r => ((List.range r.2.length).zip r.2).map (fun e =>
    let o := 4 * (64 * r.1 + e.1)
    (f32Add e.2.1 (numAt od o 4), e.2.2 || pbPoison ((old.drop o).take 4))))
  (rows.map (fun r => r.map (fun e => (e.1.1, e.2))), orEv (rows.map (fun r => orEv (r.map (fun e => e.1.2)))))

/-- One half row of a tile converted. An INT8, INT4 or Paged KV-4 tile needs a scale that the spec does not name for the ME:
it is the free word given (log entry 38). -/
def tileHalf (f : Fmt) (sat : Bool) (rule : Nat) (scale : Word) (vs : List (Nat × Bool)) : OutBlock :=
  convBlock f sat rule (pbOf false (leBytes scale.toNat 4)) (vs.map (fun v => (f32 v.1, v.2)))

/-- A tile converted on draining: its bytes in the layout of R152, and the events. -/
def drainTile (f : Fmt) (sat : Bool) (rule base : Nat) (t : List (List (Nat × Bool))) : List PB × Events :=
  let hs := ((List.range t.length).zip t).flatMap (fun r =>
    [tileHalf f sat rule (Config.freeWord (base + 2 * r.1)) (r.2.take 32),
     tileHalf f sat rule (Config.freeWord (base + 2 * r.1 + 1)) (r.2.drop 32)])
  (hs.flatMap (·.elems) ++ (if f.isMx then hs.flatMap (·.scale) else []), orEv (hs.map (·.ev)))

/-- The words of a MATMUL command. -/
structure MatCmd where
  af : Fmt
  bf : Fmt
  cf : Fmt
  sat : Bool
  rule : Nat
  cin : Bool
  k : Nat

/-- The blocks of one tile, read from the store. -/
def readBlocks (n size : Nat) (as_ : List Int) (s : State) : State × List (List PB) :=
  as_.foldl (fun (t : State × List (List PB)) a => let (s1, l) := storeRead n a.toNat size t.1; (s1, t.2 ++ [l])) (s, [])

/-- One output tile (R153: computed whole, then written); `ctl`: a loop record of the command was poisoned. -/
def matTile (n : Nat) (m : MatCmd) (ctl : Bool) (a b : List Int) (c : Int) (t : State × Done) : State × Done :=
  let (s1, al) := readBlocks n (m.af.matBlock 128) a t.1
  let (s2, bl) := readBlocks n (m.bf.matBlock 64) b s1
  let (sums, e1) := tileSums (matRows m.af 128 m.k al) (matRows m.bf 64 m.k bl)
  let (s3, old) := if m.cin then storeRead n c.toNat (128 * 64 * 4) s2 else (s2, [])
  let (tile, e2) := if m.cin then addTile old sums else (sums, 0)
  let (out, e3) := drainTile m.cf m.sat m.rule s3.free tile
  let bytes := pbAlso ctl out
  let s4 := { s3 with free := s3.free + if m.cf.scaleBytes = 4 then 256 else 0 }
  (storeWrite n c.toNat bytes s4,
   { t.2 with ev := t.2.ev ||| e1 ||| e2 ||| e3, poison := t.2.poison || pbPoison bytes })

/-- The checks of MATMUL's own words (R151, 02 R43, R45, R48, R55). -/
def matCodes (ordered : Bool) (x : Nat) : List Code :=
  let (af, c1) := fmtField (fld x 192 188)
  let (bf, c2) := fmtField (fld x 197 193)
  let (cf, c3) := fmtField (fld x 202 198)
  let k := fld x 231 208
  c1 ++ c2 ++ c3 ++ when_ ((c1.isEmpty && !af.meOk) || (c2.isEmpty && !bf.meOk) || !cf.tileOk) 0x1201
  ++ when_ (c1.isEmpty && c2.isEmpty && af.isInt != bf.isInt) 0x1203
  ++ satRuleCodes cf (fld x 203 203) (fld x 205 204) (cf.isFp8 || cf.isMx)
  ++ when_ (tbit x 207 || fld x 255 249 != 0) 0x1101
  ++ when_ (k == 0 || (tbit x 206 && cf != .fp32)) 0x1102
  ++ when_ (ordered && (tbit x 206 || !segAligned (fld x 247 232) (cdiv k 1024) (tbit x 248))) 0x1210

/-- MATMUL's work. -/
def matBody (n : Nat) (e : QEnt) (s : State) : Res EngWork :=
  let x := e.cmd.toNat
  let m : MatCmd :=
    { af := (fmtField (fld x 192 188)).1, bf := (fmtField (fld x 197 193)).1, cf := (fmtField (fld x 202 198)).1,
      sat := tbit x 203, rule := fld x 205 204, cin := tbit x 206, k := fld x 231 208 }
  let (s1, rs) := loadLoops n [fld x 147 128, fld x 167 148, fld x 187 168] s
  let kc := cdiv m.k 32
  let cnt := fun i => (recOf rs i).count
  let codes := matCodes (coreOrdered s n) x ++ loopCodes rs ++ ownOnly rs
    ++ ownCodes s1 n rs 0 (m.af.matBlock 128) ++ ownCodes s1 n rs 1 (m.bf.matBlock 64) ++ ownCodes s1 n rs 2 m.cf.tileBytes
    ++ when_ ((loopCodes rs).isEmpty && (decide (cnt 0 ≠ cnt 2 * kc) || decide (cnt 1 ≠ cnt 2 * kc))) 0x1104
  orReject codes s1 (fun s2 =>
    let as_ := chunksOf kc (recOf rs 0).addrs
    let bs := chunksOf kc (recOf rs 1).addrs
    let r := ((as_.zip bs).zip (recOf rs 2).addrs).foldl (fun t p => matTile n m (ctlPoison rs) p.1.1 p.1.2 p.2 t) (s2, {})
    .ok r.1 (.ok r.2))

def execMatmul (n : Nat) (s : State) : Host.Outcome State Fault Refusal := onCore n (runEngine n 0 0x01 (matBody n) s)

/-- SYNC of any engine queue (06 R146). -/
def execSync (n q : Nat) (s : State) : Host.Outcome State Fault Refusal :=
  onCore n (if q < 4 then runEngine n q 0x3F syncBody s else s)

end Sys2Proof.Machine
end

