-- ==== Sys2Proof/Machine/Own.lean ====
section
/-!
DEFINITION. The OWN commands (14 R376), the Interlocking's own events (R369, R371, R373) and the discard of an incomplete request (R361).
-/

namespace Sys2Proof.Machine

/-- SB_OWNER as master m reads it (R369). -/
def ownerWord (m : Nat) (s : State) : Nat :=
  let st := match s.lock.st with
    | .unowned => 0
    | .owned => 1
    | .offered => 2
  put (leaseMs s % 2 ^ 16) 32 + put m 16 + put s.lock.offerTo 8 + put (ownerKind s) 2 + st

/-- POLICY as it is set and read (R376). -/
def policyWord (s : State) : Nat :=
  put s.cfg.policy.fmId.toNat 16 + put (b2n s.cfg.policy.fmAny) 9 + put (b2n s.cfg.policy.fabToFm) 8 + s.cfg.policy.prio.toNat

/-- The payload of OWN STATUS. -/
def statusPayload (m : Nat) (s : State) : List Byte :=
  let x := getBox s m
  leBytes (ownerWord m s) 8 ++ leBytes x.flags.toNat 4 ++ leBytes (policyWord s) 4
  ++ (List.range 8).flatMap (fun b => leBytes (spGet 0 x.cnt b).toNat 4)

/-- A reply with the status as it is after the command. -/
def okStatus (q : Req) (s : State) : Reply := .ok s (statusPayload q.master s)

/-- The entry of command 0x0101 in its table. -/
def cmdOwnStatus : Cmd :=
  { opcode := 0x0101, cls := 0, d := true }

def execOwnStatus (sub : Submission) (s : State) : Host.Outcome State Fault Refusal :=
  mail cmdOwnStatus okStatus sub s

/-! ### Ownership (R371, R372) -/

/-- A submission is a CLAIM request, and whose. -/
def claimBy (s : State) : Submission → Option Nat
  | .host => if s.sb.host.busy && rawOpcode s.sb.host.req == 0x0102 then some 1 else none
  | .bmc _ _ m => if rawOpcode m == 0x0102 then some 2 else none
  | .fm _ m => if rawOpcode m == 0x0102 then some 3 else none

/-- The masters whose claims reach the Interlocking with this one: those of the CLAIM commands next in the queue (log entry 53). -/
def claimRivals (s : State) : List Nat :=
  (s.pending.takeWhile (fun i => match i with
    | .claim _ => true
    | _ => false)).filterMap (fun i => match i with
    | .claim sub => claimBy s sub
    | _ => none)

/-- The place of a master in POLICY.PRIO. -/
def prioOf (s : State) (m : Nat) : Nat :=
  let p := s.cfg.policy.prio.toNat
  if fld p 1 0 = m then 0 else if fld p 3 2 = m then 1 else 2

/-- A claimant that another of the same cycle precedes. -/
def outranked (s : State) (m : Nat) : Bool := (claimRivals s).any (fun r => decide (prioOf s r < prioOf s m))

/-- Master m becomes the owner; its lease starts. -/
def takeOwner (m : Nat) (s : State) : State :=
  ownChange 0x0520 (renewLease { s with lock := { st := .owned, owner := m } })

/-- OWN CLAIM (R371, R372). -/
def claimH (q : Req) (s : State) : Reply :=
  match s.lock.st with
  | .unowned => if outranked s q.master then .no 0x5111 else okStatus q (takeOwner q.master s)
  | .owned => if s.lock.owner = q.master then okStatus q s else .no 0x5111
  | .offered =>
    if s.lock.owner = q.master then okStatus q s
    else if s.lock.offerTo = q.master then okStatus q (takeOwner q.master s) else .no 0x5111

/-- The entry of command 0x0102 in its table. -/
def cmdClaim : Cmd :=
  { opcode := 0x0102, cls := 0, d := true }

def execClaim (sub : Submission) (s : State) : Host.Outcome State Fault Refusal :=
  mail cmdClaim claimH sub s

/-- The entry of command 0x0103 in its table. -/
def cmdRenew : Cmd :=
  { opcode := 0x0103, cls := 1, d := true }

/-- OWN RENEW: the submission itself renewed the lease (R373). -/
def execRenew (sub : Submission) (s : State) : Host.Outcome State Fault Refusal :=
  mail cmdRenew okStatus sub s

/-- An offer ends and the owner keeps the device (R371). -/
def offerOver (s : State) : State := ownChange 0x0520 { s with lock := { s.lock with st := .owned, offerTo := 0 } }

/-- OWN HANDOVER (R371): an offer to another kind, for one second, or its withdrawal. -/
def handoverH (q : Req) (s : State) : Reply :=
  let to_ := q.f 0 1
  checked [(decide (3 < to_ ∨ (to_ ≠ 0 ∧ to_ = s.lock.owner)), 0x5101)]
    (if to_ = 0 then okStatus q (if s.lock.st = .offered then offerOver s else s)
     else okStatus q (ownChange 0x0522 { s with lock := { s.lock with st := .offered, offerTo := to_, offerEnd := s.ftime + 1000000000 } }))

/-- The entry of command 0x0104 in its table. -/
def cmdHandover : Cmd :=
  { opcode := 0x0104, cls := 1, d := true, named := fun _ => [(0, 1)] }

def execHandover (sub : Submission) (s : State) : Host.Outcome State Fault Refusal :=
  mail cmdHandover handoverH sub s

/-- The entry of command 0x0105 in its table. -/
def cmdRelease : Cmd :=
  { opcode := 0x0105, cls := 1, d := true }

/-- OWN RELEASE (R371). -/
def execRelease (sub : Submission) (s : State) : Host.Outcome State Fault Refusal :=
  mail cmdRelease (fun _ s => .ok (unowned 0x0520 s) []) sub s

/-- OWN CLEAR: a W1C clear of the master's own flags (R370). -/
def clearH (q : Req) (s : State) : Reply :=
  let m := q.f 0 4
  let s1 := modBox q.master (fun x => { x with flags := w1c x.flags (BitVec.ofNat 8 m) }) s
  checked [(decide (255 < m), 0x5101)] (.ok s1 (leBytes (getBox s1 q.master).flags.toNat 4))

/-- The entry of command 0x0106 in its table. -/
def cmdOwnClear : Cmd :=
  { opcode := 0x0106, cls := 0, d := true, named := fun _ => [(0, 4)] }

def execOwnClear (sub : Submission) (s : State) : Host.Outcome State Fault Refusal :=
  mail cmdOwnClear clearH sub s

/-- OWN POLICY (R372): a permutation of the three kinds, and the fabric manager's rights. -/
def policyH (q : Req) (s : State) : Reply :=
  let p := q.f 0 1
  let fl := q.f 1 1
  checked [(decide (63 < p ∨ 3 < fl), 0x5102), (sortNat [fld p 1 0, fld p 3 2, fld p 5 4] != [1, 2, 3], 0x5101)]
    (.ok { s with cfg := { s.cfg with policy := { prio := BitVec.ofNat 6 p, fabToFm := tbit fl 0, fmAny := tbit fl 1,
                                                  fmId := BitVec.ofNat 16 (q.f 2 2) } } } [])

/-- The entry of command 0x0107 in its table. -/
def cmdPolicy : Cmd :=
  { opcode := 0x0107, cls := 1, d := false, named := fun _ => [(0, 1), (1, 1), (2, 2)] }

def execPolicy (sub : Submission) (s : State) : Host.Outcome State Fault Refusal :=
  mail cmdPolicy policyH sub s

/-- OWN RESET (R376): refused while a partition serves or drains, unless FORCE drains them all with CUT; the reset follows, with START. -/
def resetH (q : Req) (s : State) : Reply :=
  let mode := q.f 0 1
  checked [(decide (1 < mode), 0x5101), (!q.force && !(activeParts s).isEmpty, 0x5123)]
    (let s1 := if q.force then cutAll s else s
     .ok { s1 with boot := { s1.boot with resetPending := some (if mode = 0 then (.warm, 4) else (.cold, 5)) } } [])

/-- The entry of command 0x0108 in its table. -/
def cmdOwnReset : Cmd :=
  { opcode := 0x0108, cls := 1, d := true, force := true, named := fun _ => [(0, 1)] }

def execOwnReset (sub : Submission) (s : State) : Host.Outcome State Fault Refusal :=
  mail cmdOwnReset resetH sub s

/-! ### Events of the Interlocking -/

/-- LEASE_WARN: one second or less of the lease remains (R369). -/
def execLeaseWarn (s : State) : Host.Outcome State Fault Refusal :=
  .next (if s.lock.st = .unowned ∨ s.lock.warned = true then s
    else sbSet s.lock.owner 5 (timeTo (s.lock.leaseEnd - 1000000000) { s with lock := { s.lock with warned := true } }))

/-- LEASE_EXPIRED (R371, R373). -/
def execLeaseExpired (s : State) : Host.Outcome State Fault Refusal :=
  .next (if s.lock.st = .unowned then s else unowned 0x0521 (timeTo s.lock.leaseEnd s))

/-- HANDOVER_TIMEOUT: one second without the claim of the master offered (R371). -/
def execHandoverTimeout (s : State) : Host.Outcome State Fault Refusal :=
  .next (if s.lock.st = .offered then offerOver (timeTo s.lock.offerEnd s) else s)

/-- MGMT_REQUEST_DISCARD: a request of the management channel whose packets did not all arrive (R361). -/
def execMgmtRequestDiscard (ident : Nat) (s : State) : Host.Outcome State Fault Refusal :=
  .next (if s.cfg.policy.fmAny || s.cfg.policy.fmId.toNat == ident then sbSet 3 1 s else s)

end Sys2Proof.Machine
end

