-- ==== Sys2Proof/Machine/Side.lean ====
section
/-!
DEFINITION. The sideband endpoint: the MCTP control protocol (17 R437), the SPDM responder (17 R439), the port's mode and its timeout (R437,
R442). The messages' layouts are those of DSP0236 and DSP0274, which the spec names and does not give (log entry 20).
-/

namespace Sys2Proof.Machine

/-! ### MCTP control (R437) -/

/-- An answer of the control protocol goes back on its medium; the DOE mailbox carries none. -/
def control (via : Via) (payload : List Byte) (s : State) : State :=
  match via with
  | .doe => s
  | .mctp .pcie e => if hostUp s then emit (.mctp (.mctp .pcie e) payload) s else s
  | v => emit (.mctp v payload) s

/-- The request reaches the endpoint: not over DOE, and over PCIe only while the link carries it. -/
def heard (s : State) : Via → Bool
  | .doe => false
  | .mctp .pcie _ => hostUp s
  | _ => true

/-- Set Endpoint ID: operations 0 and 1 set it, to neither 0 nor 0xFF. -/
def setEndpointId (via : Via) (op eid : Nat) (s : State) : State :=
  if !heard s via then s
  else if op ≤ 1 ∧ 0 < eid ∧ eid < 255 then
    control via [0, 0, BitVec.ofNat 8 eid, 0] { s with side := { s.side with eid := eid } }
  else control via [2] s

def execSetEndpointId (via : Via) (op eid : Nat) (s : State) : Host.Outcome State Fault Refusal := .next (setEndpointId via op eid s)

def execGetEndpointId (via : Via) (s : State) : Host.Outcome State Fault Refusal := .next (control via [0, BitVec.ofNat 8 s.side.eid, 0, 0] s)

def execGetEndpointUuid (via : Via) (s : State) : Host.Outcome State Fault Refusal := .next (control via (0 :: s.fuse.uuid) s)

/-- Get MCTP Version Support: 1.3 for the base and control protocols; for types 0x05 and 0x7E the version is a free value, since the
spec gives none; any other type is not supported. -/
def versionSupport (via : Via) (t : Nat) (s : State) : State :=
  if t = 0xFF ∨ t = 0 then control via [0, 1, 0xF1, 0xF3, 0xFF, 0] s
  else if t = 5 ∨ t = 0x7E then control via (0 :: 1 :: (List.range 4).map (fun i => Config.freeByte (s.free + i))) { s with free := s.free + 4 }
  else control via [0x80] s

def execGetMctpVersionSupport (via : Via) (t : Nat) (s : State) : Host.Outcome State Fault Refusal := .next (versionSupport via t s)

def execGetMessageTypeSupport (via : Via) (s : State) : Host.Outcome State Fault Refusal := .next (control via [0, 2, 0x05, 0x7E] s)

/-- Get Vendor Defined Message Support: one set, the PCI vendor 0x1CB7. -/
def execGetVendorDefinedMessageSupport (via : Via) (sel : Nat) (s : State) : Host.Outcome State Fault Refusal :=
  .next (control via (if sel = 0 then [0, 0xFF, 0, 0x1C, 0xB7, 0, 0] else [2]) s)

/-- I3C_DYNAMIC_ADDRESS: by ENTDAA, or by SETDASA with static address 0x6A. -/
def execI3cDynamicAddress (entdaa : Bool) (static addr : Nat) (s : State) : Host.Outcome State Fault Refusal :=
  .next (if entdaa || static == 0x6A then { s with side := { s.side with i3c := some addr } } else s)

/-- SMBUS_LINE_TIMEOUT: the port's protocol state is reset; it answers SMBus again until a controller assigns an address. -/
def execSmbusLineTimeout (s : State) : Host.Outcome State Fault Refusal := .next { s with side := { s.side with i3c := none } }

/-! ### SPDM (R439) -/

/-- An SPDM answer goes back the way its request came. -/
def spdmSend (via : Via) (payload : List Byte) (s : State) : State :=
  match via with
  | .mctp .pcie _ => if hostUp s then emit (.mctp via payload) s else s
  | .doe => if hostUp s then emit (.mctp via payload) s else s
  | v => emit (.mctp v payload) s

/-- The version byte of the answers: that negotiated, or 1.0 before. -/
def spdmVer (s : State) : Byte := if s.side.spdmVersion = 0 then 0x10 else BitVec.ofNat 8 s.side.spdmVersion

/-- An ERROR answer: Busy 3, UnexpectedRequest 4, InvalidRequest 1, VersionMismatch 0x41. -/
def spdmError (via : Via) (code : Byte) (s : State) : State := spdmSend via [spdmVer s, 0x7F, code, 0] s

/-- A request answered: Busy during a Signal Box restart; else its answer joins the transcript with the request's code. -/
def spdmAnswer (via : Via) (req rsp : List Byte) (s : State) : State :=
  spdmSend via rsp { s with side := { s.side with transcript := s.side.transcript ++ req ++ rsp } }

/-- A request is looked at unless the Signal Box restarts. -/
def spdmRow (via : Via) (k : State → State) (s : State) : Host.Outcome State Fault Refusal :=
  .next (if s.sb.restarting then spdmError via 3 s else k s)

/-- GET_VERSION: 1.2 and 1.3; everything negotiated before is forgotten. -/
def execGetVersion (via : Via) (s : State) : Host.Outcome State Fault Refusal :=
  spdmRow via (fun s => spdmAnswer via [0x10, 0x84, 0, 0] [0x10, 0x04, 0, 0, 0, 2, 0, 0x12, 0, 0x13]
    { s with side := { s.side with spdmVersion := 0, spdmCaps := false, spdmAlgs := false, transcript := [] } }) s

/-- CERT_CAP, CHAL_CAP and MEAS_CAP 2. -/
def spdmCapFlags : Nat := 0x16

/-- GET_CAPABILITIES in version 1.2 or 1.3, after GET_VERSION. -/
def execGetCapabilities (via : Via) (ver : Nat) (s : State) : Host.Outcome State Fault Refusal :=
  spdmRow via (fun s =>
    if s.side.transcript.isEmpty then spdmError via 4 s
    else if ver ≠ 0x12 ∧ ver ≠ 0x13 then spdmError via 0x41 s
    else spdmAnswer via [BitVec.ofNat 8 ver, 0xE1, 0, 0]
      ([BitVec.ofNat 8 ver, 0x61, 0, 0, 0, 17, 0, 0] ++ leBytes spdmCapFlags 4 ++ leBytes 4116 4 ++ leBytes 4116 4)
      { s with side := { s.side with spdmVersion := ver, spdmCaps := true } }) s

/-- NEGOTIATE_ALGORITHMS: ECDSA P-384 (bit 7) and SHA-384 (bit 1) where the requester offers them. -/
def execNegotiateAlgorithms (via : Via) (asym hash : BitVec 32) (s : State) : Host.Outcome State Fault Refusal :=
  spdmRow via (fun s =>
    if !s.side.spdmCaps then spdmError via 4 s
    else
      let a := asym &&& 0x80
      let h := hash &&& 2
      spdmAnswer via ([spdmVer s, 0xE3, 0, 0] ++ leBytes asym.toNat 4 ++ leBytes hash.toNat 4)
        ([spdmVer s, 0x63, 0, 0] ++ leBytes h.toNat 4 ++ leBytes a.toNat 4 ++ leBytes h.toNat 4)
        { s with side := { s.side with spdmAlgs := a != 0 && h != 0 } }) s

/-- A request that needs negotiated algorithms. -/
def spdmReady (via : Via) (k : State → State) (s : State) : Host.Outcome State Fault Refusal :=
  spdmRow via (fun s => if s.side.spdmAlgs then k s else spdmError via 4 s) s

/-- GET_DIGESTS: slot 0 alone holds a chain. -/
def execGetDigests (via : Via) (s : State) : Host.Outcome State Fault Refusal :=
  spdmReady via (fun s => spdmAnswer via [spdmVer s, 0x81, 0, 0] ([spdmVer s, 0x01, 0, 1] ++ sha384 s.fuse.certChain) s) s

/-- GET_CERTIFICATE: a piece of slot 0's chain, with the length of the rest. -/
def execGetCertificate (via : Via) (slot off len : Nat) (s : State) : Host.Outcome State Fault Refusal :=
  spdmReady via (fun s =>
    let chain := s.fuse.certChain
    if slot ≠ 0 ∨ chain.length ≤ off then spdmError via 1 s
    else
      let piece := (chain.drop off).take (min len 4096)
      spdmAnswer via ([spdmVer s, 0x82, BitVec.ofNat 8 slot, 0] ++ leBytes off 2 ++ leBytes len 2)
        ([spdmVer s, 0x02, 0, 0] ++ leBytes piece.length 2 ++ leBytes (chain.length - off - piece.length) 2 ++ piece) s) s

/-- An answer that is signed over the transcript, the request and the answer so far, with a fresh nonce in it. -/
def spdmSigned (via : Via) (req : List Byte) (body : List Byte → List Byte) (s : State) : State :=
  let b := body (Config.nonce s.side.nonces)
  let sig := Config.deviceSign (sha384 (s.side.transcript ++ req ++ b))
  spdmAnswer via req (b ++ sig) { s with side := { s.side with nonces := s.side.nonces + 1 } }

/-- CHALLENGE. -/
def execChallenge (via : Via) (slot : Nat) (nonce : List Byte) (s : State) : Host.Outcome State Fault Refusal :=
  spdmReady via (fun s =>
    if slot ≠ 0 then spdmError via 1 s
    else spdmSigned via ([spdmVer s, 0x83, 0, 0] ++ padTo 32 nonce)
      (fun n => [spdmVer s, 0x03, 0, 1] ++ sha384 s.fuse.certChain ++ padTo 32 n ++ [0, 0]) s) s

/-- The MODEL_ID of a partition, 0 for Empty. -/
def measuredModel (s : State) (p : Nat) : Nat := ((getPart s p).model.map (fun m => m.modelId.toNat)).getD 0

/-- The value of a measurement (R439's table). -/
def measurement (s : State) (i : Nat) : List Byte :=
  match i with
  | 1 => padTo 48 Config.bootRomDigest
  | 2 => padTo 48 (runningImage s).digest
  | 3 => padTo 48 s.fw.fallback.digest
  | 4 => leBytes (variantNo s) 1 ++ leBytes (fusedWatts s) 2 ++ leBytes (fusedMhz s) 2 ++ padTo 48 s.fuse.keyHash ++ leBytes s.fuse.serial.toNat 8
  | 5 => leBytes s.cfg.chkMode 1 ++ leBytes (policyWord s) 4 ++ leBytes (runningImage s).levels.toNat 4
  | _ => (List.range 16).flatMap (fun p => leBytes (measuredModel s p) 8)

/-- A measurement block: index, form (a digest for the first three, raw bytes for the rest), size, value. -/
def measBlock (s : State) (i : Nat) : List Byte :=
  let v := measurement s i
  leBytes i 1 ++ [1] ++ leBytes (v.length + 3) 2 ++ [if i ≤ 3 then BitVec.ofNat 8 i else BitVec.ofNat 8 (0x80 + i)] ++ leBytes v.length 2 ++ v

/-- GET_MEASUREMENTS: the count (0), one (1 to 6) or all (0xFF), signed. -/
def execGetMeasurements (via : Via) (index : Nat) (nonce : List Byte) (s : State) : Host.Outcome State Fault Refusal :=
  spdmReady via (fun s =>
    if 6 < index ∧ index ≠ 0xFF then spdmError via 1 s
    else
      let is := if index = 0 then [] else if index = 0xFF then [1, 2, 3, 4, 5, 6] else [index]
      let rec_ := is.flatMap (measBlock s)
      spdmSigned via ([spdmVer s, 0xE0, 1, BitVec.ofNat 8 index] ++ padTo 32 nonce)
        (fun n => [spdmVer s, 0x60, if index = 0 then 6 else 0, 0, BitVec.ofNat 8 is.length] ++ leBytes rec_.length 3 ++ rec_ ++ padTo 32 n ++ [0, 0]) s) s

end Sys2Proof.Machine
end

