-- ==== Sys2Proof/Machine/TenCmd.lean ====
section
/-!
DEFINITION. The TEN commands (14 R380): tenants (09 R249) and rings (09 R238, 17 R427).
-/

namespace Sys2Proof.Machine

/-- TEN SET: the first of a tenant takes effect at once, later changes of RATE and BURST at the next boundary (09 R249). -/
def setTenant (rate burst slack guar : Nat) (t : Tenant) : Tenant :=
  let t1 := { t with slack := slack, kvGuar := guar }
  if t.wasSet then { t1 with next := some (rate, burst) }
  else { t1 with wasSet := true, rate := rate, burst := burst, bal := burst }

def tenSetH (q : Req) (s : State) : Reply :=
  let n := q.f 0 2
  checked [(decide (4095 < n ∨ 2 ^ 63 ≤ q.f 8 8 ∨ 2 ^ 63 ≤ q.f 16 8), 0x5101)]
    (.ok (modTen n (setTenant (q.f 8 8) (q.f 16 8) (q.f 24 4) (q.f 28 4)) s) [])

/-- The entry of command 0x0401 in its table. -/
def cmdTenSet : Cmd :=
  { opcode := 0x0401, cls := 1, d := false, named := fun _ => [(0, 2), (8, 8), (16, 8), (24, 4), (28, 4)] }

def execTenSet (sub : Submission) (s : State) : Host.Outcome State Fault Refusal :=
  mail cmdTenSet tenSetH sub s

/-! ### Rings -/

/-- A vector that serves rings in a function (17 R427). -/
def ringVector (fn v : Nat) : Bool := if fn = 0 then decide (2 ≤ v ∧ v ≤ 2047) else decide (1 ≤ v ∧ v ≤ 63)

/-- The ring that a RING_CREATE describes, over the old one's counters. -/
def ringOf (q : Req) (x : Ring) : Ring :=
  { x with
    st := .disabled, completion := q.f 2 1 == 1, fn := q.f 3 1, tenant := q.f 4 2, part := q.f 6 1, log2 := q.f 7 1, base := q.f 8 8,
    pair := q.f 16 2, vector := q.f 18 2, irqCount := q.f 20 2, irqTime := q.f 22 2 }

/-- A submission ring's PAIR is not a completion ring of the same tenant, partition and function. -/
def pairBad (s : State) (y : Ring) : Bool :=
  let x := getRing s y.pair
  x.st == .absent || !x.completion || x.tenant != y.tenant || x.part != y.part || x.fn != y.fn

/-- The pages of a submission ring. -/
def ringPages (y : Ring) : List Nat := pagesIn y.base (64 * y.entries)

/-- The attributes of a ring out of their ranges (R380, 09 R238). -/
def ringFieldBad (s : State) (q : Req) (y : Ring) : Bool :=
  decide (1 < q.f 2 1 ∨ 63 < y.fn ∨ 4095 < y.tenant ∨ 15 < y.part ∨ y.log2 < 4 ∨ 15 < y.log2 ∨ y.base % 64 ≠ 0)
  || (if y.completion then !ringVector y.fn y.vector || decide (y.irqCount < 1 ∨ 256 < y.irqCount ∨ 1000 < y.irqTime) else pairBad s y)

/-- TEN RING_CREATE: the ring is Disabled, with new attributes. -/
def ringCreateH (q : Req) (s : State) : Reply :=
  let r := q.f 0 2
  let y := ringOf q (getRing s r)
  checked [(decide (16383 < r), 0x5101), (decide (y.part ≤ 15) && (getPart s y.part).st == .absent, 0x5130),
      ((getRing s r).st == .enabled || (getRing s r).st == .error, 0x5131), (ringFieldBad s q y, 0x5101),
      (!y.completion && (ringPages y).any (fun g => pageOwner s g != .part y.part), 0x5130),
      (!y.completion && (ringPages y).any (pagePinned s), 0x5101)]
    (.ok (modRing r (ringOf q) s) [])

/-- The entry of command 0x0402 in its table. -/
def cmdRingCreate : Cmd :=
  { opcode := 0x0402, cls := 1, d := false, named := fun _ => [(0, 2), (2, 1), (3, 1), (4, 2), (6, 1), (7, 1), (8, 8), (16, 2), (18, 2), (20, 2), (22, 2)] }

def execRingCreate (sub : Submission) (s : State) : Host.Outcome State Fault Refusal :=
  mail cmdRingCreate ringCreateH sub s

/-- A ring enabled: PRODUCED, CONSUMED and the posted count start at 0. -/
def freshRing (x : Ring) : Ring := { x with st := .enabled, code := 0, doorbell := 0, consumed := 0, posted := 0, sinceIrq := 0 }

/-- TEN RING_ENABLE: entries that wait for a completion ring follow (09 R239, R243). -/
def ringEnableH (q : Req) (s : State) : Reply :=
  let r := q.f 0 2
  let x := getRing s r
  checked [(decide (16383 < r), 0x5101), (x.st == .absent || x.st == .enabled, 0x5131),
      (!x.completion && (getRing s x.pair).st != .enabled, 0x5132)]
    (.ok (flushBacklog r (modRing r freshRing s)) [])

/-- The entry of command 0x0403 in its table. -/
def cmdRingEnable : Cmd :=
  { opcode := 0x0403, cls := 1, d := true, named := fun _ => [(0, 2)] }

def execRingEnable (sub : Submission) (s : State) : Host.Outcome State Fault Refusal :=
  mail cmdRingEnable ringEnableH sub s

/-- A completion ring that an Enabled submission ring names as PAIR, or to which an open request will post (R380). -/
def ringInUse (s : State) (r : Nat) : Bool :=
  s.rings.any (fun e => e.2.st == .enabled && !e.2.completion && e.2.pair == r)
  || s.sess.any (fun e => e.2.opened && e.2.compRing == r)

/-- TEN RING_DISABLE. -/
def ringDisableH (q : Req) (s : State) : Reply :=
  let r := q.f 0 2
  let x := getRing s r
  checked [(decide (16383 < r), 0x5101), (x.st == .absent, 0x5131), (x.completion && ringInUse s r, 0x5132)]
    (.ok (dropBacklog r (modRing r (fun x => { x with st := .disabled }) s)) [])

/-- The entry of command 0x0404 in its table. -/
def cmdRingDisable : Cmd :=
  { opcode := 0x0404, cls := 1, d := true, named := fun _ => [(0, 2)] }

def execRingDisable (sub : Submission) (s : State) : Host.Outcome State Fault Refusal :=
  mail cmdRingDisable ringDisableH sub s

/-- TEN RING_DESTROY: the count of ignored doorbells stays. -/
def ringDestroyH (q : Req) (s : State) : Reply :=
  let r := q.f 0 2
  checked [(decide (16383 < r), 0x5101), ((getRing s r).st != .disabled, 0x5131)]
    (.ok (modRing r (fun x => { ignored := x.ignored }) s) [])

/-- The entry of command 0x0405 in its table. -/
def cmdRingDestroy : Cmd :=
  { opcode := 0x0405, cls := 1, d := false, named := fun _ => [(0, 2)] }

def execRingDestroy (sub : Submission) (s : State) : Host.Outcome State Fault Refusal :=
  mail cmdRingDestroy ringDestroyH sub s

/-! ### STATUS -/

/-- The code of a ring's state. -/
def RState.code : RState → Nat
  | .absent => 0
  | .disabled => 1
  | .enabled => 2
  | .error => 3

/-- A tenant's status. -/
def tenPayload (n : Nat) (t : Tenant) : List Byte :=
  leBytes n 8 ++ leBytes t.rate 8 ++ leBytes t.burst 8 ++ leBytes t.slack 4 ++ leBytes t.kvGuar 4 ++ leBytes (wrap 64 t.bal) 8

/-- A ring's status; PRODUCED of a completion ring is its count of posted entries. -/
def ringPayload (r : Nat) (x : Ring) : List Byte :=
  leBytes r 2 ++ leBytes (b2n x.completion) 1 ++ leBytes x.fn 1 ++ leBytes x.tenant 2 ++ leBytes x.part 1 ++ leBytes x.log2 1
  ++ leBytes x.base 8 ++ leBytes x.pair 2 ++ leBytes x.vector 2 ++ leBytes x.irqCount 2 ++ leBytes x.irqTime 2 ++ List.replicate 8 0
  ++ leBytes x.st.code 4 ++ leBytes (if x.completion then x.posted else x.doorbell).toNat 4 ++ leBytes x.consumed.toNat 4 ++ leBytes x.code 2

/-- TEN STATUS. -/
def tenStatusH (q : Req) (s : State) : Reply :=
  let n := q.f 2 2
  checked [(decide (1 < q.f 0 1 ∨ (q.f 0 1 = 0 ∧ 4095 < n) ∨ 16383 < n), 0x5101)]
    (.ok s (if q.f 0 1 = 0 then tenPayload n (getTen s n) else ringPayload n (getRing s n)))

/-- The entry of command 0x0406 in its table. -/
def cmdTenStatus : Cmd :=
  { opcode := 0x0406, cls := 0, d := true, named := fun _ => [(0, 1), (2, 2)] }

def execTenStatus (sub : Submission) (s : State) : Host.Outcome State Fault Refusal :=
  mail cmdTenStatus tenStatusH sub s

end Sys2Proof.Machine
end

