-- ==== Sys2Proof/Machine/Regs.lean ====
section
/-!
DEFINITION. The registers of BAR0 and BAR2 (17 R428 to R434, 14 R369): what each 32-bit word reads, which of its bits are reserved, and what a
write does under the access codes of 00 R9. Reading changes nothing (R10), so reads are functions and no command.
-/

namespace Sys2Proof.Machine

/-! ### The blocks (R428) -/

/-- A word of a block, by its offset in the block, or an unlisted one. -/
inductive Reg where
  | hi (o : Nat)
  | sb (o : Nat)
  | th (o : Nat)
  | jn (o : Nat)
  | cmo (f : Nat) (o : Nat)
  | ring (r : Nat) (o : Nat)
  | msixTab (v : Nat) (o : Nat)
  | pba (o : Nat)
  | unlisted
deriving DecidableEq, Repr

/-- The word at an offset of the PF's BAR0. -/
def pfReg (o : Nat) : Reg :=
  if o < 0x10000 then .hi o
  else if o < 0x13000 then .sb (o - 0x10000)
  else if 0x20000 ≤ o ∧ o < 0x21000 then .th (o - 0x20000)
  else if 0x30000 ≤ o ∧ o < 0x31000 then .jn (o - 0x30000)
  else if 0x40000 ≤ o ∧ o < 0x41000 then .cmo ((o - 0x40000) / 64) (o % 64)
  else if 0x80000 ≤ o ∧ o < 0xC0000 then .ring ((o - 0x80000) / 16) (o % 16)
  else if 0x3F00000 ≤ o ∧ o < 0x3F08000 then .msixTab ((o - 0x3F00000) / 16) (o % 16)
  else if 0x3F08000 ≤ o ∧ o < 0x3F08100 then .pba (o - 0x3F08000)
  else .unlisted

/-- The word at an offset of a VF's BAR0. -/
def vfReg (f o : Nat) : Reg :=
  if o < 0x4000 then .hi o
  else if 0x4000 ≤ o ∧ o < 0x4040 then .cmo f (o - 0x4000)
  else if 0x40000 ≤ o ∧ o < 0x80000 then .ring ((o - 0x40000) / 16) (o % 16)
  else if 0xF0000 ≤ o ∧ o < 0xF0400 then .msixTab ((o - 0xF0000) / 16) (o % 16)
  else if 0xF0400 ≤ o ∧ o < 0xF0410 then .pba (o - 0xF0400)
  else .unlisted

/-- The word at an offset of a function's BAR0. -/
def regAt (f o : Nat) : Reg := if f = 0 then pfReg o else vfReg f o

/-- The bits hi to lo set. -/
def bits (hi lo : Nat) : Nat := (2 ^ (hi + 1 - lo) - 1) * 2 ^ lo

/-- Every bit of a word. -/
def allBits : Nat := 2 ^ 32 - 1

/-! ### Reserved bits -/

/-- The reserved bits of a word of the HI_ block; a VF has only its own rows (R429). -/
def hiRsv (f o : Nat) : Nat :=
  if o = 0x04 then bits 31 16
  else if o = 0x08 ∨ o = 0x10 ∨ o = 0x18 then bits 31 8
  else if o = 0x28 then bits 31 24 + bits 19 16
  else if o = 0 ∨ o = 0x2C ∨ (0x30 ≤ o ∧ o < 0x40) then 0
  else if f ≠ 0 then (if 0x100 ≤ o ∧ o < 0x10C then 0 else allBits)
  else if o = 0x20 then bits 31 16
  else if o = 0x40 then bits 31 11 + bits 7 7
  else if (0x100 ≤ o ∧ o < 0x120) ∨ (0x140 ≤ o ∧ o < 0x180) ∨ (0x180 ≤ o ∧ o < 0x18C) then 0
  else if 0x200 ≤ o ∧ o < 0x3F8 then (if o % 8 = 0 then bits 29 0 else bits 31 16)
  else allBits

/-- The reserved bits of a word of the SB_ block (14 R369). -/
def sbRsv (o : Nat) : Nat :=
  if o < 0x2000 then 0
  else if o = 0x2000 then bits 31 1
  else if o = 0x2008 then bits 31 8
  else if o = 0x2010 then bits 31 18 + bits 15 10 + bits 7 4
  else if o = 0x2014 then bits 31 16
  else if o = 0x2018 ∨ o = 0x201C ∨ (0x2100 ≤ o ∧ o < 0x2120) then 0
  else allBits

/-- The reserved bits of a word of the TH_ block (R432). -/
def thRsv (o : Nat) : Nat :=
  if o = 0 then 0 else if o = 4 then bits 31 19 else if o = 8 then bits 31 28 else if o = 0x10 then bits 31 4
  else if 0x20 ≤ o ∧ o < 0x30 then 0 else if 0x40 ≤ o ∧ o < 0x70 then bits 7 3 else if o = 0x80 then bits 31 8 else allBits

/-- The reserved bits of a word of the JN_ block (R433). -/
def jnRsv (o : Nat) : Nat :=
  if o < 0x240 then
    (match o % 32 with
    | 0 => bits 31 27
    | 4 => bits 31 16
    | 28 => allBits
    | _ => 0)
  else if o = 0x300 then bits 31 19
  else if 0x340 ≤ o ∧ o < 0x38C then 0
  else if o = 0x3C0 then bits 15 8 + bits 3 2
  else if o = 0x3C4 then bits 31 17
  else allBits

/-- The reserved bits of a word of SV_CMO (R431). -/
def cmoRsv (o : Nat) : Nat :=
  if o = 0 then bits 5 0 else if o = 4 then bits 31 16 else if o = 12 then bits 31 3 else if o = 16 then bits 15 4
  else if o < 32 then 0 else allBits

/-- The reserved bits of a word. -/
def rsvBits (f : Nat) : Reg → Nat
  | .hi o => hiRsv f o
  | .sb o => sbRsv o
  | .th o => thRsv o
  | .jn o => jnRsv o
  | .cmo _ o => cmoRsv o
  | .ring _ o => if o = 0 then bits 7 3 else 0
  | .msixTab _ _ => 0
  | .pba _ => 0
  | .unlisted => allBits

/-! ### Reads -/

/-- The words of a 64-bit value. -/
def half (x o : Nat) : Nat := if o % 8 = 0 then fld x 31 0 else fld x 63 32

/-- HI_ID of a function. -/
def hiId (s : State) (f : Nat) : Nat := put f 40 + put (variantNo s) 32 + put 0x1CB7 16 + 0x0960

/-- HI_START. -/
def hiStart (s : State) : Nat := put (if s.boot.phase = .starting then 0 else kindCode s) 4 + s.boot.phase.code

/-- HI_HERR of a function. -/
def hiHerr (h : HostFn) : Nat :=
  put h.herrCount.toNat 32 + put (b2n h.herrValid) 23 + put (b2n h.herrWrite) 22 + put h.herrBar 20 + h.herrCode

/-- ALERT_N is pulled low: a flag of the board management controller is set, or the always-on domain asserts it (R438). -/
def alertDrive (s : State) : Bool := s.host.alertAon || s.sb.bmc.flags != 0

/-- A host notification is pending: an unmasked flag of HI_STATUS, a vector pended behind its mask, or a flag of the host's mailbox. -/
def hostPending (s : State) : Bool :=
  s.host.fns.any (fun e => e.2.status &&& ~~~e.2.imask != 0 || !e.2.msixPend.isEmpty) || s.sb.host.flags != 0

/-- WAKE_N is driven while the link is down, PERST_N is deasserted and a host notification is pending (17 R441). -/
def wakeDrive (s : State) : Bool := s.host.perstHigh && !s.host.linkUp && hostPending s

/-- HI_SIDEBAND. -/
def hiSideband (s : State) : Nat :=
  let l := s.host.levels
  put s.host.mismatch.toNat 8 + put (b2n s.host.pwrbrkHigh) 6 + put (b2n (l.getLsbD 2)) 5 + put (b2n (wakeDrive s)) 4
  + put (b2n (l.getLsbD 1)) 3 + put (b2n (alertDrive s)) 2 + put (b2n (l.getLsbD 0)) 1 + b2n s.host.thermDrive

/-- A word of the HI_ block of a function. -/
def hiRead (s : State) (f o : Nat) : Nat :=
  let h := getFn s f
  if o < 8 then half (hiId s f) o
  else if o = 0x08 then hiStart s
  else if o = 0x10 then (if f = 0 then h.status.toNat else h.status.toNat % 8)
  else if o = 0x18 then h.imask.toNat
  else if 0x28 ≤ o ∧ o < 0x30 then half (hiHerr h) o
  else if 0x30 ≤ o ∧ o < 0x38 then half h.herrAddr.toNat o
  else if 0x38 ≤ o ∧ o < 0x40 then half s.ftime o
  else if 0x100 ≤ o ∧ o < (if f = 0 then 0x120 else 0x10C) then (spGet 0 h.evcnt ((o - 0x100) / 4)).toNat
  else if f ≠ 0 then 0
  else if o = 0x20 then s.host.pevt.toNat
  else if o = 0x40 then hiSideband s
  else if 0x140 ≤ o ∧ o < 0x180 then (spGet 0 s.host.pevcnt ((o - 0x140) / 4)).toNat
  else if 0x180 ≤ o ∧ o < 0x18C then (spGet 0 s.host.sbcnt ((o - 0x180) / 4)).toNat
  else if 0x200 ≤ o ∧ o < 0x3F8 then half (put (spGet 0 s.host.vfwin ((o - 0x200) / 8 + 1)) 30) o
  else 0

/-- SB_EVT_SEQ: the newest record in the host's queue. -/
def evtSeqReg (s : State) : Nat := if s.sb.host.events.isEmpty then 0 else s.sb.host.evtSeq

/-- A word of the SB_ block. -/
def sbRead (s : State) (o : Nat) : Nat :=
  if o < 0x1000 then ofLe (spBytes s.sb.reqBuf o 4)
  else if o < 0x2000 then numAt (rspBytes s.sb.host.rsp) (o - 0x1000) 4
  else if o = 0x2008 then s.sb.host.flags.toNat
  else if 0x2010 ≤ o ∧ o < 0x2018 then half (ownerWord 1 s) o
  else if 0x2018 ≤ o ∧ o < 0x2020 then half (evtSeqReg s) o
  else if 0x2100 ≤ o ∧ o < 0x2120 then (spGet 0 s.sb.host.cnt ((o - 0x2100) / 4)).toNat
  else 0

/-- TH_PKG. -/
def thPkg (s : State) : Nat :=
  put (b2n s.heat.stopping) 50 + put (b2n s.heat.brake) 49 + put (b2n s.heat.clamp.isSome) 48 + put (pkgLimit s) 32 + pkgPower s % 2 ^ 32

/-- A word of the TH_ block. -/
def thRead (s : State) (o : Nat) : Nat :=
  if o < 8 then half (thPkg s) o
  else if o = 8 then put (maskOf s.heat.suspect) 16 + fusedWatts s
  else if o = 0x10 then s.host.thStatus.toNat
  else if 0x20 ≤ o ∧ o < 0x30 then (spGet 0 s.host.thEvcnt ((o - 0x20) / 4)).toNat
  else if 0x40 ≤ o ∧ o < 0x70 then
    let g := (o - 0x40) / 4
    put (wrap 16 (hotNode s (groupNodes g))) 16 + put (dutyOf s g).duty 8 + groupState s g
  else if o = 0x80 then maskOf s.heat.hotStacks
  else 0

/-- JN_STATE of a port. -/
def jnState (x : Port) : Nat :=
  let r := x.partner.toNat
  put (fld r 15 0) 32 + put (fld r 20 16) 22 + put (fld r 25 25) 21 + put (fld r 24 24) 20 + put (if portUp x then x.level else 0) 16
  + put x.good.toNat 8 + put x.st.width 4 + x.st.code

/-- JN_TIME; STRATUM has its reset value while the device is Unsynced (R433; log entry 130). -/
def jnTime (s : State) : Nat :=
  put (b2n s.fab.assigned) 48 + put s.fab.ident.toNat 32 + put s.fab.masterId 16 + put (if s.fab.timeState = 0 then 0 else s.fab.stratum) 4
  + s.fab.timeState

/-- A word of the JN_ block. -/
def jnRead (s : State) (o : Nat) : Nat :=
  if o < 0x240 then
    let x := getPort s (o / 32)
    let k := o % 32
    if k < 8 then half (jnState x) o else if k < 16 then half x.corr o else if k < 24 then half x.replays o
    else if k = 24 then x.restripes % 2 ^ 32 else 0
  else if o = 0x300 then s.host.jnEvt.toNat
  else if 0x340 ≤ o ∧ o < 0x38C then (spGet 0 s.host.jnEvcnt ((o - 0x340) / 4)).toNat
  else if 0x3C0 ≤ o ∧ o < 0x3C8 then half (jnTime s) o
  else 0

/-- SV_CMO of a function, as one number. -/
def cmoWord (c : Cmo) : Nat :=
  put (c.dropped % 2 ^ 32) 224 + put (c.written % 2 ^ 32) 192 + put c.tag.toNat 160 + put c.code 144 + put c.op 130 + put c.st 128
  + put c.lines.toNat 64 + c.base.toNat

/-- SV_RING of a ring, as one number. -/
def ringWord (x : Ring) : Nat :=
  put x.ignored.toNat 96 + put (if x.completion then x.posted.toNat else x.consumed.toNat) 64 + put x.doorbell.toNat 32 + put x.code 16
  + put x.fn 8 + put (b2n x.completion) 2 + x.st.code

/-- What a word of BAR0 of a function reads. -/
def bar0Word (s : State) (f o : Nat) : Nat :=
  match regAt f o with
  | .hi o => hiRead s f o
  | .sb o => sbRead s o
  | .th o => thRead s o
  | .jn o => jnRead s o
  | .cmo g o => fld (cmoWord (getFn s g).cmo) (8 * o + 31) (8 * o)
  | .ring r o => if f ≠ 0 ∧ (getRing s r).fn ≠ f then 0 else fld (ringWord (getRing s r)) (8 * o + 31) (8 * o)
  | .msixTab v o => fld (msixEntry s f v).toNat (8 * o + 31) (8 * o)
  | .pba o => maskOf ((List.range 32).filter (fun i => mem (8 * o + i) (getFn s f).msixPend))
  | .unlisted => 0

/-- What a word of BAR2 reads: every field there is WO, and WO and RSV read 0 (R434, 00 R9). -/
def bar2Word (_ : Nat) : Nat := 0

/-- What a word of a function's BAR0 or BAR2 reads; reads of them are never refused (R430). -/
def registerWord (s : State) (f bar o : Nat) : Nat := if bar = 0 then bar0Word s f o else bar2Word o

/-! ### Writes (00 R9) -/

/-- The new value of a word of which the bits of a mask are written. -/
def merge (old v m : Nat) : Nat := (old &&& (allBits ^^^ m)) ||| (v &&& m)

/-- HI_IMASK written: a message when a flag that is set is unmasked (R427). A VF has its bits [2:0] only. -/
def writeImask (f v m : Nat) (s : State) : State :=
  let h := getFn s f
  let own := if f = 0 then 0xFF else 7
  let new := BitVec.ofNat 8 (merge h.imask.toNat v (m &&& own))
  let s1 := modFn f (fun h => { h with imask := new }) s
  if h.imask &&& ~~~new &&& h.status &&& BitVec.ofNat 8 own = 0 then s1 else msix f (hiVector f) s1

/-- HI_STATUS written: ones clear; VALID goes with HOST_ERR (R429). -/
def clearStatus (f b : Nat) (s : State) : State :=
  let k := BitVec.ofNat 8 (if f = 0 then b else b &&& 7)
  modFn f (fun h => { h with status := w1c h.status k, herrValid := h.herrValid && !k.getLsbD 1 }) s

/-- An MSI-X table word written; a pending message goes out when its vector is unmasked (R427). -/
def writeMsix (f v o x m : Nat) (s : State) : State :=
  let old := msixEntry s f v
  let word := merge (fld old.toNat (8 * o + 31) (8 * o)) x (if o = 12 then m &&& 1 else m)
  let new := BitVec.ofNat 128 (old.toNat - put (fld old.toNat (8 * o + 31) (8 * o)) (8 * o) + put word (8 * o))
  let s1 := modFn f (fun h => { h with msix := spSet msixReset h.msix v new }) s
  if old.getLsbD 96 && !new.getLsbD 96 && mem v (getFn s f).msixPend then
    emit (.msix f v) (modFn f (fun h => { h with msixPend := h.msixPend.filter (· != v) }) s1)
  else s1

/-- SB_DOORBELL.GO: the request in SB_REQ is submitted, or lost while the mailbox is Busy (14 R361, R362). -/
def goHost (s : State) : State := if s.sb.host.busy then sbSet 1 1 s else latch 1 (spBytes s.sb.reqBuf 0 4096) s

/-- The bytes of a word written into SB_REQ. -/
def writeReq (o v m : Nat) (s : State) : State :=
  { s with sb := { s.sb with reqBuf := spWrite s.sb.reqBuf o (leBytes (merge (ofLe (spBytes s.sb.reqBuf o 4)) v m) 4) } }

/-- A word of BASE or LINES of SV_CMO written. -/
def writeCmo (f o v m : Nat) (s : State) : State :=
  let put32 := fun (x : BitVec 64) (lo keep : Nat) =>
    BitVec.ofNat 64 (x.toNat - put (fld x.toNat (lo + 31) lo) lo + put (merge (fld x.toNat (lo + 31) lo) v (m &&& keep)) lo)
  modFn f (fun h => { h with cmo := match o with
    | 0 => { h.cmo with base := put32 h.cmo.base 0 (bits 31 6) }
    | 4 => { h.cmo with base := put32 h.cmo.base 32 (bits 15 0) }
    | 8 => { h.cmo with lines := put32 h.cmo.lines 0 allBits }
    | _ => { h.cmo with lines := put32 h.cmo.lines 32 (bits 2 0) } }) s

/-- A word of HI_VFWIN written. -/
def writeVfwin (o v m : Nat) (s : State) : State :=
  let w := (o - 0x200) / 8 + 1
  let old := put (spGet 0 s.host.vfwin w) 30
  let lo := if o % 8 = 0 then 0 else 32
  let keep := if o % 8 = 0 then bits 31 30 else bits 15 0
  let new := old - put (half old o) lo + put (merge (half old o) v (m &&& keep)) lo
  { s with host := { s.host with vfwin := spSet 0 s.host.vfwin w (new / 2 ^ 30) } }

/-- What the bits of a mask written to a word do, reserved bits aside. -/
def regWrite (f : Nat) (r : Reg) (v m : Nat) (s : State) : State :=
  let x := v &&& m
  let h := s.host
  match r with
  | .hi o =>
    if o = 0x10 then clearStatus f x s
    else if o = 0x18 then writeImask f v m s
    else if f ≠ 0 then s
    else if o = 0x20 then { s with host := { h with pevt := w1c h.pevt (BitVec.ofNat 16 x) } }
    else if o = 0x40 then { s with host := { h with mismatch := w1c h.mismatch (BitVec.ofNat 3 (x / 256)) } }
    else if 0x200 ≤ o ∧ o < 0x3F8 then writeVfwin o v m s
    else s
  | .sb o =>
    if o < 0x1000 then writeReq o v m s
    else if o = 0x2000 then (if tbit x 0 then goHost s else s)
    else if o = 0x2008 then modBox 1 (fun b => { b with flags := w1c b.flags (BitVec.ofNat 8 x) }) s
    else s
  | .th o => if o = 0x10 then { s with host := { h with thStatus := w1c h.thStatus (BitVec.ofNat 4 x) } } else s
  | .jn o => if o = 0x300 then { s with host := { h with jnEvt := w1c h.jnEvt (BitVec.ofNat 19 x) } } else s
  | .cmo g o => if o < 16 then writeCmo g o v m s else s
  | .msixTab w o => writeMsix f w o v m s
  | _ => s

/-- The words that a write of n bytes touches: offset, value and mask of each. -/
def wordsOf (off n v : Nat) : List (Nat × Nat × Nat) :=
  let sh := 8 * (off % 4)
  let x := (v % 2 ^ (8 * n)) <<< sh
  let m := (2 ^ (8 * n) - 1) <<< sh
  ((List.range 3).map (fun i => (off / 4 * 4 + 4 * i, fld x (32 * i + 31) (32 * i), fld m (32 * i + 31) (32 * i)))).filter (fun e => e.2.2 != 0)

/-- A write to BAR0: every word takes its part; ones written to reserved bits set RSV_WRITE once. -/
def bar0Write (f off n v : Nat) (s : State) : State :=
  let ws := wordsOf off n v
  let s1 := ws.foldl (fun t e => regWrite f (regAt f e.1) e.2.1 e.2.2 t) s
  if ws.any (fun e => e.2.1 &&& e.2.2 &&& rsvBits f (regAt f e.1) != 0) then rsvWrite f s1 else s1

/-- The size of a function's BAR0. -/
def bar0Size (f : Nat) : Nat := if f = 0 then 0x4000000 else 0x100000

/-- The reserved bits of BAR2: GO with OP 3 does nothing but its own reserved bits, and every offset after GO is unlisted (log entry 62). -/
def bar2Rsv (o : Nat) : Nat := if o < 0x20000 then 0 else if o = 0x20000 then bits 31 2 else if o = 0x20004 then 0 else allBits

/-- A write to BAR2 that is neither a doorbell nor a GO. -/
def bar2Write (f off n v : Nat) (s : State) : State :=
  if (wordsOf off n v).any (fun e => e.2.1 &&& e.2.2 &&& bar2Rsv e.1 != 0) then rsvWrite f s else s

/-- REGISTER_WRITE: n bytes, 1 to 8, at an offset of BAR0 or BAR2. -/
def registerWrite (f bar off n : Nat) (v : BitVec 64) (s : State) : State :=
  if !hostUp s || n == 0 || decide (8 < n) then s
  else match bar with
    | 0 => if off + n ≤ bar0Size f then bar0Write f off n v.toNat s else s
    | 2 => if off + n ≤ 0x40000 then bar2Write f off n v.toNat s else s
    | _ => s

def execRegisterWrite (f bar off n : Nat) (v : BitVec 64) (s : State) : Host.Outcome State Fault Refusal := onFn f (.next (registerWrite f bar off n v s))

/-- HI_IMASK_WRITE: the whole register. -/
def execHiImaskWrite (f : Nat) (v : BitVec 32) (s : State) : Host.Outcome State Fault Refusal :=
  onFn f (.next (if hostUp s then bar0Write f 0x18 4 v.toNat s else s))

end Sys2Proof.Machine
end

