-- ==== Sys2Proof/Machine/Start.lean ====
section
/-!
DEFINITION. Resets and starts (13 R353 to R359; 15 R388 to R399), the supplies (18 R451), the Signal Box's restart and checks, the
sideband pins (17 R441, R442) and the PCIe link.
-/

namespace Sys2Proof.Machine

/-! ### Resets (13 R353, 15 R388, R389) -/

/-- Every entry of a sparse map changed, entries at the default dropped. -/
def spMap {α : Type} [DecidableEq α] (d : α) (f : α → α) (m : Sp α) : Sp α :=
  (m.map (fun e => (e.1, f e.2))).filter (fun e => decide (e.2 ≠ d))

/-- A partition's definition, as the configuration store keeps it (R397). -/
def keptPart (x : Part) : Part :=
  { st := if x.st = .absent then .absent else if x.model.isSome then .drained else .empty,
    cores := x.cores, slices := x.slices, chans := x.chans, params := x.params, ptab := x.ptab, pool := x.pool, kvUse := x.kvUse,
    kvFill := x.kvFill, model := x.model, stepNo := x.stepNo, launches := x.launches, repair := x.repair, reload := x.reload,
    weights := x.weights, buddy := x.buddy, unprotected := x.unprotected }

/-- A tenant's settings (R397). -/
def keptTenant (x : Tenant) : Tenant :=
  let rb := x.next.getD (x.rate, x.burst)
  { x with rate := rb.1, burst := rb.2, bal := rb.2, next := none }

/-- A ring's attributes: Disabled, its counts 0 (R397). -/
def keptRing (x : Ring) : Ring :=
  { st := if x.st = .absent then .absent else .disabled, completion := x.completion, fn := x.fn, tenant := x.tenant, part := x.part,
    log2 := x.log2, base := x.base, pair := x.pair, vector := x.vector, irqCount := x.irqCount, irqTime := x.irqTime }

/-- A session's entry: no request is open, and Queued, Prefill and Decode are Idle (R397). -/
def keptSess (x : Sess) : Sess :=
  { x with st := if x.st = .queued ∨ x.st = .prefill ∨ x.st = .decode then .idle else x.st, opened := false, work := {}, tree := [],
           treeDepth := 0, dists := [], skipSpec := false, held := [], mirRows := 0 }

/-- What outlives a reset of each kind in stack memory: a warm one leaves the contents (R396). -/
def keptMem (k : StartKind) (m : Mem) : Mem := match k with
  | .warm => { m with filling := [] }
  | .cold => {}

/-- The Retained pages that a reset loses, with those of a start that it cuts short; the report will list them. -/
def lostSoFar (k : StartKind) (s : State) : List Nat :=
  (if s.boot.phase = .starting then s.boot.lost else []) ++ (if k = .cold then s.mem.retained else [])

/-- The channels' spares, and on a warm start the shares of their partitions. -/
def keptChan (k : StartKind) (c : Chan) : Chan := { spares := c.spares, sigma := if k = .warm then c.sigma else 4 }

/-- Power and heat after a reset: the always-on domain goes on measuring, and a brake still holds; a broken diode is excluded until a cold
start (16 R405). -/
def keptHeat (k : StartKind) (h : Heat) : Heat :=
  { nodes := h.nodes, diodes := match k with
      | .warm => h.diodes
      | .cold => spMap {} (fun d => { d with healthy := true, misses := 0 }) h.diodes,
    offsets := h.offsets, suspect := h.suspect, brake := h.brake,
    groups := if h.brake then (List.range 12).map (fun g => (g, { duty := 10 })) else [],
    sampleTick := if k = .warm then h.sampleTick else 0, modelTick := if k = .warm then h.modelTick else 0,
    diodeTick := if k = .warm then h.diodeTick else 0, dutyTick := if k = .warm then h.dutyTick else 0 }

/-- The reset of the whole device, which a start of kind k will follow (R353). Pins, the host's memory, the fuses, the configuration
store and the images stay; everything else is as at reset, or kept for a warm start (R357, R397). -/
def afterReset (k : StartKind) (cause : Nat) (s : State) : State :=
  { pending := s.pending, free := s.free, out := s.out, hostMem := s.hostMem, fuse := s.fuse, cfg := s.cfg, fw := s.fw,
    ftime := if k = .warm then s.ftime else 0,
    epoch := if k = .warm then s.epoch else 0,
    boot := { nextStart := k, cause := cause, suppliesGood := s.boot.suppliesGood, failedStarts := s.boot.failedStarts,
              fallback := s.boot.fallback, lastStop := s.boot.lastStop, activating := s.boot.activating,
              retire := k = .warm ∧ s.boot.retire = true, lost := lostSoFar k s },
    units := { s.units with scu := [], wedged := [] },
    mem := keptMem k s.mem,
    cache := { waysOff := s.cache.waysOff },
    chans := spMap {} (keptChan k) s.chans,
    parts := if k = .warm then spMap {} keptPart s.parts else [],
    tens := if k = .warm then spMap {} keptTenant s.tens else [],
    rings := if k = .warm then spMap {} keptRing s.rings else [],
    sess := if k = .warm then spMap {} keptSess s.sess else [],
    host := { perstHigh := s.host.perstHigh, pwrbrkHigh := s.host.pwrbrkHigh, thermDrive := s.host.thermDrive, levels := s.host.levels },
    fab := if k = .warm then { ident := s.fab.ident, assigned := s.fab.assigned, routes := s.fab.routes, copies := s.fab.copies } else {},
    heat := keptHeat k s.heat }

/-- The preparation of a warm reset (R389): departure notices, then every slice flushed; a flush that did not complete is recorded. -/
def warmReset (cause : Nat) (flushDone : Bool) (s : State) : State :=
  let s1 := departNotices s
  let s2 := if flushDone then (cmoWhere 0 (fun _ => true) s1).1 else s1
  let s3 := afterReset .warm cause s2
  { s3 with boot := { s3.boot with flushLost := !flushDone } }

/-- A reset that asks for a warm start; with the stacks' power lost the start is cold (R389). -/
def resetTo (k : StartKind) (cause : Nat) (flushDone : Bool) (s : State) : State :=
  if k = .warm ∧ s.boot.domainsOff = false then warmReset cause flushDone s
  else afterReset .cold cause (departNotices s)

/-- PERST_N_ASSERT (R353, R388): a cold start follows once the pin is released; without good supplies nothing more happens (18 R451). -/
def perstAssert (s : State) : State :=
  if s.host.perstHigh = false then s
  else
    let s1 := if s.boot.suppliesGood then afterReset .cold 1 s else s
    { s1 with host := { s1.host with perstHigh := false, linkUp := false, thermDrive := false }, boot := { s1.boot with failedStarts := 0 } }

def execPerstNAssert (s : State) : Host.Outcome State Fault Refusal := .next (perstAssert s)

/-- SUPPLY_LOSS (18 R451): every domain but always-on is held off until a cold start with cause 0; with the always-on rail the device
loses power. -/
def supplyLoss (aon : Bool) (s : State) : State :=
  let s1 := afterReset .cold 0 s
  let s2 := { s1 with boot := { s1.boot with suppliesGood := false, pcieOff := true, failedStarts := 0 }, host := { s1.host with linkUp := false } }
  if aon then { s2 with host := { perstHigh := false, pwrbrkHigh := s.host.pwrbrkHigh, linkUp := false }, heat := {} }
  else if s.host.perstHigh then s2 else s

def execSupplyLoss (aon : Bool) (s : State) : Host.Outcome State Fault Refusal := .next (supplyLoss aon s)

/-! ### The images (13 R356, 15 R393) -/

/-- The staged image. -/
def stagedImage (s : State) : FwImage :=
  { version := BitVec.ofNat 32 (stagedNum s 8 4), levels := BitVec.ofNat 32 (stagedNum s 12 4),
    digest := sha384 (staged s 0 (64 + stagedNum s 16 4)) }

/-- An activation in progress makes the staged image the running one, once; the image that ran is the fallback. -/
def takeStaged (s : State) : State :=
  if s.boot.activating && !s.boot.fallback && s.fw.verified then
    { s with fw := { s.fw with running := stagedImage s, fallback := runningImage s, verified := false } }
  else s

/-- The image that a start runs, if any verifies: the running one, or the fallback after a failed activation or in its place. -/
def bootImage (s : State) : Option State :=
  let run := fun (b : Bool) => { s with boot := { s.boot with fallback := b } }
  if s.boot.fallback && s.fw.fallback.good then some (run true)
  else if s.fw.running.good then some (run false)
  else if s.fw.fallback.good then some (run true)
  else none

/-! ### The device watchdog (13 R353, R359; 15 R388) -/

/-- DEVICE_WATCHDOG_EXPIRY. During a start it counts: the fourth in a row, after a cold start, leaves recovery. A new image that did not
reach its report leaves the start to the fallback (13 R356). -/
def deviceWatchdog (flushDone : Bool) (s : State) : State :=
  if s.sb.wdogBroken || s.boot.phase == .recovery || s.boot.phase == .fuseFault || !s.host.perstHigh || !s.boot.suppliesGood then s
  else if s.boot.phase = .starting then
    let n := s.boot.failedStarts + 1
    let s1 := takeStaged s
    let k := if n < 3 then .warm else .cold
    let s2 := afterReset k 2 s1
    { s2 with
      boot := { s2.boot with phase := if 4 ≤ n then .recovery else .starting, failedStarts := n,
                             fallback := s.boot.fallback || s.boot.activating, flushLost := s.boot.flushLost } }
  else resetTo .warm 2 flushDone { s with boot := { s.boot with activating := false } }

def execDeviceWatchdogExpiry (flushDone : Bool) (s : State) : Host.Outcome State Fault Refusal := .next (deviceWatchdog flushDone s)

/-! ### The start (15 R390) -/

/-- A test of the start names a unit. -/
def found (l : List (Nat × Nat)) (kind n : Nat) : Bool := l.any (fun e => e == (kind, n))

/-- The state bytes that differ from 0. -/
def bytesOf (count : Nat) (f : Nat → Nat) : Sp Nat :=
  (List.range count).filterMap (fun n => if f n = 0 then none else some (n, f n))

/-- The findings that count: the pattern test runs unless CHK_MODE is 1 (12 R324). -/
def checkers (f : StartFindings) (s : State) : List (Nat × Nat) := if s.cfg.chkMode = 1 then [] else f.checkerFailed

/-- The state byte of a unit with its defects, its map-out, its parent and its tests (R391, R394, R395, R399). -/
def startByte (bad out : List Nat) (parentOut : Bool) (cf tf : List (Nat × Nat)) (kind n : Nat) : Nat :=
  if mem n bad then 2 else if mem n out then 3 else if parentOut then 7 else if found cf kind n then 4 else if found tf kind n then 5 else 0

/-- The units that a start finds (step 10). With a bridge half Absent every unit but the other half has an Absent parent (01 R28). -/
def startUnits (f : StartFindings) (s : State) : Units :=
  let cf := checkers f s
  let tf := f.testFailed
  let h := bytesOf 2 (startByte [] [] false cf tf 7)
  let cut := !unitPresent h 0 || !unitPresent h 1
  let q := bytesOf 4 (startByte [] [] cut cf tf 6)
  let k := bytesOf 8 (startByte [] [] cut cf tf 5)
  { s.units with
    quad := q, stack := k, bridge := h, scu := [],
    core := bytesOf 144 (fun n => startByte s.fuse.badCores s.cfg.outCores (!unitPresent q (n / 36)) cf tf 0 n),
    slice := bytesOf 64 (fun n => startByte s.fuse.badSlices s.cfg.outSlices (!unitPresent q (n / 16)) cf tf 1 n),
    chan := bytesOf 256 (fun n => startByte s.fuse.badChannels s.cfg.outChannels (!unitPresent k (n / 32)) cf tf 2 n),
    port := bytesOf 18 (startByte s.fuse.badPorts [] cut cf tf 4) }

/-- A failure in the PCIe or always-on domain, or of a bridge half (R395, 12 R325): a bridge fault beyond the spares is a failure of the whole device
(01 R17; log entry 61). -/
def startFails (f : StartFindings) (s : State) : Bool :=
  (checkers f s ++ f.testFailed).any (fun e => e.1 == 8 || e.1 == 7)

/-- The memories stayed powered and flushed, so that contents can survive (R396). -/
def contentsKept (f : StartFindings) (s : State) : Bool :=
  s.boot.nextStart == .warm && !s.boot.flushLost && f.poweredStacks

/-- Spread contents survive: the healthy channels are the same (03 R67). -/
def spreadKept (f : StartFindings) (s : State) : Bool :=
  contentsKept f s && decide ((List.range 256).filter (unitPresent (startUnits f s).chan) = healthy s)

/-- A Retained page survives (R396). -/
def pageKept (f : StartFindings) (s : State) (g : Nat) : Bool :=
  mem g s.mem.retained && (if pagePinned s g then contentsKept f s && unitPresent (startUnits f s).chan (homeOf g) else spreadKept f s)

/-- What a page holds survives, Retained or of the device reserve. -/
def contentKept (f : StartFindings) (s : State) (g : Nat) : Bool :=
  if pageOwner s g = .reserve then spreadKept f s else pageKept f s g

/-- Stack memory after the fill (step 11), with what survives, and the grants if the reserve does (R397). -/
def startMem (f : StartFindings) (s : State) : Mem :=
  let keep := fun (k : Nat) => match placeDpa s (k / chanBytes) (k % chanBytes) with
    | some d => contentKept f s (pageOf d)
    | none => false
  let m := s.mem
  let sp := spreadKept f s
  { m with
    bytes := m.bytes.filter (fun e => keep e.1), chk := m.chk.filter (fun e => keep (e.1 * 64)), filling := [],
    owner := if sp then m.owner else m.owner.filter (fun e => e.2 != .reserve),
    grants := if sp then m.grants else [] }

/-- The Retained pages that the report lists as lost. -/
def pagesLost (f : StartFindings) (s : State) : List Nat := sortNat (dedup (s.boot.lost ++ s.mem.retained.filter (fun g => !pageKept f s g)))

/-- The pages that a range of a partition's virtual addresses lies in. -/
def vaPages (pt : Part) (va len : Nat) : List Nat :=
  (pt.ptab.filter (fun e => decide (e.va < va + len ∧ va < e.va + pteSize e.bits))).map ptePage

/-- The image pages of a model (R397). -/
def imagePages (pt : Part) (m : Model) : List Nat :=
  (List.range (numAt m.payload 1 1)).flatMap (fun k => vaPages pt (numAt m.payload (32 + 16 * k) 8) (numAt m.payload (40 + 16 * k) 4))

/-- A partition comes back with its model: its image pages and weight pages all survived. -/
def modelKept (f : StartFindings) (s : State) (pt : Part) : Bool := match pt.model with
  | none => false
  | some m => (imagePages pt m ++ pt.weights.filter (mappedNoW pt.ptab)).all (pageKept f s)

/-- Its KV pool and its KV list area survived. -/
def kvKept (f : StartFindings) (s : State) (pt : Part) : Bool :=
  pt.pool.all (pageKept f s) && (match pt.params.kvArea with
    | some a => (vaPages pt a.va (a.units * 0x10000)).all (pageKept f s)
    | none => true)

/-- A session of such a partition keeps its pages. -/
def keepsPages (f : StartFindings) (s : State) (pt : Part) : Bool := (geomOf pt).isNone || kvKept f s pt

/-- A partition after the start: with its model, or Empty; KV pages that nobody holds any more wait for their fill, or are filled. -/
def startPart (f : StartFindings) (s : State) (pt : Part) : Part :=
  let kv := spreadKept f s && keepsPages f s pt
  let pt1 := if kv && modelKept f s pt then pt
    else { pt with kvUse := [], kvFill := if kvKept f s pt then pt.kvFill ++ pt.kvUse.map (·.1) else [] }
  if modelKept f s pt then pt1
  else if pt.st = .absent then pt1
  else { pt1 with st := .empty, model := none, weights := [], repair := [], reload := [] }

/-- A session after the start: kept, kept without its pages, or Free. -/
def startSess (f : StartFindings) (s : State) (x : Sess) : Sess :=
  let pt := getPart s x.part
  if !(spreadKept f s && modelKept f s pt) then {}
  else if keepsPages f s pt then x
  else { x with st := .sided, keep := 0, npages := 0, lists := x.lists.map (fun _ => []), shadows := x.shadows.map (fun _ => []) }

/-- The whole of a session's directory written again. -/
def writeDir (n : Nat) (s : State) : State :=
  let x := getSess s n
  let pt := getPart s x.part
  match geomOf pt with
  | none => s
  | some g =>
    if x.dirSize = 0 then s
    else ownWrite x.part x.dirVa (dirHeader g pt.params.run n x ++ (dirEntries g x).flatMap (fun e => leBytes e 4)) s

/-- Records of the units that a test of the start found failed. -/
def startRecords (f : StartFindings) (s0 s : State) : State :=
  let rec_ := fun (code : Code) (t : State) (e : Nat × Nat) =>
    recordErr { code := code, kind := if e.1 = 0 then 3 else if e.1 = 1 then 1 else if e.1 = 2 then 0 else 7, foundBy := 5, unit := e.2 } t
  f.testFailed.foldl (rec_ 0x2202) ((checkers f s0).foldl (rec_ 0x2201) s)

/-- A record for every master. -/
def postAll (code : Code) (s : State) : State := postRec { code := code } [1, 2, 3] s

/-- What the start met in Ifewin's own RAM. -/
def ramCheck (f : StartFindings) (s : State) : State := if f.ramOk then s else unwrittenRead 5 0 5 s

/-- The clocks of power and heat take up the time after the start. -/
def catchUp (s : State) : State :=
  { s with epoch := s.ftime / 1000000,
           heat := { s.heat with sampleTick := s.ftime / 10000, modelTick := s.ftime / 10000, diodeTick := s.ftime / 1000000,
                                 dutyTick := s.ftime / 1000000 } }

/-- Steps 4 to 13: units, memories and the configuration restored. -/
def startRestore (f : StartFindings) (s : State) : State :=
  let u := startUnits f s
  let s1 := catchUp { s with
    ftime := s.ftime + f.ms * 1000000,
    units := u, mem := startMem f s, cache := { waysOff := s.cache.waysOff }, cores := [], report := [],
    cfg := { s.cfg with softRepairs := [] },
    parts := spMap {} (startPart f s) s.parts, sess := spMap {} (startSess f s) s.sess,
    fab := { s.fab with ports := (((List.range 18).filter (unitPresent u.port)).map (fun p => (p, { st := .down }))),
                        copies := if spreadKept f s then s.fab.copies else [] },
    host := { s.host with perstHigh := true, linkUp := true },
    sb := { s.sb with wdogBroken := !f.watchdogsOk, ramWritten := true },
    boot := { s.boot with
      phase := .ready, ifewin := false, startKind := some s.boot.nextStart, suppliesGood := true, domainsOff := false, pcieOff := false, failedStarts := 0,
      retrained := s.boot.nextStart = .warm ∧ f.retrained ≠ [], startMs := min f.ms 65535, lastStopSeen := s.boot.lastStop,
      lastStop := 0, activating := false, lost := pagesLost f s } }
  let s2 := (s1.sess.filter (fun e => e.2.st == .sided)).foldl (fun t e => writeDir e.1 t) s1
  syncPeers (scuDomains (List.range 256) s2)

/-- The events of a start, and step 14 (R390, R400). -/
def startReport (f : StartFindings) (s0 s : State) : State :=
  let s1 := settleFree (retireCheck (startRecords f s0 s))
  let s2 := ramCheck f (if f.comparatorOk && f.watchdogsOk then s1 else goDegraded s1)
  let s3 := if startFails f s0 then failDevice s2 else s2
  let s4 := if s0.boot.activating then postAll (if s3.boot.fallback then 0x0502 else 0x0501) s3 else s3
  let s5 := postAll (if s0.boot.nextStart = .warm then 0x0531 else 0x0530) s4
  let s6 := if s5.boot.lost.isEmpty then s5 else postAll 0x0532 s5
  { s6 with report := reportBytes s6 }

/-- Some node is not below its release temperature: a start after a thermal stop is held at step 1 (16 R414). -/
def tooHot (s : State) : Bool :=
  s.boot.lastStop == 2 && (List.range 362).any (fun n => match throttleAt n with
    | some t => decide (t - 48 ≤ nodeTemp s n)
    | none => false)

/-- The start (R390). It ends in fuse fault at step 1, in recovery at step 3, or with its report; a row whose findings say so stops after
step 3, with Ifewin running, and the next one goes on (log entry 80). -/
def startRun (f : StartFindings) (s : State) : State :=
  if tooHot s then s
  else if s.fuse.copyFault then
    { s with boot := { s.boot with phase := .fuseFault, suppliesGood := true, pcieOff := false },
             host := { s.host with alertAon := true, perstHigh := true, linkUp := true } }
  else match bootImage (takeStaged s) with
    | none => { s with boot := { s.boot with phase := .recovery, suppliesGood := true, pcieOff := false, activating := false },
                       host := { s.host with perstHigh := true, linkUp := true } }
    | some s1 =>
      if f.bootOnly then { s1 with boot := { s1.boot with ifewin := true, suppliesGood := true, pcieOff := false },
                                   host := { s1.host with perstHigh := true, linkUp := true } }
      else startReport f s1 (startRestore f s1)

/-- START: the reset that a command asked for, once the partitions it drains are at rest; or the start of a device that was reset (log
entry 9). -/
def startRow (f : StartFindings) (s : State) : State :=
  if s.boot.phase = .starting then (if s.sb.restarting then s else startRun f s)
  else match s.boot.resetPending with
    | some (k, cause) => if (activeParts s).isEmpty then resetTo k cause true s else s
    | none => s

def execStart (f : StartFindings) (s : State) : Host.Outcome State Fault Refusal := .next (startRow f s)

/-! ### The Signal Box (13 R354, R358, R359) -/

/-- Ifewin runs: from step 3 of a start on. -/
def ifewinRuns (s : State) : Bool := match s.boot.phase with
  | .starting => s.boot.ifewin
  | .fuseFault => false
  | .recovery => false
  | _ => true

/-- The lockstep pair restarts Ifewin; the third restart within ten minutes puts management into degraded mode. -/
def sbRestart (s : State) : State :=
  if s.sb.restarting || !ifewinRuns s then s
  else
    let rs := s.sb.restarts.filter (fun t => decide (s.ftime < t + 600 * secNs)) ++ [s.ftime]
    let s1 := [1, 2, 3].foldl (fun t m => sbSet m 7 t) { s with sb := { s.sb with restarting := true, restarts := rs } }
    if 3 ≤ rs.length then goDegraded s1 else s1

def execSbWatchdogExpiry (s : State) : Host.Outcome State Fault Refusal := .next (sbRestart s)

def execLockstepMismatch (s : State) : Host.Outcome State Fault Refusal := .next (sbRestart s)

/-- SB_RESTARTED: Ifewin resumes; the requests in flight complete with 0x5231. -/
def sbRestarted (s : State) : State :=
  if !s.sb.restarting then s
  else [1, 2, 3].foldl (fun t m =>
    let x := getBox t m
    if x.busy then respond (mkReq m x.owned (if m = 2 then t.sb.bmcEid else none) x.req) 0x5231 [] t else t)
    { s with sb := { s.sb with restarting := false } }

def execSbRestarted (s : State) : Host.Outcome State Fault Refusal := .next (sbRestarted s)

/-- SB_SELF_CHECK: the next comparator group and the watchdogs (R358). -/
def sbSelfCheck (comparatorOk watchdogsOk : Bool) (s : State) : State :=
  if s.sb.restarting || !ifewinRuns s then s
  else
    let s1 := { s with sb := { s.sb with checkGroup := (s.sb.checkGroup + 1) % 64, wdogBroken := s.sb.wdogBroken || !watchdogsOk } }
    if comparatorOk && watchdogsOk then s1 else goDegraded s1

def execSbSelfCheck (comparatorOk watchdogsOk : Bool) (s : State) : Host.Outcome State Fault Refusal :=
  .next (sbSelfCheck comparatorOk watchdogsOk s)

/-! ### Pins and link (17 R441, R442) -/

/-- The device drives an open-drain pin low: 0 THERMTRIP_N, 1 ALERT_N, 2 WAKE_N. -/
def pinDriven (s : State) (k : Nat) : Bool := match k with
  | 0 => s.host.thermDrive
  | 1 => alertDrive s
  | _ => wakeDrive s

/-- One pin's sample: the third one in a row that reads high while driven low is a mismatch. -/
def samplePin (s0 : State) (high : BitVec 5) (t : State) (k : Nat) : State :=
  let n := if pinDriven s0 k && high.getLsbD k then min 4 (spGet 0 t.host.highRuns k + 1) else 0
  let t1 := { t with host := { t.host with highRuns := spSet 0 t.host.highRuns k n } }
  if n = 3 then postRec { code := 0x5260, unit := k } [2] (mismatchSet k t1) else t1

/-- PIN_SAMPLE with the levels of the five open-drain pins. -/
def pinSample (high : BitVec 5) (s : State) : State :=
  ([0, 1, 2] : List Nat).foldl (samplePin s high) { s with host := { s.host with levels := high } }

def execPinSample (high : BitVec 5) (s : State) : Host.Outcome State Fault Refusal := .next (pinSample high s)

/-- PCIE_LINK_DOWN: WAKE_N follows while a notification is pending. -/
def execPcieLinkDown (s : State) : Host.Outcome State Fault Refusal := .next { s with host := { s.host with linkUp := false } }

/-- PCIE_LINK_L0: the link is back, while PERST_N is released and the domain has power. -/
def execPcieLinkL0 (s : State) : Host.Outcome State Fault Refusal :=
  .next (if s.host.perstHigh && !s.boot.pcieOff then { s with host := { s.host with linkUp := true } } else s)

end Sys2Proof.Machine
end

