-- ==== Sys2Proof/Machine/Dispatch.lean ====
section
/-!
DEFINITION. One arm per command: its meaning, or its refusal by name.
-/

namespace Sys2Proof.Machine

def exec (i : Instr) (s : State) : Host.Outcome State Fault Refusal :=
  match i with
  | .matmul core => Sys2Proof.Machine.execMatmul core s
  | .eltwise core => Sys2Proof.Machine.execEltwise core s
  | .reduce core => Sys2Proof.Machine.execReduce core s
  | .combine core => Sys2Proof.Machine.execCombine core s
  | .move core => Sys2Proof.Machine.execMove core s
  | .dispatch core => Sys2Proof.Machine.execDispatch core s
  | .dispatchWait core => Sys2Proof.Machine.execDispatchWait core s
  | .cmo core => Sys2Proof.Machine.execCmo core s
  | .atomic core => Sys2Proof.Machine.execAtomic core s
  | .layout core => Sys2Proof.Machine.execLayout core s
  | .scaleExpand core => Sys2Proof.Machine.execScaleExpand core s
  | .sync core queue => Sys2Proof.Machine.execSync core queue s
  | .haltNotice core => Sys2Proof.Machine.execHaltNotice core s
  | .haltComplete part => Sys2Proof.Machine.execHaltComplete part s
  | .sbTimeout core unit => Sys2Proof.Machine.execSbTimeout core unit s
  | .stopCount core => Sys2Proof.Machine.execStopCount core s
  | .bankStateEffect core => Sys2Proof.Machine.execBankStateEffect core s
  | .pushResumes core => Sys2Proof.Machine.execPushResumes core s
  | .waitResumes core => Sys2Proof.Machine.execWaitResumes core s
  | .alu core => Sys2Proof.Machine.execAlu core s
  | .addi core => Sys2Proof.Machine.execAddi core s
  | .andi core => Sys2Proof.Machine.execAndi core s
  | .ori core => Sys2Proof.Machine.execOri core s
  | .xori core => Sys2Proof.Machine.execXori core s
  | .shli core => Sys2Proof.Machine.execShli core s
  | .shri core => Sys2Proof.Machine.execShri core s
  | .sari core => Sys2Proof.Machine.execSari core s
  | .slti core => Sys2Proof.Machine.execSlti core s
  | .movz core => Sys2Proof.Machine.execMovz core s
  | .movk core => Sys2Proof.Machine.execMovk core s
  | .ldc core => Sys2Proof.Machine.execLdc core s
  | .stc core => Sys2Proof.Machine.execStc core s
  | .lds core => Sys2Proof.Machine.execLds core s
  | .sts core => Sys2Proof.Machine.execSts core s
  | .beq core => Sys2Proof.Machine.execBeq core s
  | .bne core => Sys2Proof.Machine.execBne core s
  | .blt core => Sys2Proof.Machine.execBlt core s
  | .bge core => Sys2Proof.Machine.execBge core s
  | .bltu core => Sys2Proof.Machine.execBltu core s
  | .bgeu core => Sys2Proof.Machine.execBgeu core s
  | .jal core => Sys2Proof.Machine.execJal core s
  | .jalr core => Sys2Proof.Machine.execJalr core s
  | .tpl core => Sys2Proof.Machine.execTpl core s
  | .pset core => Sys2Proof.Machine.execPset core s
  | .pins core => Sys2Proof.Machine.execPins core s
  | .padd core => Sys2Proof.Machine.execPadd core s
  | .push core => Sys2Proof.Machine.execPush core s
  | .wait core => Sys2Proof.Machine.execWait core s
  | .incr core => Sys2Proof.Machine.execIncr core s
  | .slot core => Sys2Proof.Machine.execSlot core s
  | .bank core => Sys2Proof.Machine.execBank core s
  | .idSel core => Sys2Proof.Machine.execIdSel core s
  | .mapch core => Sys2Proof.Machine.execMapch core s
  | .endPart core => Sys2Proof.Machine.execEndPart core s
  | .insnUndef core => Sys2Proof.Machine.execInsnUndef core s
  | .gemv chan => Sys2Proof.Machine.execGemv chan s
  | .attn chan => Sys2Proof.Machine.execAttn chan s
  | .gather chan => Sys2Proof.Machine.execGather chan s
  | .scuCopy chan => Sys2Proof.Machine.execScuCopy chan s
  | .scuFill chan => Sys2Proof.Machine.execScuFill chan s
  | .scuConvert chan => Sys2Proof.Machine.execScuConvert chan s
  | .scuElem chan => Sys2Proof.Machine.execScuElem chan s
  | .scuStatus chan => Sys2Proof.Machine.execScuStatus chan s
  | .scuFence chan => Sys2Proof.Machine.execScuFence chan s
  | .refresh chan => Sys2Proof.Machine.execRefresh chan s
  | .stepLaunch part => Sys2Proof.Machine.execStepLaunch part s
  | .kernelEnd part => Sys2Proof.Machine.execKernelEnd part s
  | .pointsDecide part => Sys2Proof.Machine.execPointsDecide part s
  | .epochRefill => Sys2Proof.Machine.execEpochRefill s
  | .turn ring => Sys2Proof.Machine.execTurn ring s
  | .cancel ring => Sys2Proof.Machine.execCancel ring s
  | .irqTime ring => Sys2Proof.Machine.execIrqTime ring s
  | .stepOverrun part => Sys2Proof.Machine.execStepOverrun part s
  | .coreIsolated core => Sys2Proof.Machine.execCoreIsolated core s
  | .submissionDoorbell fn ring whole v hi => Sys2Proof.Machine.execSubmissionDoorbell fn ring whole v hi s
  | .completionDoorbell fn ring whole v hi => Sys2Proof.Machine.execCompletionDoorbell fn ring whole v hi s
  | .hostFlush fn tag rsv => Sys2Proof.Machine.execHostFlush fn tag rsv s
  | .hostFlushInv fn tag rsv => Sys2Proof.Machine.execHostFlushInv fn tag rsv s
  | .hostInv fn tag rsv => Sys2Proof.Machine.execHostInv fn tag rsv s
  | .cmoDone fn => Sys2Proof.Machine.execCmoDone fn s
  | .bar4Write fn off data ep => Sys2Proof.Machine.execBar4Write fn off data ep s
  | .bar4Read fn off len => Sys2Proof.Machine.execBar4Read fn off len s
  | .hiImaskWrite fn v => Sys2Proof.Machine.execHiImaskWrite fn v s
  | .registerWrite fn bar off size v => Sys2Proof.Machine.execRegisterWrite fn bar off size v s
  | .flr fn => Sys2Proof.Machine.execFlr fn s
  | .vfEnableClear => Sys2Proof.Machine.execVfEnableClear s
  | .ownStatus sub => Sys2Proof.Machine.execOwnStatus sub s
  | .claim sub => Sys2Proof.Machine.execClaim sub s
  | .renew sub => Sys2Proof.Machine.execRenew sub s
  | .handover sub => Sys2Proof.Machine.execHandover sub s
  | .release sub => Sys2Proof.Machine.execRelease sub s
  | .ownClear sub => Sys2Proof.Machine.execOwnClear sub s
  | .policy sub => Sys2Proof.Machine.execPolicy sub s
  | .ownReset sub => Sys2Proof.Machine.execOwnReset sub s
  | .leaseWarn => Sys2Proof.Machine.execLeaseWarn s
  | .leaseExpired => Sys2Proof.Machine.execLeaseExpired s
  | .handoverTimeout => Sys2Proof.Machine.execHandoverTimeout s
  | .partCreate sub => Sys2Proof.Machine.execPartCreate sub s
  | .partUnits sub => Sys2Proof.Machine.execPartUnits sub s
  | .partDestroy sub => Sys2Proof.Machine.execPartDestroy sub s
  | .param sub => Sys2Proof.Machine.execParam sub s
  | .share sub => Sys2Proof.Machine.execShare sub s
  | .rowMode sub => Sys2Proof.Machine.execRowMode sub s
  | .pages sub => Sys2Proof.Machine.execPages sub s
  | .pageFreed page => Sys2Proof.Machine.execPageFreed page s
  | .map sub => Sys2Proof.Machine.execMap sub s
  | .unmap sub => Sys2Proof.Machine.execUnmap sub s
  | .unmapDone part => Sys2Proof.Machine.execUnmapDone part s
  | .kvPool sub => Sys2Proof.Machine.execKvPool sub s
  | .partStart sub => Sys2Proof.Machine.execPartStart sub s
  | .partDrain sub => Sys2Proof.Machine.execPartDrain sub s
  | .drainDone part => Sys2Proof.Machine.execDrainDone part s
  | .partResume sub => Sys2Proof.Machine.execPartResume sub s
  | .partAbort sub => Sys2Proof.Machine.execPartAbort sub s
  | .partStatus sub => Sys2Proof.Machine.execPartStatus sub s
  | .modelLoad sub => Sys2Proof.Machine.execModelLoad sub s
  | .modelLoadDone part weights => Sys2Proof.Machine.execModelLoadDone part weights s
  | .modelUnload sub => Sys2Proof.Machine.execModelUnload sub s
  | .retain sub => Sys2Proof.Machine.execRetain sub s
  | .modelMirror sub => Sys2Proof.Machine.execModelMirror sub s
  | .mirrorDone part => Sys2Proof.Machine.execMirrorDone part s
  | .reloaded sub => Sys2Proof.Machine.execReloaded sub s
  | .modelInfo sub => Sys2Proof.Machine.execModelInfo sub s
  | .tenSet sub => Sys2Proof.Machine.execTenSet sub s
  | .ringCreate sub => Sys2Proof.Machine.execRingCreate sub s
  | .ringEnable sub => Sys2Proof.Machine.execRingEnable sub s
  | .ringDisable sub => Sys2Proof.Machine.execRingDisable sub s
  | .ringDestroy sub => Sys2Proof.Machine.execRingDestroy sub s
  | .tenStatus sub => Sys2Proof.Machine.execTenStatus sub s
  | .sessOpen sub => Sys2Proof.Machine.execSessOpen sub s
  | .settings sub => Sys2Proof.Machine.execSettings sub s
  | .sessClose sub => Sys2Proof.Machine.execSessClose sub s
  | .sessRead sub => Sys2Proof.Machine.execSessRead sub s
  | .sessLog sub => Sys2Proof.Machine.execSessLog sub s
  | .adopt sub => Sys2Proof.Machine.execAdopt sub s
  | .adoptDone op copies => Sys2Proof.Machine.execAdoptDone op copies s
  | .floorplan sub => Sys2Proof.Machine.execFloorplan sub s
  | .sensors sub => Sys2Proof.Machine.execSensors sub s
  | .telEvents sub => Sys2Proof.Machine.execTelEvents sub s
  | .powerLimit sub => Sys2Proof.Machine.execPowerLimit sub s
  | .intRecords sub => Sys2Proof.Machine.execIntRecords sub s
  | .chkMode sub => Sys2Proof.Machine.execChkMode sub s
  | .mapout sub => Sys2Proof.Machine.execMapout sub s
  | .mapoutProceed chan => Sys2Proof.Machine.execMapoutProceed chan s
  | .spares sub => Sys2Proof.Machine.execSpares sub s
  | .fwInfo sub => Sys2Proof.Machine.execFwInfo sub s
  | .stageWrite sub => Sys2Proof.Machine.execStageWrite sub s
  | .stageVerify sub => Sys2Proof.Machine.execStageVerify sub s
  | .stageVerifyDone => Sys2Proof.Machine.execStageVerifyDone s
  | .activate sub => Sys2Proof.Machine.execActivate sub s
  | .fabIdentity sub => Sys2Proof.Machine.execFabIdentity sub s
  | .route sub => Sys2Proof.Machine.execRoute sub s
  | .fabTime sub => Sys2Proof.Machine.execFabTime sub s
  | .fabPort sub => Sys2Proof.Machine.execFabPort sub s
  | .buddy sub => Sys2Proof.Machine.execBuddy sub s
  | .grant sub => Sys2Proof.Machine.execGrant sub s
  | .groupForm sub => Sys2Proof.Machine.execGroupForm sub s
  | .groupRelease sub => Sys2Proof.Machine.execGroupRelease sub s
  | .fabStatus sub => Sys2Proof.Machine.execFabStatus sub s
  | .fabEvents sub => Sys2Proof.Machine.execFabEvents sub s
  | .diagLaunch sub => Sys2Proof.Machine.execDiagLaunch sub s
  | .readStore sub => Sys2Proof.Machine.execReadStore sub s
  | .readScoreboard sub => Sys2Proof.Machine.execReadScoreboard sub s
  | .inject sub => Sys2Proof.Machine.execInject sub s
  | .rawRead sub => Sys2Proof.Machine.execRawRead sub s
  | .diagDomain sub => Sys2Proof.Machine.execDiagDomain sub s
  | .mgmtRequestDiscard ident => Sys2Proof.Machine.execMgmtRequestDiscard ident s
  | .setEndpointId via op eid => Sys2Proof.Machine.execSetEndpointId via op eid s
  | .getEndpointId via => Sys2Proof.Machine.execGetEndpointId via s
  | .getEndpointUuid via => Sys2Proof.Machine.execGetEndpointUuid via s
  | .getMctpVersionSupport via msgType => Sys2Proof.Machine.execGetMctpVersionSupport via msgType s
  | .getMessageTypeSupport via => Sys2Proof.Machine.execGetMessageTypeSupport via s
  | .getVendorDefinedMessageSupport via selector => Sys2Proof.Machine.execGetVendorDefinedMessageSupport via selector s
  | .i3cDynamicAddress entdaa static addr => Sys2Proof.Machine.execI3cDynamicAddress entdaa static addr s
  | .smbusLineTimeout => Sys2Proof.Machine.execSmbusLineTimeout s
  | .getVersion via => Sys2Proof.Machine.execGetVersion via s
  | .getCapabilities via ver => Sys2Proof.Machine.execGetCapabilities via ver s
  | .negotiateAlgorithms via asym hash => Sys2Proof.Machine.execNegotiateAlgorithms via asym hash s
  | .getDigests via => Sys2Proof.Machine.execGetDigests via s
  | .getCertificate via slot off len => Sys2Proof.Machine.execGetCertificate via slot off len s
  | .challenge via slot nonce => Sys2Proof.Machine.execChallenge via slot nonce s
  | .getMeasurements via index nonce => Sys2Proof.Machine.execGetMeasurements via index nonce s
  | .portSignalDetect port lanes => Sys2Proof.Machine.execPortSignalDetect port lanes s
  | .trainFailed port step => Sys2Proof.Machine.execTrainFailed port step s
  | .laneBad port lane => Sys2Proof.Machine.execLaneBad port lane s
  | .laneRetrain port pass => Sys2Proof.Machine.execLaneRetrain port pass s
  | .codewordReplay port seq ask => Sys2Proof.Machine.execCodewordReplay port seq ask s
  | .linkKeepalive port => Sys2Proof.Machine.execLinkKeepalive port s
  | .peerKeepalive => Sys2Proof.Machine.execPeerKeepalive s
  | .peerDead peer => Sys2Proof.Machine.execPeerDead peer s
  | .peerDeadNotice dead src => Sys2Proof.Machine.execPeerDeadNotice dead src s
  | .departureNotice src => Sys2Proof.Machine.execDepartureNotice src s
  | .abandonNotice src keys => Sys2Proof.Machine.execAbandonNotice src keys s
  | .packetForward pkt => Sys2Proof.Machine.execPacketForward pkt s
  | .nack part q => Sys2Proof.Machine.execNack part q s
  | .timeExchange port stratum ident offset delay => Sys2Proof.Machine.execTimeExchange port stratum ident offset delay s
  | .holdover => Sys2Proof.Machine.execHoldover s
  | .groupFormationRecord group rank key members ordered levels kind => Sys2Proof.Machine.execGroupFormationRecord group rank key members ordered levels kind s
  | .groupTimeout group => Sys2Proof.Machine.execGroupTimeout group s
  | .allReduce part => Sys2Proof.Machine.execAllReduce part s
  | .reduceScatter part => Sys2Proof.Machine.execReduceScatter part s
  | .allGather part => Sys2Proof.Machine.execAllGather part s
  | .allToAll part => Sys2Proof.Machine.execAllToAll part s
  | .broadcast part => Sys2Proof.Machine.execBroadcast part s
  | .barrier part => Sys2Proof.Machine.execBarrier part s
  | .remoteAtomic part => Sys2Proof.Machine.execRemoteAtomic part s
  | .collectivePacketArrival group k rank head data poison => Sys2Proof.Machine.execCollectivePacketArrival group k rank head data poison s
  | .remoteAtomicArrival src flow part ask => Sys2Proof.Machine.execRemoteAtomicArrival src flow part ask s
  | .collectiveComplete part q => Sys2Proof.Machine.execCollectiveComplete part q s
  | .mirrorEntriesArrival src spart session model settings frm toks closed => Sys2Proof.Machine.execMirrorEntriesArrival src spart session model settings frm toks closed s
  | .buddyAck part session upTo => Sys2Proof.Machine.execBuddyAck part session upTo s
  | .mirrorAckTimeout part => Sys2Proof.Machine.execMirrorAckTimeout part s
  | .buddySynced part => Sys2Proof.Machine.execBuddySynced part s
  | .patrolScrub chan => Sys2Proof.Machine.execPatrolScrub chan s
  | .correctiveWriteBack chan => Sys2Proof.Machine.execCorrectiveWriteBack chan s
  | .backgroundTest slice bad => Sys2Proof.Machine.execBackgroundTest slice bad s
  | .targetedTest kind unit fails => Sys2Proof.Machine.execTargetedTest kind unit fails s
  | .weightRepair part => Sys2Proof.Machine.execWeightRepair part s
  | .kvPageFreed part page => Sys2Proof.Machine.execKvPageFreed part page s
  | .channelFailure chan => Sys2Proof.Machine.execChannelFailure chan s
  | .bridgeLaneFault half => Sys2Proof.Machine.execBridgeLaneFault half s
  | .powerSample mw => Sys2Proof.Machine.execPowerSample mw s
  | .thermalModelUpdate => Sys2Proof.Machine.execThermalModelUpdate s
  | .diodeCheck readings => Sys2Proof.Machine.execDiodeCheck readings s
  | .dutyTick => Sys2Proof.Machine.execDutyTick s
  | .clampRelease => Sys2Proof.Machine.execClampRelease s
  | .groupAtFloor group => Sys2Proof.Machine.execGroupAtFloor group s
  | .powerBrake => Sys2Proof.Machine.execPowerBrake s
  | .powerBrakeRelease => Sys2Proof.Machine.execPowerBrakeRelease s
  | .thermtrip diode first second => Sys2Proof.Machine.execThermtrip diode first second s
  | .pinSample high => Sys2Proof.Machine.execPinSample high s
  | .supplyLoss aon => Sys2Proof.Machine.execSupplyLoss aon s
  | .perstNAssert => Sys2Proof.Machine.execPerstNAssert s
  | .deviceWatchdogExpiry flushDone => Sys2Proof.Machine.execDeviceWatchdogExpiry flushDone s
  | .start found => Sys2Proof.Machine.execStart found s
  | .sbWatchdogExpiry => Sys2Proof.Machine.execSbWatchdogExpiry s
  | .lockstepMismatch => Sys2Proof.Machine.execLockstepMismatch s
  | .sbRestarted => Sys2Proof.Machine.execSbRestarted s
  | .sbSelfCheck comparatorOk watchdogsOk => Sys2Proof.Machine.execSbSelfCheck comparatorOk watchdogsOk s
  | .neighbourArrived port good rec => Sys2Proof.Machine.execNeighbourArrived port good rec s
  | .keepaliveReceived peer => Sys2Proof.Machine.execKeepaliveReceived peer s
  | .remoteAtomicResult part q idx code back => Sys2Proof.Machine.execRemoteAtomicResult part q idx code back s
  | .pcieLinkDown => Sys2Proof.Machine.execPcieLinkDown s
  | .pcieLinkL0 => Sys2Proof.Machine.execPcieLinkL0 s

end Sys2Proof.Machine
end

