-- ==== Sys2Proof/WellFormed.lean ====
section
/-!
DEFINITION. Well-formed commands: the units they name exist (00 R4), and their operands have the sizes the spec gives them. A command
that names no existing unit faults; the other checks say what the environment can send (17 R423, 14 R361).
-/

namespace Sys2Proof

/-- A number under its bound. -/
def under (n bound : Nat) : Bool := decide (n < bound)

/-- The units of a targeted test (12 R329, 13 R341): channels, slices, cores, Points lanes, SCUs, the Dispatcher. -/
def testUnits (kind : Nat) : Nat := (([256, 64, 144, 16, 256, 1, 1, 18] : List Nat)[kind]?).getD 0

/-- A mailbox request's message: an EID of 8 bits or an identity of 16, and 16 to 4,096 bytes (14 R361). -/
def subOk : Submission → Bool
  | .host => true
  | .bmc _ eid msg => under eid 256 && decide (16 ≤ msg.length ∧ msg.length ≤ 4096)
  | .fm ident msg => under ident 65536 && decide (16 ≤ msg.length ∧ msg.length ≤ 4096)

/-- The source of a control or SPDM message: an EID of 8 bits. -/
def viaOk : Via → Bool
  | .mctp _ eid => under eid 256
  | .doe => true

/-- Every unit that a command names is one of 00 R4. -/
def Instr.unitsExist : Instr → Bool
  | .matmul core => under core 144
  | .eltwise core => under core 144
  | .reduce core => under core 144
  | .combine core => under core 144
  | .move core => under core 144
  | .dispatch core => under core 144
  | .dispatchWait core => under core 144
  | .cmo core => under core 144
  | .atomic core => under core 144
  | .layout core => under core 144
  | .scaleExpand core => under core 144
  | .sync core _ => under core 144
  | .haltNotice core => under core 144
  | .haltComplete part => under part 16
  | .sbTimeout core _ => under core 144
  | .stopCount core => under core 144
  | .bankStateEffect core => under core 144
  | .pushResumes core => under core 144
  | .waitResumes core => under core 144
  | .alu core => under core 144
  | .addi core => under core 144
  | .andi core => under core 144
  | .ori core => under core 144
  | .xori core => under core 144
  | .shli core => under core 144
  | .shri core => under core 144
  | .sari core => under core 144
  | .slti core => under core 144
  | .movz core => under core 144
  | .movk core => under core 144
  | .ldc core => under core 144
  | .stc core => under core 144
  | .lds core => under core 144
  | .sts core => under core 144
  | .beq core => under core 144
  | .bne core => under core 144
  | .blt core => under core 144
  | .bge core => under core 144
  | .bltu core => under core 144
  | .bgeu core => under core 144
  | .jal core => under core 144
  | .jalr core => under core 144
  | .tpl core => under core 144
  | .pset core => under core 144
  | .pins core => under core 144
  | .padd core => under core 144
  | .push core => under core 144
  | .wait core => under core 144
  | .incr core => under core 144
  | .slot core => under core 144
  | .bank core => under core 144
  | .idSel core => under core 144
  | .mapch core => under core 144
  | .endPart core => under core 144
  | .insnUndef core => under core 144
  | .gemv chan => under chan 256
  | .attn chan => under chan 256
  | .gather chan => under chan 256
  | .scuCopy chan => under chan 256
  | .scuFill chan => under chan 256
  | .scuConvert chan => under chan 256
  | .scuElem chan => under chan 256
  | .scuStatus chan => under chan 256
  | .scuFence chan => under chan 256
  | .refresh chan => under chan 256
  | .stepLaunch part => under part 16
  | .kernelEnd part => under part 16
  | .pointsDecide part => under part 16
  | .epochRefill => true
  | .turn ring => under ring 16384
  | .cancel ring => under ring 16384
  | .irqTime ring => under ring 16384
  | .stepOverrun part => under part 16
  | .coreIsolated core => under core 144
  | .submissionDoorbell fn ring _ _ _ => under fn 64 && under ring 16384
  | .completionDoorbell fn ring _ _ _ => under fn 64 && under ring 16384
  | .hostFlush fn _ _ => under fn 64
  | .hostFlushInv fn _ _ => under fn 64
  | .hostInv fn _ _ => under fn 64
  | .cmoDone fn => under fn 64
  | .bar4Write fn _ _ _ => under fn 64
  | .bar4Read fn _ _ => under fn 64
  | .hiImaskWrite fn _ => under fn 64
  | .registerWrite fn _ _ _ _ => under fn 64
  | .flr fn => under fn 64
  | .vfEnableClear => true
  | .ownStatus _ => true
  | .claim _ => true
  | .renew _ => true
  | .handover _ => true
  | .release _ => true
  | .ownClear _ => true
  | .policy _ => true
  | .ownReset _ => true
  | .leaseWarn => true
  | .leaseExpired => true
  | .handoverTimeout => true
  | .partCreate _ => true
  | .partUnits _ => true
  | .partDestroy _ => true
  | .param _ => true
  | .share _ => true
  | .rowMode _ => true
  | .pages _ => true
  | .pageFreed page => under page 196608
  | .map _ => true
  | .unmap _ => true
  | .unmapDone part => under part 16
  | .kvPool _ => true
  | .partStart _ => true
  | .partDrain _ => true
  | .drainDone part => under part 16
  | .partResume _ => true
  | .partAbort _ => true
  | .partStatus _ => true
  | .modelLoad _ => true
  | .modelLoadDone part _ => under part 16
  | .modelUnload _ => true
  | .retain _ => true
  | .modelMirror _ => true
  | .mirrorDone part => under part 16
  | .reloaded _ => true
  | .modelInfo _ => true
  | .tenSet _ => true
  | .ringCreate _ => true
  | .ringEnable _ => true
  | .ringDisable _ => true
  | .ringDestroy _ => true
  | .tenStatus _ => true
  | .sessOpen _ => true
  | .settings _ => true
  | .sessClose _ => true
  | .sessRead _ => true
  | .sessLog _ => true
  | .adopt _ => true
  | .adoptDone _ _ => true
  | .floorplan _ => true
  | .sensors _ => true
  | .telEvents _ => true
  | .powerLimit _ => true
  | .intRecords _ => true
  | .chkMode _ => true
  | .mapout _ => true
  | .mapoutProceed chan => under chan 256
  | .spares _ => true
  | .fwInfo _ => true
  | .stageWrite _ => true
  | .stageVerify _ => true
  | .stageVerifyDone => true
  | .activate _ => true
  | .fabIdentity _ => true
  | .route _ => true
  | .fabTime _ => true
  | .fabPort _ => true
  | .buddy _ => true
  | .grant _ => true
  | .groupForm _ => true
  | .groupRelease _ => true
  | .fabStatus _ => true
  | .fabEvents _ => true
  | .diagLaunch _ => true
  | .readStore _ => true
  | .readScoreboard _ => true
  | .inject _ => true
  | .rawRead _ => true
  | .diagDomain _ => true
  | .mgmtRequestDiscard _ => true
  | .setEndpointId _ _ _ => true
  | .getEndpointId _ => true
  | .getEndpointUuid _ => true
  | .getMctpVersionSupport _ _ => true
  | .getMessageTypeSupport _ => true
  | .getVendorDefinedMessageSupport _ _ => true
  | .i3cDynamicAddress _ _ _ => true
  | .smbusLineTimeout => true
  | .getVersion _ => true
  | .getCapabilities _ _ => true
  | .negotiateAlgorithms _ _ _ => true
  | .getDigests _ => true
  | .getCertificate _ _ _ _ => true
  | .challenge _ _ _ => true
  | .getMeasurements _ _ _ => true
  | .portSignalDetect port _ => under port 18
  | .trainFailed port _ => under port 18
  | .laneBad port lane => under port 18 && under lane 8
  | .laneRetrain port _ => under port 18
  | .codewordReplay port _ _ => under port 18
  | .linkKeepalive port => under port 18
  | .peerKeepalive => true
  | .peerDead _ => true
  | .peerDeadNotice _ _ => true
  | .departureNotice _ => true
  | .abandonNotice _ _ => true
  | .packetForward a => under a.port 18 && under a.packet.vc 4 && under a.packet.dst 65536 && under a.packet.src 65536 && under a.packet.flow 1048576
    && decide (a.packet.data.length ≤ 2048)
  | .nack part _ => under part 16
  | .timeExchange port _ _ _ _ => under port 18
  | .holdover => true
  | .groupFormationRecord group _ _ _ _ _ _ => under group 1024
  | .groupTimeout group => under group 1024
  | .allReduce part => under part 16
  | .reduceScatter part => under part 16
  | .allGather part => under part 16
  | .allToAll part => under part 16
  | .broadcast part => under part 16
  | .barrier part => under part 16
  | .remoteAtomic part => under part 16
  | .collectivePacketArrival group _ _ _ data _ => under group 1024 && decide (data.length ≤ 2048)
  | .remoteAtomicArrival _ _ part _ => under part 16
  | .collectiveComplete part _ => under part 16
  | .mirrorEntriesArrival _ _ _ _ _ _ _ _ => true
  | .buddyAck part session _ => under part 16 && under session 65536
  | .mirrorAckTimeout part => under part 16
  | .buddySynced part => under part 16
  | .patrolScrub chan => under chan 256
  | .correctiveWriteBack chan => under chan 256
  | .backgroundTest slice _ => under slice 64
  | .targetedTest kind unit _ => under kind 8 && under unit (testUnits kind)
  | .weightRepair part => under part 16
  | .kvPageFreed part _ => under part 16
  | .channelFailure chan => under chan 256
  | .bridgeLaneFault half => under half 2
  | .powerSample _ => true
  | .thermalModelUpdate => true
  | .diodeCheck _ => true
  | .dutyTick => true
  | .clampRelease => true
  | .groupAtFloor group => under group 12
  | .powerBrake => true
  | .powerBrakeRelease => true
  | .thermtrip diode _ _ => under diode 96
  | .pinSample _ => true
  | .supplyLoss _ => true
  | .perstNAssert => true
  | .deviceWatchdogExpiry _ => true
  | .start _ => true
  | .sbWatchdogExpiry => true
  | .lockstepMismatch => true
  | .sbRestarted => true
  | .sbSelfCheck _ _ => true
  | .neighbourArrived port _ _ => under port 18
  | .keepaliveReceived _ => true
  | .remoteAtomicResult part _ _ _ _ => under part 16
  | .pcieLinkDown => true
  | .pcieLinkL0 => true

/-- The operands of a command have the sizes the spec gives them. -/
def Instr.operandsOk : Instr → Bool
  | .matmul _ => true
  | .eltwise _ => true
  | .reduce _ => true
  | .combine _ => true
  | .move _ => true
  | .dispatch _ => true
  | .dispatchWait _ => true
  | .cmo _ => true
  | .atomic _ => true
  | .layout _ => true
  | .scaleExpand _ => true
  | .sync _ queue => under queue 4
  | .haltNotice _ => true
  | .haltComplete _ => true
  | .sbTimeout _ unit => under unit 5
  | .stopCount _ => true
  | .bankStateEffect _ => true
  | .pushResumes _ => true
  | .waitResumes _ => true
  | .alu _ => true
  | .addi _ => true
  | .andi _ => true
  | .ori _ => true
  | .xori _ => true
  | .shli _ => true
  | .shri _ => true
  | .sari _ => true
  | .slti _ => true
  | .movz _ => true
  | .movk _ => true
  | .ldc _ => true
  | .stc _ => true
  | .lds _ => true
  | .sts _ => true
  | .beq _ => true
  | .bne _ => true
  | .blt _ => true
  | .bge _ => true
  | .bltu _ => true
  | .bgeu _ => true
  | .jal _ => true
  | .jalr _ => true
  | .tpl _ => true
  | .pset _ => true
  | .pins _ => true
  | .padd _ => true
  | .push _ => true
  | .wait _ => true
  | .incr _ => true
  | .slot _ => true
  | .bank _ => true
  | .idSel _ => true
  | .mapch _ => true
  | .endPart _ => true
  | .insnUndef _ => true
  | .gemv _ => true
  | .attn _ => true
  | .gather _ => true
  | .scuCopy _ => true
  | .scuFill _ => true
  | .scuConvert _ => true
  | .scuElem _ => true
  | .scuStatus _ => true
  | .scuFence _ => true
  | .refresh _ => true
  | .stepLaunch _ => true
  | .kernelEnd _ => true
  | .pointsDecide _ => true
  | .epochRefill => true
  | .turn _ => true
  | .cancel _ => true
  | .irqTime _ => true
  | .stepOverrun _ => true
  | .coreIsolated _ => true
  | .submissionDoorbell _ _ _ _ _ => true
  | .completionDoorbell _ _ _ _ _ => true
  | .hostFlush _ _ _ => true
  | .hostFlushInv _ _ _ => true
  | .hostInv _ _ _ => true
  | .cmoDone _ => true
  | .bar4Write _ _ _ _ => true
  | .bar4Read _ _ _ => true
  | .hiImaskWrite _ _ => true
  | .registerWrite _ bar _ size _ => (bar == 0 || bar == 2) && decide (1 ≤ size ∧ size ≤ 8)
  | .flr _ => true
  | .vfEnableClear => true
  | .ownStatus sub => subOk sub
  | .claim sub => subOk sub
  | .renew sub => subOk sub
  | .handover sub => subOk sub
  | .release sub => subOk sub
  | .ownClear sub => subOk sub
  | .policy sub => subOk sub
  | .ownReset sub => subOk sub
  | .leaseWarn => true
  | .leaseExpired => true
  | .handoverTimeout => true
  | .partCreate sub => subOk sub
  | .partUnits sub => subOk sub
  | .partDestroy sub => subOk sub
  | .param sub => subOk sub
  | .share sub => subOk sub
  | .rowMode sub => subOk sub
  | .pages sub => subOk sub
  | .pageFreed _ => true
  | .map sub => subOk sub
  | .unmap sub => subOk sub
  | .unmapDone _ => true
  | .kvPool sub => subOk sub
  | .partStart sub => subOk sub
  | .partDrain sub => subOk sub
  | .drainDone _ => true
  | .partResume sub => subOk sub
  | .partAbort sub => subOk sub
  | .partStatus sub => subOk sub
  | .modelLoad sub => subOk sub
  | .modelLoadDone _ _ => true
  | .modelUnload sub => subOk sub
  | .retain sub => subOk sub
  | .modelMirror sub => subOk sub
  | .mirrorDone _ => true
  | .reloaded sub => subOk sub
  | .modelInfo sub => subOk sub
  | .tenSet sub => subOk sub
  | .ringCreate sub => subOk sub
  | .ringEnable sub => subOk sub
  | .ringDisable sub => subOk sub
  | .ringDestroy sub => subOk sub
  | .tenStatus sub => subOk sub
  | .sessOpen sub => subOk sub
  | .settings sub => subOk sub
  | .sessClose sub => subOk sub
  | .sessRead sub => subOk sub
  | .sessLog sub => subOk sub
  | .adopt sub => subOk sub
  | .adoptDone _ _ => true
  | .floorplan sub => subOk sub
  | .sensors sub => subOk sub
  | .telEvents sub => subOk sub
  | .powerLimit sub => subOk sub
  | .intRecords sub => subOk sub
  | .chkMode sub => subOk sub
  | .mapout sub => subOk sub
  | .mapoutProceed _ => true
  | .spares sub => subOk sub
  | .fwInfo sub => subOk sub
  | .stageWrite sub => subOk sub
  | .stageVerify sub => subOk sub
  | .stageVerifyDone => true
  | .activate sub => subOk sub
  | .fabIdentity sub => subOk sub
  | .route sub => subOk sub
  | .fabTime sub => subOk sub
  | .fabPort sub => subOk sub
  | .buddy sub => subOk sub
  | .grant sub => subOk sub
  | .groupForm sub => subOk sub
  | .groupRelease sub => subOk sub
  | .fabStatus sub => subOk sub
  | .fabEvents sub => subOk sub
  | .diagLaunch sub => subOk sub
  | .readStore sub => subOk sub
  | .readScoreboard sub => subOk sub
  | .inject sub => subOk sub
  | .rawRead sub => subOk sub
  | .diagDomain sub => subOk sub
  | .mgmtRequestDiscard _ => true
  | .setEndpointId via _ _ => viaOk via
  | .getEndpointId via => viaOk via
  | .getEndpointUuid via => viaOk via
  | .getMctpVersionSupport via _ => viaOk via
  | .getMessageTypeSupport via => viaOk via
  | .getVendorDefinedMessageSupport via _ => viaOk via
  | .i3cDynamicAddress _ _ _ => true
  | .smbusLineTimeout => true
  | .getVersion via => viaOk via
  | .getCapabilities via _ => viaOk via
  | .negotiateAlgorithms via _ _ => viaOk via
  | .getDigests via => viaOk via
  | .getCertificate via _ _ _ => viaOk via
  | .challenge via _ _ => viaOk via
  | .getMeasurements via _ _ => viaOk via
  | .portSignalDetect _ _ => true
  | .trainFailed _ step => decide (2 ≤ step ∧ step ≤ 6)
  | .laneBad _ _ => true
  | .laneRetrain _ _ => true
  | .codewordReplay _ _ _ => true
  | .linkKeepalive _ => true
  | .peerKeepalive => true
  | .peerDead _ => true
  | .peerDeadNotice _ _ => true
  | .departureNotice _ => true
  | .abandonNotice _ _ => true
  | .packetForward _ => true
  | .nack _ _ => true
  | .timeExchange _ _ _ _ _ => true
  | .holdover => true
  | .groupFormationRecord _ _ _ _ _ _ _ => true
  | .groupTimeout _ => true
  | .allReduce _ => true
  | .reduceScatter _ => true
  | .allGather _ => true
  | .allToAll _ => true
  | .broadcast _ => true
  | .barrier _ => true
  | .remoteAtomic _ => true
  | .collectivePacketArrival _ _ _ _ _ _ => true
  | .remoteAtomicArrival _ _ _ _ => true
  | .collectiveComplete _ _ => true
  | .mirrorEntriesArrival _ _ _ _ _ _ _ _ => true
  | .buddyAck _ _ _ => true
  | .mirrorAckTimeout _ => true
  | .buddySynced _ => true
  | .patrolScrub _ => true
  | .correctiveWriteBack _ => true
  | .backgroundTest _ _ => true
  | .targetedTest _ _ _ => true
  | .weightRepair _ => true
  | .kvPageFreed _ _ => true
  | .channelFailure _ => true
  | .bridgeLaneFault _ => true
  | .powerSample mw => decide (mw.length = 498)
  | .thermalModelUpdate => true
  | .diodeCheck readings => decide (readings.length = 96)
  | .dutyTick => true
  | .clampRelease => true
  | .groupAtFloor _ => true
  | .powerBrake => true
  | .powerBrakeRelease => true
  | .thermtrip _ _ _ => true
  | .pinSample _ => true
  | .supplyLoss _ => true
  | .perstNAssert => true
  | .deviceWatchdogExpiry _ => true
  | .start _ => true
  | .sbWatchdogExpiry => true
  | .lockstepMismatch => true
  | .sbRestarted => true
  | .sbSelfCheck _ _ => true
  | .neighbourArrived _ _ _ => true
  | .keepaliveReceived _ => true
  | .remoteAtomicResult _ _ _ _ _ => true
  | .pcieLinkDown => true
  | .pcieLinkL0 => true

/-- A well-formed command. -/
def Instr.wellFormed (i : Instr) : Bool := i.unitsExist && i.operandsOk

end Sys2Proof
end

