-- ==== Sys2Proof/Safety.lean ====
section
/-!
DEFINITION. What claims are stated in: the canonical form of memory, what stands through every step, and when a command is one that the
spec lets take effect.
-/

namespace Sys2Proof.Machine

/-- The canonical form of stack memory: places strictly rising, no entry equal to what an unlisted place reads as (log entry 11). -/
def Memory.wf (m : Mem) : Bool := spWf 0 m.bytes && spWf 0 m.chk

/-- POLICY.PRIO is a permutation of the three master kinds (14 R372). -/
def prioLegal (p : Policy) : Bool := sortNat [fld p.prio.toNat 1 0, fld p.prio.toNat 3 2, fld p.prio.toNat 5 4] == [1, 2, 3]

/-- What every step must keep: a legal POLICY (14 R372), a CHK_MODE of 0 to 2 (12 R324), and the fuses F that nothing writes (15 R391). -/
def Standing (F : Fuses) (s : State) : Prop := prioLegal s.cfg.policy = true ∧ s.cfg.chkMode < 3 ∧ s.fuse = F

/-! ### Kernels -/

/-- Core n runs, and the instruction it fetches without fault is w; t is the state after the fetch (06 R165). -/
def Fetches (n w : Nat) (s t : State) : Prop := n < 144 ∧ fetchInsn n s = .word t w

/-- The command e heads queue q of core n with opcode opc and can start (05 R120, R123). -/
def Starts (n q opc : Nat) (e : QEnt) (s : State) : Prop := n < 144 ∧ readyHead s n q opc = some e

/-- No check rejects the work of a command before it does anything (06 R164). -/
def Accepts (body : QEnt → State → Res EngWork) (e : QEnt) (s : State) : Prop := ∀ t c, body e s ≠ .ok t (.error c)

/-- No access stops the work of a command part-way (05 R138). -/
def Unstopped (body : QEnt → State → Res EngWork) (e : QEnt) (s : State) : Prop := ∀ t c va, body e s ≠ .err t c va

/-- The command e heads the queue of a channel whose SCU is On, with operation op (04 R88, R89). -/
def ScuStarts (chan op : Nat) (e : ScuEnt) (s : State) : Prop :=
  chan < 256 ∧ (getChan s chan).queue.head? = some e ∧ rOp e.record.toNat = op ∧ scuOn s chan = true

/-- The checks of an SCU command find nothing. -/
def ScuAccepts (chan : Nat) (check : State → ScuEnt → List Code) (e : ScuEnt) (s : State) : Prop :=
  scuRange s e.part chan needSw (statusVa e) 64 ++ check s e = []

/-! ### Mailbox commands (14 R361 to R367) -/

/-- The request q of a submission reaches the Signal Box in state t: the host's, which waits in its mailbox, or the whole message that
arrived for a master whose mailbox is free; the Signal Box is not restarting. -/
def Reaches (c : Cmd) (sub : Submission) (s : State) (q : Req) (t : State) : Prop :=
  s.sb.restarting = false ∧
  match sub with
    | .host => s.sb.host.busy = true ∧ rowTakes c (rawOpcode s.sb.host.req) = true ∧ t = s ∧ q = mkReq 1 s.sb.host.owned none s.sb.host.req
    | .bmc med eid msg => s.sb.bmc.busy = false ∧ rowTakes c (rawOpcode msg) = true
        ∧ t = submitted 2 { s with sb := { s.sb with bmcEid := some (med, eid) } } ∧ q = mkReq 2 (ownerKind t) (some (med, eid)) msg
    | .fm ident msg => s.sb.fm.busy = false ∧ rowTakes c (rawOpcode msg) = true ∧ (s.cfg.policy.fmAny = true ∨ s.cfg.policy.fmId.toNat = ident)
        ∧ t = submitted 3 s ∧ q = mkReq 3 (ownerKind t) none msg

/-- It repeats the last Ready request of its mailbox: the same SEQ and payload (14 R367). -/
def Repeats (q : Req) (t : State) : Prop :=
  (getBox t q.master).last ≠ [] ∧ numAt (getBox t q.master).last 2 4 = q.seq.toNat ∧ (getBox t q.master).last.drop 16 = q.pay

/-- It reaches the Signal Box and is no repetition. -/
def TakenUp (c : Cmd) (sub : Submission) (s : State) (q : Req) (t : State) : Prop := Reaches c sub s q t ∧ ¬Repeats q t

/-- It is taken up and passes the checks that every command passes (14 R365, R374). -/
def Served (c : Cmd) (sub : Submission) (s : State) (q : Req) (t : State) : Prop := TakenUp c sub s q t ∧ judge c q t = none

/-- The mailbox commands with their entries in the tables (14 R376 to R386). -/
def mailCommands (sub : Submission) : List (Instr × Cmd) :=
  [(.ownStatus sub, cmdOwnStatus), (.claim sub, cmdClaim), (.renew sub, cmdRenew), (.handover sub, cmdHandover),
   (.release sub, cmdRelease), (.ownClear sub, cmdOwnClear), (.policy sub, cmdPolicy), (.ownReset sub, cmdOwnReset),
   (.partCreate sub, cmdPartCreate), (.partUnits sub, cmdPartUnits), (.partDestroy sub, cmdPartDestroy), (.param sub, cmdParam),
   (.share sub, cmdShare), (.rowMode sub, cmdRowMode), (.pages sub, cmdPages), (.map sub, cmdMap), (.unmap sub, cmdUnmap),
   (.kvPool sub, cmdKvPool), (.partStart sub, cmdPartStart), (.partDrain sub, cmdPartDrain), (.partResume sub, cmdPartResume),
   (.partAbort sub, cmdPartAbort), (.partStatus sub, cmdPartStatus), (.modelLoad sub, cmdModelLoad), (.modelUnload sub, cmdModelUnload),
   (.retain sub, cmdRetain), (.modelMirror sub, cmdModelMirror), (.reloaded sub, cmdReloaded), (.modelInfo sub, cmdModelInfo),
   (.tenSet sub, cmdTenSet), (.ringCreate sub, cmdRingCreate), (.ringEnable sub, cmdRingEnable), (.ringDisable sub, cmdRingDisable),
   (.ringDestroy sub, cmdRingDestroy), (.tenStatus sub, cmdTenStatus), (.sessOpen sub, cmdSessOpen), (.settings sub, cmdSettings),
   (.sessClose sub, cmdSessClose), (.sessRead sub, cmdSessRead), (.sessLog sub, cmdSessLog), (.adopt sub, cmdAdopt),
   (.floorplan sub, cmdFloorplan), (.sensors sub, cmdSensors), (.telEvents sub, cmdTelEvents), (.powerLimit sub, cmdPowerLimit),
   (.intRecords sub, cmdIntRecords), (.chkMode sub, cmdChkMode), (.mapout sub, cmdMapout), (.spares sub, cmdSpares),
   (.fwInfo sub, cmdFwInfo), (.stageWrite sub, cmdStageWrite), (.stageVerify sub, cmdStageVerify), (.activate sub, cmdActivate),
   (.fabIdentity sub, cmdFabIdentity), (.route sub, cmdRoute), (.fabTime sub, cmdFabTime), (.fabPort sub, cmdFabPort),
   (.buddy sub, cmdBuddy), (.grant sub, cmdGrant), (.groupForm sub, cmdGroupForm), (.groupRelease sub, cmdGroupRelease),
   (.fabStatus sub, cmdFabStatus), (.fabEvents sub, cmdFabEvents), (.diagLaunch sub, cmdDiagLaunch), (.readStore sub, cmdReadStore),
   (.readScoreboard sub, cmdReadScoreboard), (.inject sub, cmdInject), (.rawRead sub, cmdRawRead), (.diagDomain sub, cmdDiagDomain)]

/-- What a row does after its response: MAPOUT settles the map-outs of free units at once (12 R333). -/
def afterRow (i : Instr) (s : State) : State :=
  match i with
  | .mapout _ => settleFree s
  | _ => s

end Sys2Proof.Machine
end

