-- ==== Sys2Proof/Certificates/Slice0/Obligations.lean ====
section
/-!
DEFINITION. The claims: one statement per definition, each a rule of spec/ or a consequence of several, over every state and operand
that meets its premises. Premises name the state and the operands alone; every conclusion of completion is an answer of exec.
-/

open Sys2Proof Sys2Proof.Machine

/-- Every command at the front of the queue is run on the state with the queue's rest. With nothing in the queue the block idles (DESIGN
CHOICE, log entry 3). -/
def Obligations.StepRunsFrontCommand : Prop :=
  (∀ (c : Instr) (rest : List Instr) (s : State), step (s.withPending (c :: rest)) = exec c (s.withPending rest))
  ∧ (∀ s : State, s.pending = [] → step s = .next s)

/-- A command answers a next state exactly when the units it names exist (00 R4); a unit that does not exist faults by name (log entry
16). No command is refused. -/
def Obligations.UnitsDecideTheOutcome : Prop :=
  ∀ (c : Instr) (s : State),
    (c.unitsExist = true → ∃ t, exec c s = .next t) ∧ (c.unitsExist = false → ∃ what n, exec c s = .fault (.noSuchUnit what n))

/-- What the spec fixes for the whole life of the part or checks at every change stands through every step: the fuses (15 R391), a POLICY
that is a permutation of the master kinds (14 R372), a CHK_MODE of 0 to 2 (12 R324). -/
def Obligations.StandingKept : Prop :=
  ∀ (F : Fuses) (s t : State), Standing F s → step s = .next t → Standing F t

/-- It holds at reset. -/
def Obligations.StandingAtReset : Prop :=
  Standing State.reset.fuse State.reset

/-- Stack memory keeps its canonical form, so that equal memories are equal data (03 R60; the model's form of it, log entry 11). -/
def Obligations.MemoryFormKept : Prop :=
  ∀ s t : State, Memory.wf s.mem = true → step s = .next t → Memory.wf t.mem = true

/-! ### The control core (06 R165 to R169) -/

/-- 06 R167: what each FUNC of ALU gives; an ALU word with a FUNC of 18 or more is undefined and halts with 0x1120 (R169). -/
def Obligations.AluFunctions : Prop :=
  ∀ (n w : Nat) (s t : State), Fetches n w s t → opIs 1 w = true →
    let a := reg (getCore t n) (fRa w)
    let b := reg (getCore t n) (fRb w)
    let gives := fun (r : Word) => exec (.alu n) s = .next (setRd n (fRd w) r t)
    (fld w 10 0 = 0 → gives (a + b)) ∧ (fld w 10 0 = 1 → gives (a - b)) ∧ (fld w 10 0 = 2 → gives (a * b))
    ∧ (fld w 10 0 = 3 → ∃ r, gives r ∧ r.toNat = a.toNat * b.toNat / 2 ^ 64)
    ∧ (fld w 10 0 = 4 → gives (a &&& b)) ∧ (fld w 10 0 = 5 → gives (a ||| b)) ∧ (fld w 10 0 = 6 → gives (a ^^^ b))
    ∧ (fld w 10 0 = 7 → ∃ r, gives r ∧ ∀ i, i < 64 → r.getLsbD i = (decide (b.toNat % 64 ≤ i) && a.getLsbD (i - b.toNat % 64)))
    ∧ (fld w 10 0 = 8 → ∃ r, gives r ∧ r.toNat = a.toNat / 2 ^ (b.toNat % 64))
    ∧ (fld w 10 0 = 9 → ∃ r, gives r ∧ r.toInt = a.toInt / 2 ^ (b.toNat % 64))
    ∧ (fld w 10 0 = 10 → gives (if a.toInt < b.toInt then 1 else 0)) ∧ (fld w 10 0 = 11 → gives (if a.toNat < b.toNat then 1 else 0))
    ∧ (fld w 10 0 = 12 → ∃ r, gives r ∧ r.toInt = min a.toInt b.toInt) ∧ (fld w 10 0 = 13 → ∃ r, gives r ∧ r.toInt = max a.toInt b.toInt)
    ∧ (fld w 10 0 = 14 → ∃ r, gives r ∧ r.toNat = min a.toNat b.toNat) ∧ (fld w 10 0 = 15 → ∃ r, gives r ∧ r.toNat = max a.toNat b.toNat)
    ∧ (fld w 10 0 = 16 → ∃ r, gives r ∧ r.toNat = if b.toNat = 0 then 2 ^ 64 - 1 else a.toNat / b.toNat)
    ∧ (fld w 10 0 = 17 → ∃ r, gives r ∧ r.toNat = if b.toNat = 0 then a.toNat else a.toNat % b.toNat)
    ∧ (18 ≤ fld w 10 0 → exec (.insnUndef n) s = .next (haltCtrl n 0x1120 t))

/-- 06 R166: the immediate instructions, over ra, the 16-bit immediate and, for the shifts, its low six bits. 06 R165: g0 reads 0 and
discards what is written to it; any other register keeps it. -/
def Obligations.ImmediatesAndRegisterZero : Prop :=
  (∀ (n w : Nat) (s t : State), Fetches n w s t →
     let a := reg (getCore t n) (fRa w)
     let gives := fun (c : Instr) (r : Word) => exec c s = .next (setRd n (fRd w) r t)
     (opIs 0x02 w = true → gives (.addi n) (a + BitVec.ofInt 64 (sx 16 (fImm w))))
     ∧ (opIs 0x03 w = true → gives (.andi n) (a &&& BitVec.ofNat 64 (fImm w)))
     ∧ (opIs 0x04 w = true → gives (.ori n) (a ||| BitVec.ofNat 64 (fImm w)))
     ∧ (opIs 0x05 w = true → gives (.xori n) (a ^^^ BitVec.ofNat 64 (fImm w)))
     ∧ (opIs 0x06 w = true → fld w 15 6 = 0 → gives (.shli n) (a <<< fld w 5 0))
     ∧ (opIs 0x07 w = true → fld w 15 6 = 0 → gives (.shri n) (a >>> fld w 5 0))
     ∧ (opIs 0x08 w = true → fld w 15 6 = 0 → gives (.sari n) (a.sshiftRight (fld w 5 0)))
     ∧ (opIs 0x09 w = true → gives (.slti n) (if a.toInt < sx 16 (fImm w) then 1 else 0))
     ∧ (opIs 0x0A w = true → fld w 20 18 = 0 → gives (.movz n) (BitVec.ofNat 64 (fImm w) <<< (16 * fld w 17 16)))
     ∧ (opIs 0x0B w = true → fld w 20 18 = 0 → ∃ r, gives (.movk n) r ∧ ∀ i, i < 64 →
         r.getLsbD i = if i / 16 = fld w 17 16 then (fImm w).testBit (i % 16) else (reg (getCore t n) (fRd w)).getLsbD i))
  ∧ (∀ (c : Core) (i j : Nat) (v : Word),
       reg c 0 = 0 ∧ setReg 0 v c = c ∧ (i ≠ 0 → reg (setReg i v c) i = v) ∧ (j ≠ i → reg (setReg i v c) j = reg c j))

/-- 06 R166, R169: loads and stores of control memory and of the core store: in range, aligned and, for the core store, in a bank that is
On. A poisoned byte halts with 0x1125 and writes no register. What a store of the control core leaves: the eight bytes of its memory hold
the register, every other byte of the core store and of control memory, every register and every other core is as before. -/
def Obligations.LoadsAndStores : Prop :=
  (∀ (n w : Nat) (s t : State), Fetches n w s t →
     let c := getCore t n
     let a := (reg c (fRa w) + BitVec.ofInt 64 (sx 16 (fImm w))).toNat
     let load := fun (i : Instr) (r : State × List PB) =>
       (pbPoison r.2 = false → exec i s = .next (setRd n (fRd w) (BitVec.ofNat 64 (ofLe (pbData r.2))) r.1))
       ∧ (pbPoison r.2 = true → exec i s = .next (haltCtrl n 0x1125 r.1))
     let onBanks := a % 8 = 0 ∧ a + 8 ≤ c.size ∧ storeCode c (a : Int) 8 = none
     (opIs 0x0C w = true → a % 8 = 0 → a + 8 ≤ 0x4000 → load (.ldc n) (cmemRead n a 8 t))
     ∧ (opIs 0x0D w = true → a % 8 = 0 → a + 8 ≤ 0x4000 →
         exec (.stc n) s = .next (modCore n nextPc (cmemWrite n a (leBytes (reg c (fRd w)).toNat 8) t)))
     ∧ (opIs 0x0E w = true → onBanks → load (.lds n) (storeRead n a 8 t))
     ∧ (opIs 0x0F w = true → onBanks →
         exec (.sts n) s = .next (modCore n nextPc (storeWrite n a (pbOf false (leBytes (reg c (fRd w)).toNat 8)) t))))
  ∧ (∀ (n w : Nat) (s t u : State), Fetches n w s t →
       let c := getCore t n
       let d := getCore u n
       let a := (reg c (fRa w) + BitVec.ofInt 64 (sx 16 (fImm w))).toNat
       let same := { u with cores := t.cores } = t ∧ (∀ m, m ≠ n → getCore u m = getCore t m) ∧ d.regs = c.regs ∧ d.p = c.p ∧ d.pc = c.pc + 4
       (opIs 0x0F w = true → a % 8 = 0 → a + 8 ≤ c.size → storeCode c (a : Int) 8 = none → exec (.sts n) s = .next u →
         same ∧ d.cmem = c.cmem ∧ (∀ b, b < a ∨ a + 8 ≤ b → spGet 0 d.store b = spGet 0 c.store b)
         ∧ spBytes d.store a 8 = leBytes (reg c (fRd w)).toNat 8)
       ∧ (opIs 0x0D w = true → a % 8 = 0 → a + 8 ≤ 0x4000 → exec (.stc n) s = .next u →
         same ∧ d.store = c.store ∧ (∀ b, b < a ∨ a + 8 ≤ b → spGet 0 d.cmem b = spGet 0 c.cmem b)
         ∧ spBytes d.cmem a 8 = leBytes (reg c (fRd w)).toNat 8))

/-- 06 R166: branches go to PC + 4 × OFF when their comparison holds and to the next instruction otherwise; a taken branch out of the
image's code halts with 0x1122 (R169). 06 R166: jumps link the next instruction in rd and go to PC + 4 × OFF or to ra + 4 × IMM; a target
out of the image's code halts with 0x1122 (R169). -/
def Obligations.BranchesAndJumps : Prop :=
  (∀ (n w : Nat) (s t : State), Fetches n w s t →
     let c := getCore t n
     let a := reg c (fld w 25 21)
     let b := reg c (fld w 20 16)
     let target : Int := (c.pc : Int) + 4 * sx 16 (fld w 15 0)
     let inside := 0 ≤ target ∧ target + 4 ≤ c.code.length ∧ target % 4 = 0
     let goes := fun (i : Instr) (taken : Prop) =>
       (taken → inside → exec i s = .next (modCore n (fun c => { c with pc := target.toNat }) t))
       ∧ (taken → ¬inside → exec i s = .next (haltCtrl n 0x1122 t))
       ∧ (¬taken → exec i s = .next (modCore n (fun c => { c with pc := c.pc + 4 }) t))
     (opIs 0x10 w = true → goes (.beq n) (a = b)) ∧ (opIs 0x11 w = true → goes (.bne n) (a ≠ b))
     ∧ (opIs 0x12 w = true → goes (.blt n) (a.toInt < b.toInt)) ∧ (opIs 0x13 w = true → goes (.bge n) (b.toInt ≤ a.toInt))
     ∧ (opIs 0x14 w = true → goes (.bltu n) (a.toNat < b.toNat)) ∧ (opIs 0x15 w = true → goes (.bgeu n) (b.toNat ≤ a.toNat)))
  ∧ (∀ (n w : Nat) (s t : State), Fetches n w s t →
       let c := getCore t n
       let goes := fun (i : Instr) (target : Int) =>
         (0 ≤ target ∧ target + 4 ≤ c.code.length ∧ target % 4 = 0 →
           exec i s = .next (modCore n (fun c => { setReg (fRd w) (BitVec.ofNat 64 (c.pc + 4)) c with pc := target.toNat }) t))
         ∧ (¬(0 ≤ target ∧ target + 4 ≤ c.code.length ∧ target % 4 = 0) → exec i s = .next (haltCtrl n 0x1122 t))
       (opIs 0x16 w = true → goes (.jal n) ((c.pc : Int) + 4 * sx 21 (fld w 20 0)))
       ∧ (opIs 0x17 w = true → goes (.jalr n) ((reg c (fRa w) + 4 * BitVec.ofInt 64 (sx 16 (fImm w))).toNat : Int)))

/-- 06 R166: the instructions that form the push register. 05 R123, R125, 06 R166: WAIT goes on at once when its counter has reached the
value and blocks otherwise; WAIT_RESUMES ends the block. INCR adds to a local counter, or to one of another core of the kernel. SLOT reads
a completion word. -/
def Obligations.PushRegisterAndScoreboard : Prop :=
  (∀ (n w : Nat) (s t : State), Fetches n w s t →
     let c := getCore t n
     let k := (reg c (fRa w) + BitVec.ofNat 64 (fImm w)).toNat
     let v := (reg c (fld w 25 21)).toNat
     let pos := fld w 15 8
     let wid := fld w 7 2 + 1
     let puts := fun (i : Instr) (lo len x : Nat) => ∃ q : BitVec 256, exec i s = .next (modCore n (fun c => nextPc { c with p := q }) t)
       ∧ q.toNat / 2 ^ lo % 2 ^ len = x % 2 ^ len ∧ q.toNat % 2 ^ lo = c.p.toNat % 2 ^ lo
       ∧ q.toNat / 2 ^ (lo + len) = c.p.toNat / 2 ^ (lo + len)
     (opIs 0x20 w = true → fRd w = 0 → k < c.tmpl.length →
       let r := tmplRead n k t
       (pbPoison r.2 = false →
         exec (.tpl n) s = .next (modCore n (fun c => nextPc { c with p := BitVec.ofNat 256 (ofLe (pbData r.2)) }) r.1))
       ∧ (pbPoison r.2 = true → exec (.tpl n) s = .next (haltCtrl n 0x1125 r.1)))
     ∧ (opIs 0x21 w = true → fld w 20 16 = 0 → fld w 15 3 = 0 → puts (.pset n) (32 * fld w 2 0) 32 v)
     ∧ (opIs 0x22 w = true → fld w 20 16 = 0 → fld w 1 0 = 0 → pos + wid ≤ 256 → puts (.pins n) pos wid v)
     ∧ (opIs 0x23 w = true → fld w 20 16 = 0 → fld w 1 0 = 0 → pos + wid ≤ 256 →
         puts (.padd n) pos wid (c.p.toNat / 2 ^ pos + v)))
  ∧ ((∀ (n w : Nat) (s t : State), Fetches n w s t →
       let c := getCore t n
       let a := (reg c (fld w 25 21)).toNat
       let b := (reg c (fld w 20 16)).toNat
       (opIs 0x28 w = true → fld w 20 16 = 0 → fld w 15 6 = 0 → a < 2 ^ 32 →
         exec (.wait n) s = .next (modCore n (fun c =>
           if a ≤ (ctr c (fld w 5 0)).toNat then nextPc c else { c with mode := .waiting (fld w 5 0) a, waitSince := t.ftime }) t))
       ∧ (opIs 0x29 w = true → fld w 15 7 = 0 → 1 ≤ b → b ≤ 65535 →
           (fld w 6 6 = 0 → fld w 25 21 = 0 →
             exec (.incr n) s = .next (Machine.incr n (fld w 5 0) b (ctrlRec t n 0x1110) (modCore n nextPc t)))
           ∧ (fld w 6 6 = 1 → (physCore t n a).isSome = true →
             exec (.incr n) s = .next (incrRemote n a (fld w 5 0) b (modCore n nextPc t))))
       ∧ (opIs 0x2A w = true → fld w 15 2 = 0 →
           exec (.slot n) s = .next (setRd n (fRd w)
             (BitVec.ofNat 64 (spGet 0 (getEng c (fld w 1 0)).slots ((reg c (fRa w)).toNat % 64)).toNat) t)))
     ∧ ∀ (n i v : Nat) (s : State), n < 144 → (getCore s n).mode = .waiting i v →
       (v ≤ (ctr (getCore s n) i).toNat → exec (.waitResumes n) s = .next (modCore n (fun c => nextPc { c with mode := .run }) s))
       ∧ ((ctr (getCore s n) i).toNat < v → exec (.waitResumes n) s = .next s))

/-- 05 R119, 06 R163: a PUSH whose checks find nothing enters the tail of its queue, or stalls the control core while the queue holds 64
commands, and PUSH_RESUMES enters it when there is room. What entering a push does: the push register joins the tail of queue q with the
next ordinal, the push is counted and remembered, the program counter goes on, and nothing else of the core or of the device changes. -/
def Obligations.PushEntersOneQueue : Prop :=
  ((∀ (n w : Nat) (s t : State), Fetches n w s t → opIs 0x24 w = true → pushBad n t (getCore t n) w = [] →
     ((getEng (getCore t n) (fld w 1 0)).queue.length < 64 → exec (.push n) s = .next (enterPush n (fld w 1 0) t))
     ∧ (64 ≤ (getEng (getCore t n) (fld w 1 0)).queue.length →
         exec (.push n) s = .next (modCore n (fun c => { c with mode := .stalled (fld w 1 0) }) t)))
   ∧ ∀ (n q : Nat) (s : State), n < 144 → (getCore s n).mode = .stalled q →
     ((getEng (getCore s n) q).queue.length < 64 → exec (.pushResumes n) s = .next (enterPush n q s))
     ∧ (64 ≤ (getEng (getCore s n) q).queue.length → exec (.pushResumes n) s = .next s))
  ∧ (∀ (n q : Nat) (s : State), q < 4 →
       let c := getCore s n
       let d := getCore (enterPush n q s) n
       (getEng d q).queue = (getEng c q).queue ++ [{ cmd := c.p, ordinal := (getEng c q).nextOrd }]
       ∧ (getEng d q).nextOrd = (getEng c q).nextOrd + 1 ∧ d.pushes = c.pushes + 1 ∧ d.pc = c.pc + 4 ∧ d.regs = c.regs ∧ d.p = c.p
       ∧ (∀ r, r < 4 → r ≠ q → getEng d r = getEng c r) ∧ d.ctrs = c.ctrs ∧ d.store = c.store ∧ d.cmem = c.cmem
       ∧ (∀ m, m ≠ n → getCore (enterPush n q s) m = getCore s m) ∧ { enterPush n q s with cores := s.cores } = s)

/-- 06 R166, R168, R175, 03 R80: BANK enters a change that waits for the commands pushed so far, ID reads the selectors (5, the local
cycle count, is a free value: log entry 27), MAPCH the binding, END ends the core's part, and an undefined opcode halts with 0x1120. -/
def Obligations.BankIdentityAndEnd : Prop :=
  ∀ (n w : Nat) (s t : State), Fetches n w s t →
    let c := getCore t n
    let m := (reg c (fld w 25 21)).toNat % 2 ^ 32
    let ch := (reg c (fRa w)).toNat
    let k := coreKernel t n
    let gives := fun (v : Nat) => exec (.idSel n) s = .next (setRd n (fRd w) (BitVec.ofNat 64 v) t)
    (opIs 0x2B w = true → fld w 20 16 = 0 → fld w 15 2 = 0 → fld w 1 0 ≠ 3 → m % 2 ^ banksUsed c.size = 0 ∨ enginesIdle c = true →
      exec (.bank n) s = .next (modCore n (fun c => nextPc { c with bankReqs := c.bankReqs ++ [
        { mask := BitVec.ofNat 32 m, st := if fld w 1 0 = 0 then .on else if fld w 1 0 = 1 then .retention else .off,
          after := [c.me.nextOrd, c.ve.nextOrd, c.mv.nextOrd, c.tt.nextOrd] }] }) t))
    ∧ (opIs 0x2C w = true → fRa w = 0 →
      (fImm w = 0 → gives c.lcore) ∧ (fImm w = 1 → gives ((k.map (fun k => k.cores.length)).getD 0))
      ∧ (fImm w = 2 → gives ((k.map (fun k => k.image.lchannels)).getD 0)) ∧ (fImm w = 3 → gives c.size)
      ∧ (fImm w = 4 → gives (getPart t (corePart t n)).launches)
      ∧ (fImm w = 5 → ∃ v, exec (.idSel n) s = .next (setRd n (fRd w) v { t with free := t.free + 1 }))
      ∧ (fImm w = 6 → gives t.ftime) ∧ (fImm w = 7 → gives n) ∧ (fImm w = 8 → gives (2 ^ ((k.map (fun k => k.image.waitK)).getD 0)))
      ∧ (9 ≤ fImm w → exec (.idSel n) s = .next (haltCtrl n 0x1124 t)))
    ∧ (opIs 0x2D w = true → fImm w = 0 →
      (∀ h, physChan t n ch = some h → exec (.mapch n) s = .next (setRd n (fRd w) (BitVec.ofNat 64 h) t))
      ∧ (physChan t n ch = none → exec (.mapch n) s = .next (haltCtrl n 0x1123 t)))
    ∧ (opIs 0x2E w = true → fld w 25 0 = 0 → exec (.endPart n) s = .next (modCore n (fun c => { c with mode := .ended }) t))
    ∧ (opDefined w = false → exec (.insnUndef n) s = .next (haltCtrl n 0x1120 t))

/-- 06 R166, R167: an instruction of a result changes only rd and the program counter of its own core; a branch only the program counter.
Nothing outside the core changes. -/
def Obligations.InstructionFrame : Prop :=
  ∀ (n w k : Nat) (i : Instr) (s t u : State), Fetches n w s t → opIs k w = true → exec i s = .next u → (getCore u n).mode = .run →
    let c := getCore t n
    let d := getCore u n
    let others := { u with cores := t.cores } = t ∧ ∀ m, m ≠ n → getCore u m = getCore t m
    ((i = .alu n ∧ isAlu w = true) ∨ (i, k) ∈ [(Instr.addi n, 2), (.andi n, 3), (.ori n, 4), (.xori n, 5), (.shli n, 6), (.shri n, 7), (.sari n, 8), (.slti n, 9),
        (.movz n, 10), (.movk n, 11), (.slot n, 0x2A), (.mapch n, 0x2D), (.jal n, 0x16), (.jalr n, 0x17)] →
      others ∧ (∀ j, j ≠ fRd w → reg d j = reg c j) ∧ { d with regs := c.regs, pc := c.pc } = c)
    ∧ ((i, k) ∈ [(Instr.beq n, 0x10), (.bne n, 0x11), (.blt n, 0x12), (.bge n, 0x13), (.bltu n, 0x14), (.bgeu n, 0x15)] →
      others ∧ { d with pc := c.pc } = c)

/-- 03 R79, R80: the oldest bank change takes effect once every command pushed before it has completed: the banks of its mask are in its
state, those that go Off lose their contents, and every other bank and byte is as before. -/
def Obligations.BankChangeTakesEffect : Prop :=
  ∀ (n : Nat) (s : State) (r : BankReq) (rest : List BankReq), n < 144 →
    let c := getCore s n
    c.bankReqs = r :: rest → c.mode ≠ .halted → (∀ q, q < 4 → (r.after[q]?).getD 0 ≤ (getEng c q).doneOrd) →
    ∃ u, exec (.bankStateEffect n) s = .next u ∧ { u with cores := s.cores } = s ∧ (getCore u n).bankReqs = rest
      ∧ (∀ b, b < 32 → bankState (getCore u n) b = if r.mask.getLsbD b then r.st else bankState c b)
      ∧ ∀ a, spGet 0 (getCore u n).store a = if r.mask.getLsbD (storeBank c.size a) ∧ r.st = .off then 0 else spGet 0 c.store a

/-- 05 R127, R139, R179: a wait past the image's limit halts with 0x1113, a core at its stop count with 0x0110 once its queues are empty,
and a core of a halting kernel on notice with 0x1140 and the number of the core that began. -/
def Obligations.CoreEventsHalt : Prop :=
  ∀ (n : Nat) (s : State), n < 144 →
    let c := getCore s n
    (∀ u e rest, u < 4 → (getEng c u).queue = e :: rest → engActive c = true → waitsMet c e.cmd.toNat = false →
      exec (.sbTimeout n u) s = .next (haltQueue n u e 0x1113 false 0 (timeTo ((getEng c u).headSince + waitLimit s n + 1) s)))
    ∧ (∀ i v, c.mode = .waiting i v → (ctr c i).toNat < v →
      exec (.sbTimeout n 4) s = .next (haltCtrl n 0x1113 (timeTo (c.waitSince + waitLimit s n + 1) s)))
    ∧ (c.mode = .counted → enginesIdle c = true → exec (.stopCount n) s = .next (haltCore n (stopRec s n) s))
    ∧ (∀ k code lc, coreKernel s n = some k → k.halting = some (code, lc) →
      exec (.haltNotice n) s = .next (haltCore n { ctrlRec s n 0x1140 with faultVa := lc } s))

/-- 05 R139, R140: a halt stops one core with its record and keeps its counters, completion words, queues and store; a core that has
halted writes no second record. 05 R139, R141: the halt of a kernel is complete when all its cores have halted, no command runs and no SCU
command is outstanding; the partition is Halted, without kernel and step, and every core stands exactly as it stood. -/
def Obligations.HaltsFreezeTheCores : Prop :=
  (∀ (n : Nat) (r : HaltRec) (s : State),
     ((getCore s n).mode = .halted → haltCore n r s = s)
     ∧ ((getCore s n).mode ≠ .halted →
       getCore (haltCore n r s) n = { getCore s n with mode := .halted, halt := some r }
       ∧ (∀ m, m ≠ n → getCore (haltCore n r s) m = getCore s m)
       ∧ { haltCore n r s with cores := s.cores, parts := s.parts } = s
       ∧ ∀ p, (getCore s n).part = some p → (getPart (haltCore n r s) p).haltRecs.getLast? = some r))
  ∧ (∀ (p : Nat) (s : State) (k : Kernel) (code : Code) (lc : Nat), p < 16 → (getPart s p).kernel = some k → k.halting = some (code, lc) →
       (∀ n ∈ k.cores, (getCore s n).mode = .halted ∧ inProgress (getCore s n) = false) → scuBusy s p = false →
       ∃ u, exec (.haltComplete p) s = .next u ∧ (getPart u p).st = .halted ∧ (getPart u p).kernel = none ∧ (getPart u p).step = none
         ∧ u.cores = s.cores)

/-- 05 R124, R127: an increment adds its amount to one counter and to nothing else; past 2^32 − 1 the counter stays there and its core
halts; while the partition is Halted no increment is applied (R139). 04 R88: when an SCU command ends, its ready bit adds 1 to increment
0's counter at the dispatching core, and its queue loses its head; no other channel changes. -/
def Obligations.CountersAddAndStay : Prop :=
  (∀ (n i amt : Nat) (r : HaltRec) (s : State),
     let v := (ctr (getCore s n) i).toNat + amt
     (frozen s n = true → Machine.incr n i amt r s = s)
     ∧ (frozen s n = false → v < 2 ^ 32 →
       let u := Machine.incr n i amt r s
       (ctr (getCore u n) i).toNat = v ∧ (∀ j, j ≠ i → ctr (getCore u n) j = ctr (getCore s n) j)
       ∧ { getCore u n with ctrs := (getCore s n).ctrs } = getCore s n
       ∧ (∀ m, m ≠ n → getCore u m = getCore s m) ∧ { u with cores := s.cores } = s)
     ∧ (frozen s n = false → 2 ^ 32 ≤ v →
       (ctr (getCore (Machine.incr n i amt r s) n) i).toNat = 2 ^ 32 - 1
       ∧ (getCore (Machine.incr n i amt r s) n).mode = .halted
       ∧ ((getCore s n).mode ≠ .halted → (getCore (Machine.incr n i amt r s) n).halt = some r)))
  ∧ (∀ (chan i : Nat) (e : ScuEnt) (s : State), e.ctr = some i → frozen s e.core = false →
       (ctr (getCore s e.core) i).toNat + 1 < 2 ^ 32 →
       let u := raiseReady e (popScu chan s)
       (ctr (getCore u e.core) i).toNat = (ctr (getCore s e.core) i).toNat + 1 ∧ (getChan u chan).queue = (getChan s chan).queue.tail
       ∧ (∀ h, h ≠ chan → getChan u h = getChan s h) ∧ (∀ m, m ≠ e.core → getCore u m = getCore s m))

/-! ### Engine commands (05 R119 to R124, R138; 06 R144 to R164) -/

/-- 06 R151 to R155, R160, R164, 05 R135: a command of the ME or the VE, and a CMO, that heads its queue, can start and is not rejected
always completes; none of these is stopped part-way. 06 R146: a SYNC of any queue, its words 4 to 7 zero, completes with no work done. 06
R158, R161, R162, 05 R138: a MOVE, ATOMIC, LAYOUT or SCALE_EXPAND that is neither rejected nor stopped completes; stopped at a faulting
access, it halts its queue partial, with what it wrote before in place. -/
def Obligations.EngineCommandsComplete : Prop :=
  (∀ (n : Nat) (s : State) (e : QEnt),
     let runs := fun (c : Instr) (q opc : Nat) (body : QEnt → State → Res EngWork) =>
       Starts n q opc e s → Accepts body e s → ∃ t d, body e s = .ok t (.ok d) ∧ exec c s = .next (complete n q e d t)
     runs (.matmul n) 0 0x01 (matBody n) ∧ runs (.eltwise n) 1 0x01 (eltBody n) ∧ runs (.reduce n) 1 0x02 (redBody n)
     ∧ runs (.combine n) 1 0x03 (combBody n) ∧ runs (.cmo n) 2 0x03 (cmoBody n))
  ∧ (∀ (n q : Nat) (s : State) (e : QEnt), q < 4 → Starts n q 0x3F e s →
       (e.cmd.toNat < 2 ^ 128 → exec (.sync n q) s = .next (complete n q e {} s))
       ∧ (2 ^ 128 ≤ e.cmd.toNat → exec (.sync n q) s = .next (haltQueue n q e 0x1101 false 0 s)))
  ∧ (∀ (n : Nat) (s : State) (e : QEnt),
       let runs := fun (c : Instr) (q opc : Nat) (body : QEnt → State → Res EngWork) =>
         Starts n q opc e s → Accepts body e s →
           (Unstopped body e s → ∃ t d, body e s = .ok t (.ok d) ∧ exec c s = .next (complete n q e d t))
           ∧ ∀ t code va, body e s = .err t code va → exec c s = .next (haltQueue n q e code true va t)
       runs (.move n) 2 0x01 (moveBody n) ∧ runs (.atomic n) 2 0x04 (atomicBody n)
       ∧ runs (.layout n) 3 0x01 (layoutBody n) ∧ runs (.scaleExpand n) 3 0x02 (expandBody n))

/-- 05 R138, 06 R164: a rejected command is not executed: its queue halts with it at its head, and the record names the lowest code. -/
def Obligations.RejectedCommandsHalt : Prop :=
  ∀ (n : Nat) (s t : State) (e : QEnt) (code : Code),
    let halts := fun (c : Instr) (q opc : Nat) (body : QEnt → State → Res EngWork) =>
      Starts n q opc e s → body e s = .ok t (.error code) →
        exec c s = .next (haltQueue n q e code false 0 t)
        ∧ (getEng (getCore (haltQueue n q e code false 0 t) n) q).queue = (getEng (getCore t n) q).queue
    halts (.matmul n) 0 0x01 (matBody n) ∧ halts (.eltwise n) 1 0x01 (eltBody n) ∧ halts (.reduce n) 1 0x02 (redBody n)
    ∧ halts (.combine n) 1 0x03 (combBody n) ∧ halts (.cmo n) 2 0x03 (cmoBody n) ∧ halts (.move n) 2 0x01 (moveBody n)
    ∧ halts (.atomic n) 2 0x04 (atomicBody n) ∧ halts (.layout n) 3 0x01 (layoutBody n) ∧ halts (.scaleExpand n) 3 0x02 (expandBody n)

/-- 05 R120, R121: a completed command leaves the head of its queue, its word stands in the slot of its ordinal modulo 64, its events join
the queue's, and the core's other queues, its counters and its store are as before. -/
def Obligations.RetiredCommandLeavesItsWord : Prop :=
  ∀ (n q : Nat) (e : QEnt) (d : Done) (s : State), q < 4 →
    let g := getEng (getCore s n) q
    let u := retire n q e d s
    let h := getEng (getCore u n) q
    h.queue = g.queue.tail ∧ h.doneOrd = e.ordinal + 1
    ∧ (spGet 0 h.slots (e.ordinal % 64)).toNat
        = (d.info % 2 ^ 16) * 2 ^ 16 + (if d.clamped then 2 ^ 8 else 0) + (if d.poison then 2 ^ 7 else 0) + (if d.waited then 2 ^ 6 else 0)
          + d.ev.toNat
    ∧ (∀ i, i ≠ e.ordinal % 64 → spGet 0 h.slots i = spGet 0 g.slots i) ∧ h.events = g.events ||| d.ev
    ∧ (∀ r, r < 4 → r ≠ q → getEng (getCore u n) r = getEng (getCore s n) r)
    ∧ (getCore u n).ctrs = (getCore s n).ctrs ∧ (getCore u n).store = (getCore s n).store
    ∧ (∀ m, m ≠ n → getCore u m = getCore s m) ∧ { u with cores := s.cores } = s

/-- 06 R144, R151 to R155, 05 R134, R135: a command of the ME or the VE touches memory only in its own core store: stack memory, the
shared cache, the partitions, the sessions and every other core are as before, and so are the registers, counters, queues, banks and
control memory of its core. -/
def Obligations.EngineCommandsStayInTheStore : Prop :=
  ∀ (n : Nat) (s t : State) (e : QEnt) (w : EngWork) (body : QEnt → State → Res EngWork),
    body = matBody n ∨ body = eltBody n ∨ body = redBody n ∨ body = combBody n → body e s = .ok t w →
    t.mem = s.mem ∧ t.cache = s.cache ∧ t.parts = s.parts ∧ t.sess = s.sess ∧ t.rings = s.rings ∧ (∀ m, m ≠ n → getCore t m = getCore s m)
    ∧ { getCore t n with
        store := (getCore s n).store, storeChk := (getCore s n).storeChk, injected := (getCore s n).injected, testQ := (getCore s n).testQ,
        errs := (getCore s n).errs } = getCore s n

/-- 06 R159, 04 R88, R89: a DISPATCH that passes its own checks and those of all its records sends them; held by a full SCU it stays at
the head, and DISPATCH_WAIT sends the rest. -/
def Obligations.DispatchSends : Prop :=
  (∀ (n : Nat) (s t : State) (e : QEnt) (recs : List (Nat × Bool)), Starts n 2 0x02 e s → dispatchCodes s n e.cmd.toNat = [] →
    loadRecs n (fld e.cmd.toNat 147 128) (fld e.cmd.toNat 153 148) s = (t, recs) → recs.flatMap (fun r => recCodes t n r.1) = [] →
    exec (.dispatch n) s = .next (dispatchGo n e recs t))
  ∧ ∀ (n : Nat) (s t : State) (e : QEnt) (rest : List QEnt) (recs : List (Nat × Bool)), n < 144 → (getCore s n).mv.queue = e :: rest → e.waited = true →
    loadRecs n (fld e.cmd.toNat 147 128) (fld e.cmd.toNat 153 148) s = (t, recs) →
    exec (.dispatchWait n) s = .next (dispatchGo n e recs t)

/-! ### SCU commands (04 R88 to R107) -/

/-- 04 R90, R94 to R103: an SCU command whose checks find nothing marks its status Running, does its work, marks it Done and raises its
ready bit; one that they reject leaves status Rejected, raises its ready bit and halts the core that dispatched it. 04 R104, R107: STATUS
and FENCE write the status record once, Done, and raise the ready bit; a REFRESH pauses the command in progress once more and changes
nothing else. -/
def Obligations.ScuCommandsComplete : Prop :=
  (∀ (chan : Nat) (s : State) (e : ScuEnt),
     let runs := fun (c : Instr) (op : Nat) (check : State → ScuEnt → List Code) (work : ScuEnt → State → State × ScuDone) =>
       ScuStarts chan op e s →
         (ScuAccepts chan check e s →
           let r := work e (writeStatus e chan 1 0 s.ftime 0 0 {} s)
           exec c s = .next (raiseReady e (popScu chan
             (writeStatus e chan 2 0 s.ftime r.1.ftime (getChan s chan).refPauses r.2 r.1))))
         ∧ ∀ code, lowest (scuRange s e.part chan needSw (statusVa e) 64 ++ check s e) = some code →
           exec c s = .next (scuHalt e chan code (raiseReady e (popScu chan (writeStatus e chan 3 code 0 s.ftime 0 {} s))))
     runs (.gemv chan) 1 (gemvCheck chan) (gemvWork chan) ∧ runs (.attn chan) 2 (attnCheck chan) (attnWork chan)
     ∧ runs (.gather chan) 3 (gatherCheck chan) (gatherWork chan) ∧ runs (.scuCopy chan) 4 (scuCopyCheck chan) (scuCopyWork chan)
     ∧ runs (.scuFill chan) 5 (scuFillCheck chan) scuFillWork ∧ runs (.scuConvert chan) 6 (convCheck chan) (convWork chan)
     ∧ runs (.scuElem chan) 7 (elemCheck chan) (elemWork chan))
  ∧ (∀ (chan : Nat) (s : State) (e : ScuEnt),
       let done := raiseReady e (popScu chan (writeStatus e chan 2 0 s.ftime s.ftime 0 {} s))
       (ScuStarts chan 0x0E e s → scuRange s e.part chan needSw (statusVa e) 64 = [] → exec (.scuStatus chan) s = .next done)
       ∧ (ScuStarts chan 0x0F e s → scuRange s e.part chan needSw (statusVa e) 64 = [] → exec (.scuFence chan) s = .next done)
       ∧ (chan < 256 → (getChan s chan).queue ≠ [] →
         exec (.refresh chan) s = .next (modChan chan (fun c => { c with refPauses := c.refPauses + 1 }) s)))

/-- 03 R80: a bank change that waits lets every command pushed before it go on, holds every command pushed after it, and takes effect, in
the state it asks for, only once every earlier command has completed. -/
def Obligations.BankChangesWaitInOrder : Prop :=
  ∀ (n q : Nat) (s : State) (e : QEnt) (rest : List QEnt) (opc : Nat), n < 144 → q < 4 →
    let c := getCore s n
    (getEng c q).queue = e :: rest →
    ((∃ r ∈ c.bankReqs, (r.after[q]?).getD 0 ≤ e.ordinal) → readyHead s n q opc = none)
    ∧ ((∀ r ∈ c.bankReqs, e.ordinal < (r.after[q]?).getD 0) → engActive c = true → fld e.cmd.toNat 5 0 = opc →
        waitsMet c e.cmd.toNat = true → e.waited = false → readyHead s n q opc = some e)
    ∧ ∀ r rs, c.bankReqs = r :: rs →
      ((∃ p, p < 4 ∧ (getEng c p).doneOrd < (r.after[p]?).getD 0) → exec (.bankStateEffect n) s = .next s)
      ∧ ((∀ p, p < 4 → (r.after[p]?).getD 0 ≤ (getEng c p).doneOrd) → c.mode ≠ .halted →
        ∃ u, exec (.bankStateEffect n) s = .next u ∧ (getCore u n).bankReqs = rs
          ∧ ∀ b, b < 32 → bankState (getCore u n) b = if r.mask.getLsbD b then r.st else bankState c b)

/-! ### Steps of a partition (09 R246 to R253, 10 R268) -/

/-- 09 R246, R250: when a partition may launch, the records are read, the drafts that serve a tree are queued and the candidates are
considered in deadline order; with entries the Timetable is written and the kernel launched under the step's number, without entries
nothing is launched; a partition that may not launch does nothing. 12 R337: poison in the step's working state fails the step with
retries (log entry 128: what that state is). -/
def Obligations.StepLaunchCompletes : Prop :=
  ∀ (p : Nat) (s s1 : State) (b : Build), p < 16 →
    (canLaunch s p = false → exec (.stepLaunch p) s = .next s)
    ∧ (canLaunch s p = true →
      let s0 := queueDrafts p (readForStep p s)
      (candidates s0 p).foldl (fun acc n => considerOne p n acc) (s0, {}) = (s1, b) →
      (b.entries = [] → exec (.stepLaunch p) s = .next s1)
      ∧ (b.entries ≠ [] →
        let es := withRows 0 (sortBy entryLe b.entries)
        let no := (getPart s1 p).stepNo
        let w := writeTimetable p no es s1
        let v := modPart p (fun pt => { pt with stepNo := no + 1, step := some { no := no, entries := es, tLaunch := s1.ftime } }) w.1
        ∀ img, imageOf (getPart w.1 p) = some img →
          (workSick v p = false → exec (.stepLaunch p) s = .next (launchKernel p img w.2 false 0 0xFF v))
          ∧ (workSick v p = true → exec (.stepLaunch p) s = .next (workFails p v))))

/-- 06 R165, R175, 05 R119, R121, R123: at launch every core of the kernel has its registers, P, counters, queues and completion words
empty, its program counter at ENTRY and its partition's number; no other core changes, and the launch is counted. -/
def Obligations.LaunchSetsTheCores : Prop :=
  ∀ (p n stopN stopCore : Nat) (img : Image) (args : List Byte) (diag : Bool) (s : State),
    let cs := (presentOf s.units.core (sortNat (getPart s p).cores)).take img.lcores
    let u := launchKernel p img args diag stopN stopCore s
    let c := getCore u n
    (n ∈ cs → c.mode = .run ∧ c.pc = img.entry ∧ (∀ i, reg c i = 0) ∧ c.p = 0 ∧ (∀ i, ctr c i = 0) ∧ c.part = some p ∧ c.pushes = 0
      ∧ c.code = img.code ∧ c.tmpl = img.templates ∧ c.bankReqs = []
      ∧ ∀ q, q < 4 → (getEng c q).queue = [] ∧ (getEng c q).nextOrd = 0 ∧ ∀ i, spGet 0 (getEng c q).slots i = 0)
    ∧ (n ∉ cs → c = getCore s n)
    ∧ (getPart u p).launches = (getPart s p).launches + 1
    ∧ ∃ k, (getPart u p).kernel = some k ∧ k.cores = cs ∧ k.image = img ∧ k.halting = none

/-- 10 R268, 09 R251: a kernel ends when all its cores are at END with empty queues and neither an SCU command nor a request of a
collective that it issued, read or not, is outstanding; while one of these is missing it does not end. The step's rows are then committed,
and the Points decide what is sampled. 09 R251, R254 to R259: after the kernel a lane decides the next sampled entry; after the last one
the step is over. 12 R337: poison in the step's working state fails the step first. -/
def Obligations.KernelEndAndSampling : Prop :=
  (∀ (p : Nat) (s : State) (k : Kernel), p < 16 → (getPart s p).kernel = some k →
     let ready := k.halting = none ∧ (∀ n ∈ k.cores, (getCore s n).mode = .ended ∧ enginesIdle (getCore s n) = true)
       ∧ scuBusy s p = false ∧ (∀ r ∈ (getPart s p).coll, r.stale = true) ∧ nextColl p s = none
     let idle := k.cores.foldl (fun t n => modCore n (fun c => { c with mode := .idle }) t) (modPart p (fun x => { x with kernel := none }) s)
     (¬ready → exec (.kernelEnd p) s = .next s)
     ∧ (ready → k.diag = true → exec (.kernelEnd p) s = .next (endOps p 0x0A01 0 idle))
     ∧ (ready → k.diag = false → (getPart s p).step = none → exec (.kernelEnd p) s = .next idle)
     ∧ ∀ st, ready → k.diag = false → (getPart s p).step = some st →
       let ended : Step := { st with
         ended := true, tEnd := s.ftime, events := (List.range 4).map (fun q => orEv (k.cores.map (fun n => (getEng (getCore s n) q).events))),
         poison := (List.range 4).map (fun q => k.cores.any (fun n => (getEng (getCore s n) q).poison)) }
       let done := st.entries.foldl (commitEntry (orEv ended.events) p) (modPart p (fun x => { x with step := some ended }) idle)
       exec (.kernelEnd p) s = .next (if st.entries.any sampled then done else finishStep p done))
  ∧ (∀ (p i : Nat) (s : State) (st0 st : Step) (e : Entry), p < 16 → (getPart s p).step = some st0 → st0.ended = true →
       let t := readForStep p s
       (workSick t p = true → exec (.pointsDecide p) s = .next (workFails p t))
       ∧ (workSick t p = false → (getPart t p).step = some st → st.ended = true →
         (nextSampled st.entries st.next = some i → st.entries[i]? = some e →
           let s1 := modPart p (fun pt => { pt with step := pt.step.map (fun x =>
             { x with next := i + 1, row := st.row + if e.kind = .verify then e.nodes else 1 }) }) t
           let s2 := decideEntry p e st.row (orEv st.events) s1
           exec (.pointsDecide p) s = .next (if nextSampled st.entries (i + 1) = none then finishStep p s2 else s2))
         ∧ (nextSampled st.entries st.next = none → exec (.pointsDecide p) s = .next (finishStep p t))))

/-- 13 R342: a step still running past STEP_LIMIT answers the abort of its partition at the first nanosecond past the limit, its sessions'
retry code 0x4121 and its event code 0x4122. A core that is present and whose halt record is the abort's is switched off: its state byte
is 6, its queues and every other part of it empty, no other core changes, the state answered is that of posting 0x1160 with kind 1 and the
core's number and of looking at the floors and the report of a changed unit. -/
def Obligations.OverrunsAndIsolation : Prop :=
  (∀ (p : Nat) (s : State) (st : Step), p < 16 → (getPart s p).step = some st → st.ended = false →
    exec (.stepOverrun p) s = .next (abortWith p 0x4121 0x4122 (timeTo (st.tLaunch + 1000 * (getPart s p).params.stepLimit + 1) s)))
  ∧ ∀ (n : Nat) (s : State) (r : HaltRec), n < 144 → (getCore s n).halt = some r → r.code = 0x1150 → unitPresent s.units.core n = true →
    let dark := modCore n (fun _ => darkCore) { s with units := { s.units with core := spSet 0 s.units.core n 6 } }
    exec (.coreIsolated n) s = .next (unitChanged (post 0x1160 1 n dark))
    ∧ spGet 0 (unitChanged (post 0x1160 1 n dark)).units.core n = 6 ∧ getCore (unitChanged (post 0x1160 1 n dark)) n = darkCore
    ∧ (∀ q, q < 4 → (getEng darkCore q).queue = [])
    ∧ ∀ m, m ≠ n → getCore (unitChanged (post 0x1160 1 n dark)) m = getCore s m

/-- 09 R249: at each boundary of 1 ms every tenant's balance becomes the lesser of BAL + RATE and BURST, with the RATE and BURST that a
TEN command left for that boundary; the boundary advances by one and time reaches it. -/
def Obligations.EpochRefillsEveryTenant : Prop :=
  ∀ s : State, (s.tens.map (·.1)).Nodup →
    ∃ u, exec .epochRefill s = .next u ∧ u.epoch = s.epoch + 1 ∧ u.ftime = max s.ftime ((s.epoch + 1) * 1000000)
      ∧ { u with tens := s.tens, epoch := s.epoch, ftime := s.ftime } = s
      ∧ ∀ n, let t := getTen s n
        let rb := t.next.getD (t.rate, t.burst)
        getTen u n = { t with rate := rb.1, burst := rb.2, next := none, bal := min (t.bal + rb.1) rb.2 }

/-! ### Rings (09 R238 to R245, 17 R434, R435) -/

/-- 09 R241: a TURN entry whose checks find nothing and whose inputs can be used opens its request on the session, and the draft session
that the session may have follows it (R260); the first check that
fails refuses the entry on the ring's PAIR, unusable inputs with 0x4132, a log without room with 0x4130; a Sided session whose log cannot
be rebuilt goes to Faulted with 0x4211 (08 R228). The entry is consumed in every case. -/
def Obligations.TurnCompletes : Prop :=
  ∀ (r v : Nat) (poison : Bool) (s s1 : State), r < 16384 → nextEntry r s = some (s1, v, poison) → fld v 7 0 ≠ 2 →
    let t := consumeEntry r s1
    let x := getRing t r
    let z := getSess t (fld v 31 16)
    (∀ code, turnFirst t r v poison = some code → exec (.turn r) s = .next (refuseEntry r v code t))
    ∧ (turnFirst t r v poison = none → ∀ t2, (turnInputs x.part v t = (t2, none) → exec (.turn r) s = .next (refuseEntry r v 0x4132 t2))
      ∧ ∀ l, turnInputs x.part v t = (t2, some l) →
        (l = [] → z.pend = none → exec (.turn r) s = .next (refuseEntry r v 0x4132 t2))
        ∧ ((l ≠ [] ∨ z.pend ≠ none) → takesFeatures (getPart t x.part) = false → z.logCap < z.log.length + l.length →
          exec (.turn r) s = .next (refuseEntry r v 0x4130 t2))
        ∧ ((l ≠ [] ∨ z.pend ≠ none) → (takesFeatures (getPart t x.part) = true ∨ z.log.length + l.length ≤ z.logCap) →
          let opened := modSess (fld v 31 16) (openReq t.ftime (getTen t2 x.tenant).slack x.pair v l) t2
          let lost := z.st = .sided ∧ z.log.length < z.committed
          (¬lost → exec (.turn r) s = .next (followDraft (fld v 31 16) opened))
          ∧ (lost → exec (.turn r) s = .next (endReq (fld v 31 16) 0x4211 5 false
              (modSess (fld v 31 16) (fun z => { z with st := .faulted, faultCode := 0x4211 }) opened)))))

/-- 09 R241: a CANCEL of a session without an open request completes at once with 0x0420; one of a session with an open request ends it,
at the end of the step in progress if there is one; a failed check refuses the entry. -/
def Obligations.CancelCompletes : Prop :=
  ∀ (r v : Nat) (poison : Bool) (s s1 : State), r < 16384 → nextEntry r s = some (s1, v, poison) → fld v 7 0 = 2 →
    let t := consumeEntry r s1
    let x := getRing t r
    let n := fld v 31 16
    let z := getSess t n
    let st := (getPart t x.part).st
    let clean := poison = false ∧ fld v 15 10 = 0 ∧ fld v 255 240 = 0 ∧ fld v 319 304 = 0
    let loaded := st ≠ .empty ∧ st ≠ .absent
    let its := z.st ≠ .free ∧ z.tenant = x.tenant ∧ z.part = x.part
    (¬clean → exec (.cancel r) s = .next (refuseEntry r v 0x4101 t))
    ∧ (clean → ¬loaded → exec (.cancel r) s = .next (refuseEntry r v 0x4110 t))
    ∧ (clean → loaded → ¬its → exec (.cancel r) s = .next (refuseEntry r v 0x4103 t))
    ∧ (clean → loaded → its → z.opened = false →
      exec (.cancel r) s = .next (ringPost x.pair { sess := n, code := 0x0420, final := true, reason := 4,
                                                     tag := BitVec.ofNat 64 (fld v 127 64), own := false, mark := true } t))
    ∧ (clean → loaded → its → z.opened = true → (getPart t x.part).step ≠ none →
      exec (.cancel r) s = .next (modSess n (fun z => { z with work := { z.work with cancel := true } }) t))
    ∧ (clean → loaded → its → z.opened = true → (getPart t x.part).step = none → exec (.cancel r) s = .next (endReq n 0x0420 4 false t))

/-- 17 R434, R435: a doorbell that covers a ring's value whole, from the ring's function, to an Enabled ring of the row's kind: a
submission ring takes a value between the one held and CONSUMED + ENTRIES, a completion ring one up to the entries posted; a value behind
is ignored and counted; any other puts the ring in Error with 0x4102. 17 R434, 09 R244: a doorbell that covers a value in part, or to a
ring that is not Enabled, is counted and changes nothing else; one of another function also posts 0x4170. IRQ_TIME past the first
unsignalled entry sends the ring's message. -/
def Obligations.DoorbellsComplete : Prop :=
  (∀ (fn r : Nat) (v : BitVec 32) (s : State), fn < 64 → r < 16384 → hostUp s = true →
     let x := getRing s r
     x.fn = fn → x.st = .enabled →
     let ignored := modRing r (fun x => { x with ignored := x.ignored + 1 }) s
     (x.completion = false →
       let c := Instr.submissionDoorbell fn r true v 0
       ((x.doorbell - x.consumed).toNat ≤ (v - x.consumed).toNat → (v - x.consumed).toNat ≤ 2 ^ x.log2 →
         exec c s = .next (modRing r (fun x => { x with doorbell := v }) s))
       ∧ ((v - x.consumed).toNat < (x.doorbell - x.consumed).toNat → (v - x.consumed).toNat ≤ 2 ^ x.log2 → exec c s = .next ignored)
       ∧ (2 ^ x.log2 < (v - x.consumed).toNat → (x.consumed - v).toNat ≤ 2 ^ x.log2 → exec c s = .next ignored)
       ∧ (2 ^ x.log2 < (v - x.consumed).toNat → 2 ^ x.log2 < (x.consumed - v).toNat → exec c s = .next (ringError r 0x4102 s)))
     ∧ (x.completion = true →
       let c := Instr.completionDoorbell fn r true v 0
       ((v - x.consumed).toNat ≤ (x.posted - x.consumed).toNat →
         exec c s = .next (flushBacklog r (modRing r (fun x => { x with consumed := v, doorbell := v }) s)))
       ∧ ((x.posted - x.consumed).toNat < (v - x.consumed).toNat → (x.consumed - v).toNat ≤ 2 ^ x.log2 → exec c s = .next ignored)
       ∧ ((x.posted - x.consumed).toNat < (v - x.consumed).toNat → 2 ^ x.log2 < (x.consumed - v).toNat →
         exec c s = .next (ringError r 0x4102 s))))
  ∧ (∀ (fn r : Nat) (v : BitVec 32) (s : State), fn < 64 → r < 16384 → hostUp s = true →
       let x := getRing s r
       let ignored := modRing r (fun x => { x with ignored := x.ignored + 1 }) s
       let drops := fun (whole : Bool) (t : State) =>
         (x.completion = false ∨ x.st ≠ .enabled → exec (.submissionDoorbell fn r whole v 0) s = .next t)
         ∧ (x.completion = true ∨ x.st ≠ .enabled → exec (.completionDoorbell fn r whole v 0) s = .next t)
       drops false ignored
       ∧ (x.fn ≠ fn → drops true (hostErr fn true 1 0x4170 (8 * r) ignored))
       ∧ (x.fn = fn → x.st ≠ .enabled → drops true ignored)
       ∧ (x.completion = true → x.st = .enabled → x.sinceIrq ≠ 0 → x.irqTime ≠ 0 →
         exec (.irqTime r) s = .next (ringSignal r (timeTo (x.firstAt + 1000 * x.irqTime) s))))

/-! ### The host's window, cache maintenance and registers (17 R419 to R436) -/

/-- 17 R436: a GO on an idle SV_CMO whose range and pages pass starts its operation; the first failure puts STATE to Error with its code,
0x2130 for the range, that of R423 for a page; a GO while Busy is dropped with 0x2131. 17 R436, 03 R75: at its end the operation has been
run over its DPAs, STATE is Done with the counts, and CMO_DONE is set. -/
def Obligations.CacheMaintenance : Prop :=
  (∀ (fn : Nat) (tag : BitVec 32) (s : State), fn < 64 → hostUp s = true →
     let c := (getFn s fn).cmo
     let d := windowDpa s fn c.base.toNat
     let n := c.lines.toNat
     let set := fun (op : Nat) (code st : Nat) (run : Option (Nat × Nat)) => modFn fn (fun h => { h with cmo :=
       { h.cmo with tag := tag, op := op, code := code, st := st, written := 0, dropped := 0, run := run } }) s
     let goes := fun (i : Instr) (op : Nat) =>
       (c.st = 1 → exec i s = .next (hostErr fn true 1 0x2131 0x20000 s))
       ∧ (c.st ≠ 1 → n = 0 ∨ 2 ^ 34 < n → exec i s = .next (set op 0x2130 3 c.run))
       ∧ (c.st ≠ 1 → 1 ≤ n → n ≤ 2 ^ 34 → ∀ k, rangeCode s fn false d (64 * n) = some k → exec i s = .next (set op k 3 c.run))
       ∧ (c.st ≠ 1 → 1 ≤ n → n ≤ 2 ^ 34 → rangeCode s fn false d (64 * n) = none → exec i s = .next (set op 0 1 (some (d, 64 * n))))
     goes (.hostFlush fn tag 0) 0 ∧ goes (.hostFlushInv fn tag 0) 1 ∧ goes (.hostInv fn tag 0) 2)
  ∧ (∀ (fn d len : Nat) (s : State), fn < 64 → (getFn s fn).cmo.run = some (d, len) →
       let c := (getFn s fn).cmo
       let r := cmoWhere c.op (fun L => decide (d ≤ 64 * L ∧ 64 * L < d + len)) s
       exec (.cmoDone fn) s = .next (hiSet fn 2 (modFn fn (fun h => { h with cmo := { h.cmo with
         st := 2, run := none, written := r.2.written, dropped := if c.op = 2 then r.2.discarded else r.2.dropped,
         code := if r.2.discarded = 0 then 0 else 0x0210 } }) r.1)))

/-- 17 R423, R425: a BAR4 write to reachable pages is merged, one with EP leaves its lines poisoned and posts 0x2162; a read returns the
bytes, or all ones with EP and 0x2211 where a line is poisoned; a refused access is dropped or reads all ones, with the code of R423's
table. 17 R423: which pages a function reaches, in the order of the table, while the stacks are powered. -/
def Obligations.WindowAccesses : Prop :=
  (∀ (fn off len : Nat) (data : List Byte) (s : State), fn < 64 → hostUp s = true →
     (barSpan s fn off data.length = true →
       (rangeCode s fn true (windowDpa s fn off) data.length = none →
         exec (.bar4Write fn off data false) s = .next (dpaHostWrite (windowDpa s fn off) (pbOf false data) s)
         ∧ exec (.bar4Write fn off data true) s = .next (hostErr fn true 2 0x2162 off
             (poisonLines (windowDpa s fn off) data.length (dpaHostWrite (windowDpa s fn off) (pbOf true data) s))))
       ∧ ∀ code ep, rangeCode s fn true (windowDpa s fn off) data.length = some code →
           exec (.bar4Write fn off data ep) s = .next (hostErr fn true 2 code off s))
     ∧ (barSpan s fn off len = true →
       (rangeCode s fn false (windowDpa s fn off) len = none →
         let r := hostRead (windowDpa s fn off) len s
         (r.2.2 = false → exec (.bar4Read fn off len) s = .next (emit (.readData fn r.2.1 false) r.1))
         ∧ (r.2.2 = true → exec (.bar4Read fn off len) s
             = .next (emit (.readData fn (List.replicate len 0xFF) true) (hostErr fn false 2 0x2211 off r.1))))
       ∧ ∀ code, rangeCode s fn false (windowDpa s fn off) len = some code →
           exec (.bar4Read fn off len) s = .next (emit (.readData fn (List.replicate len 0xFF) false) (hostErr fn false 2 code off s))))
  ∧ (∀ (fn page p : Nat) (write : Bool) (s : State), s.boot.domainsOff = false →
       let there := page < 196608 ∧ unitPresent s.units.chan (homeOf page) = true
       (196608 ≤ page → pageCode s fn write page = some 0x2101)
       ∧ (page < 196608 → unitPresent s.units.chan (homeOf page) = false → pageCode s fn write page = some 0x2102)
       ∧ (there → (∀ q, pageOwner s page ≠ .part q) → pageCode s fn write page = some 0x2160)
       ∧ (there → pageOwner s page = .part p →
         (fn ≠ 0 → fnHasRing s fn p = false → pageCode s fn write page = some 0x2160)
         ∧ (fn = 0 ∨ fnHasRing s fn p = true →
           pageCode s fn write page = if write = true ∧ pairedPage s page = true then some 0x2232 else none)))

/-- 00 R9, 17 R427 to R433: writes of the PF. W1C registers lose the flags written 1 and nothing else changes; a read-only word is not
changed by any value whose reserved bits are 0; a 1 in a reserved bit of such a word sets RSV_WRITE; SB_REQ takes the bytes; GO submits
the request in it, or counts a lost one while the mailbox is Busy. 17 R427: a write of HI_IMASK sets the mask, and a message goes out for
a set flag that it unmasks. -/
def Obligations.RegisterWrites : Prop :=
  (∀ (v : Nat) (s : State), hostUp s = true → v < 2 ^ 32 →
     let w := fun (off : Nat) => exec (.registerWrite 0 0 off 4 (BitVec.ofNat 64 v)) s
     (v < 2 ^ 8 → w 0x10 = .next (modFn 0 (fun h => { h with status := h.status &&& ~~~BitVec.ofNat 8 v,
                                                             herrValid := h.herrValid && !v.testBit 1 }) s))
     ∧ (v < 2 ^ 16 → w 0x20 = .next { s with host := { s.host with pevt := s.host.pevt &&& ~~~BitVec.ofNat 16 v } })
     ∧ (v < 2 ^ 8 → w 0x12008 = .next (modBox 1 (fun b => { b with flags := b.flags &&& ~~~BitVec.ofNat 8 v }) s))
     ∧ (v < 2 ^ 4 → w 0x20010 = .next { s with host := { s.host with thStatus := s.host.thStatus &&& ~~~BitVec.ofNat 4 v } })
     ∧ (v < 2 ^ 19 → w 0x30300 = .next { s with host := { s.host with jnEvt := s.host.jnEvt &&& ~~~BitVec.ofNat 19 v } })
     ∧ (∀ off ∈ [0, 4, 8, 0x28, 0x2C, 0x30, 0x34, 0x38, 0x3C, 0x100, 0x12010, 0x20000, 0x30000], v &&& rsvBits 0 (regAt 0 off) = 0 → w off = .next s)
     ∧ (∀ off ∈ [4, 8, 0x28, 0x12010, 0x30000], v &&& rsvBits 0 (regAt 0 off) ≠ 0 → w off = .next (rsvWrite 0 s))
     ∧ (∀ i, i < 1024 → w (0x10000 + 4 * i)
         = .next { s with sb := { s.sb with reqBuf := spWrite s.sb.reqBuf (4 * i) (leBytes v 4) } })
     ∧ (v = 1 → w 0x12000 = .next (if s.sb.host.busy then sbSet 1 1 s else latch 1 (spBytes s.sb.reqBuf 0 4096) s)))
  ∧ (∀ (fn : Nat) (v : BitVec 32) (s : State), fn < 64 → hostUp s = true → v.toNat < (if fn = 0 then 256 else 8) →
       let h := getFn s fn
       let own : BitVec 8 := if fn = 0 then 0xFF else 7
       let new := (h.imask &&& ~~~own) ||| BitVec.ofNat 8 v.toNat
       let t := modFn fn (fun h => { h with imask := new }) s
       exec (.hiImaskWrite fn v) s = .next (if h.imask &&& ~~~new &&& h.status &&& own = 0 then t else msix fn (hiVector fn) t))

/-- 17 R422: the reset of a VF answers `flrVf`. Every ring of the function that is not Absent is then in Error with code 0x4171 and keeps
no entry, and no other ring is changed; a session with an open request on such a ring is marked to end with the step in progress of its
partition, and without one its request is over at once, unless it was ending or its log is mirrored; nothing is posted and nothing goes
out. HI_STATUS [2:0], HI_IMASK, HI_HERR VALID, WRITE, BAR and CODE, the MSI-X table and the size of the VF's BAR4 have their reset values;
the CMO record, HI_HERR COUNT and the event counters are kept, and so is every other function and everything but rings, sessions and
functions. The PF has no such reset, and a clear of VF Enable resets VF 1 to 63 in turn. -/
def Obligations.FunctionLevelReset : Prop :=
  ∀ (fn : Nat) (s : State), hostUp s = true →
    (1 ≤ fn → fn < 64 →
      let u := flrVf fn s
      let h := getFn u fn
      exec (.flr fn) s = .next u
      ∧ (∀ r, (getRing s r).fn = fn → (getRing s r).st ≠ .absent →
          (getRing u r).st = .error ∧ (getRing u r).code = 0x4171 ∧ (getRing u r).backlog = [])
      ∧ (∀ r, (getRing s r).fn ≠ fn ∨ (getRing s r).st = .absent → getRing u r = getRing s r)
      ∧ (∀ n, let x := getSess s n
          x.opened = true → (getRing s x.compRing).fn = fn → (getRing s x.compRing).st ≠ .absent →
          ((getPart s x.part).step ≠ none → (getSess u n).work.cancel = true)
          ∧ ((getPart s x.part).step = none → x.mirror = false → x.work.ending = false → (getSess u n).opened = false))
      ∧ h.status.toNat % 8 = 0 ∧ h.imask = 0xFF ∧ h.herrValid = false ∧ h.herrWrite = false ∧ h.herrBar = 0 ∧ h.herrCode = 0
      ∧ h.msix = [] ∧ h.msixPend = [] ∧ h.bar4 = 9 ∧ h.cmo = (getFn s fn).cmo ∧ h.herrCount = (getFn s fn).herrCount
      ∧ h.evcnt = (getFn s fn).evcnt
      ∧ (∀ f, f ≠ fn → getFn u f = getFn s f) ∧ { u with rings := s.rings, sess := s.sess, host := s.host } = s)
    ∧ exec (.flr 0) s = .next s
    ∧ exec .vfEnableClear s = .next ((List.range 63).foldl (fun t i => flrVf (i + 1) t) s)

/-! ### Mailbox commands (14 R361 to R386) -/

/-- 14 R367: when a request arrives whose SEQ and payload equal those of the last Ready request of the same mailbox, the device does not
carry it out again: it returns the stored response, whichever command it is. -/
def Obligations.RepeatedRequestGetsStoredResponse : Prop :=
  ∀ (sub : Submission) (s : State) (q : Req) (t : State) (i : Instr) (c : Cmd), (i, c) ∈ mailCommands sub → Reaches c sub s q t →
    Repeats q t → exec i s = .next (afterRow i (placeRsp q (getBox t q.master).lastRsp t))

/-- 14 R363, R374, 13 R358, 15 R390, R391, R393: the checks that come before a command's own, in the model's order (log entry 52): the
response names the first that fails, and the command does nothing; 13 R352: the last of them finds a unit that does not answer, which the
response with 0x5230 names (log entry 84: how). 14 R364, R365: a response is Ready with its code, the request's SEQ and
opcode, the owner and what is left of the lease; the mailbox is no longer Busy, the response is stored and RSP_READY is set. -/
def Obligations.CommandChecksAndResponses : Prop :=
  (∀ (sub : Submission) (s : State) (q : Req) (t : State) (i : Instr) (c : Cmd), (i, c) ∈ mailCommands sub → TakenUp c sub s q t →
     let no := fun (code : Code) => exec i s = .next (afterRow i (respond q code [] t))
     let good := q.opcode = c.opcode ∧ q.len ≤ 4080 ∧ needLen (c.named q) ≤ q.len
     let allowed := t.sb.degraded = false ∨ c.d = true
     let classA := c.cls = 0 ∧ q.opcode = c.opcode
     (t.boot.phase = .starting → (t.boot.ifewin = false ∨ ¬classA) → no 0x5252) ∧ (t.boot.phase = .fuseFault → no 0x5251)
     ∧ (t.boot.phase = .recovery → recoveryOp q.opcode = false → no 0x5250)
     ∧ (startCode t q.opcode (c.cls == 0 && q.opcode == c.opcode) = none →
       (¬good → no 0x5100) ∧ (good → holds t q c.cls = false → no 0x5110)
       ∧ (good → holds t q c.cls = true → ¬allowed → no 0x5202)
       ∧ (good → holds t q c.cls = true → allowed → resvBad c q = true → no 0x5102)
       ∧ (good → holds t q c.cls = true → allowed → resvBad c q = false → c.opcode ≠ 0x020E → ∀ p, c.part q = some p → partBusy t p = true →
           no 0x5121)
       ∧ (good → holds t q c.cls = true → allowed → resvBad c q = false → (∀ p, c.part q = some p → partBusy t p = false ∨ c.opcode = 0x020E) →
           ∀ e, wedgedUnit c q t = some e → exec i s = .next (afterRow i (respond q 0x5230 (unitName (some e)) t)))))
  ∧ (∀ (q : Req) (code : Code) (pay : List Byte) (s : State), q.master = 1 ∨ q.master = 2 ∨ q.master = 3 →
       let x := getBox (respond q code pay s) q.master
       x.busy = false ∧ x.rsp.rstate = 2 ∧ x.rsp.code = code ∧ x.rsp.seq = q.seq ∧ x.rsp.opcode = q.opcode ∧ x.rsp.owner = ownerKind s
       ∧ x.rsp.leaseMs = leaseMs s ∧ x.rsp.payload = pay ∧ x.rsp.degraded = s.sb.degraded ∧ x.last = q.raw ∧ x.lastRsp = x.rsp
       ∧ x.flags.getLsbD 0 = true ∧ (respond q code pay s).lock = s.lock ∧ (respond q code pay s).parts = s.parts
       ∧ (respond q code pay s).cores = s.cores ∧ (respond q code pay s).mem = s.mem)

/-- 14 R371 to R373, R376: STATUS answers the ownership state; CLAIM takes an Unowned device unless a master of higher priority claims in
the same cycle, is repeated by the owner and taken by the master offered to, and is else refused with 0x5111; RENEW only renews. 14 R371:
who owns the device after a claim was carried out, and for how long (R373). -/
def Obligations.StatusClaimRenew : Prop :=
  (∀ (sub : Submission) (s : State) (q : Req) (t : State),
     let ok := fun (c : Instr) (u : State) => exec c s = .next (respond q 0 (statusPayload q.master u) u)
     let mine := t.lock.st ≠ .unowned ∧ t.lock.owner = q.master
     let offered := t.lock.st = .offered ∧ t.lock.owner ≠ q.master ∧ t.lock.offerTo = q.master
     (Served cmdOwnStatus sub s q t → ok (.ownStatus sub) t)
     ∧ (Served cmdRenew sub s q t → ok (.renew sub) t)
     ∧ (Served cmdClaim sub s q t →
       (t.lock.st = .unowned → outranked t q.master = false → ok (.claim sub) (takeOwner q.master t))
       ∧ (t.lock.st = .unowned → outranked t q.master = true → exec (.claim sub) s = .next (respond q 0x5111 [] t))
       ∧ (mine → ok (.claim sub) t) ∧ (offered → ok (.claim sub) (takeOwner q.master t))
       ∧ (t.lock.st ≠ .unowned → ¬mine → ¬offered → exec (.claim sub) s = .next (respond q 0x5111 [] t))))
  ∧ (∀ (m : Nat) (s : State), m = 1 ∨ m = 2 ∨ m = 3 →
       let u := takeOwner m s
       u.lock.st = .owned ∧ u.lock.owner = m ∧ u.lock.leaseEnd = s.ftime + 5000000000 ∧ u.lock.warned = false
       ∧ (∀ k, k = 1 ∨ k = 2 ∨ k = 3 → (getBox u k).flags.getLsbD 4 = true)
       ∧ u.parts = s.parts ∧ u.cores = s.cores ∧ u.mem = s.mem ∧ u.cfg = s.cfg ∧ u.sess = s.sess)

/-- 14 R370 to R372, R376: the other commands of OWN. HANDOVER offers for one second or withdraws, RELEASE leaves the device Unowned,
CLEAR clears the master's own flags, POLICY sets a permutation and the fabric manager's rights, RESET asks for a warm or a cold start. 14
R361, R369, R371, R373: the Interlocking's own events. LEASE_WARN one second before the lease ends, the end of the lease, the end of an
offer nobody took, and the discard of an incomplete request, which is counted as lost. -/
def Obligations.OwnershipChanges : Prop :=
  (∀ (sub : Submission) (s : State) (q : Req) (t : State),
     let ok := fun (c : Instr) (pay : List Byte) (u : State) => exec c s = .next (respond q 0 pay u)
     let no := fun (c : Instr) (code : Code) => exec c s = .next (respond q code [] t)
     (Served cmdHandover sub s q t →
       let offer := ownChange 0x0522 { t with lock := { t.lock with st := .offered, offerTo := q.f 0 1, offerEnd := t.ftime + 1000000000 } }
       (1 ≤ q.f 0 1 → q.f 0 1 ≤ 3 → q.f 0 1 ≠ t.lock.owner → ok (.handover sub) (statusPayload q.master offer) offer)
       ∧ (q.f 0 1 = 0 → t.lock.st = .offered → ok (.handover sub) (statusPayload q.master (offerOver t)) (offerOver t))
       ∧ (q.f 0 1 = 0 → t.lock.st ≠ .offered → ok (.handover sub) (statusPayload q.master t) t)
       ∧ (3 < q.f 0 1 ∨ (q.f 0 1 ≠ 0 ∧ q.f 0 1 = t.lock.owner) → no (.handover sub) 0x5101))
     ∧ (Served cmdRelease sub s q t → ok (.release sub) [] (unowned 0x0520 t))
     ∧ (Served cmdOwnClear sub s q t → q.f 0 4 < 256 →
       let u := modBox q.master (fun x => { x with flags := x.flags &&& ~~~BitVec.ofNat 8 (q.f 0 4) }) t
       ok (.ownClear sub) (leBytes (getBox u q.master).flags.toNat 4) u)
     ∧ (Served cmdPolicy sub s q t → q.f 0 1 < 64 → q.f 1 1 < 4 →
       let new : Policy := { prio := BitVec.ofNat 6 (q.f 0 1), fabToFm := tbit (q.f 1 1) 0, fmAny := tbit (q.f 1 1) 1, fmId := BitVec.ofNat 16 (q.f 2 2) }
       (sortNat [fld (q.f 0 1) 1 0, fld (q.f 0 1) 3 2, fld (q.f 0 1) 5 4] = [1, 2, 3] →
         ok (.policy sub) [] { t with cfg := { t.cfg with policy := new } })
       ∧ (sortNat [fld (q.f 0 1) 1 0, fld (q.f 0 1) 3 2, fld (q.f 0 1) 5 4] ≠ [1, 2, 3] → no (.policy sub) 0x5101))
     ∧ (Served cmdOwnReset sub s q t → q.f 0 1 < 2 →
       let u := if q.force then cutAll t else t
       (q.force = true ∨ activeParts t = [] → ok (.ownReset sub) []
         { u with boot := { u.boot with resetPending := some (if q.f 0 1 = 0 then (.warm, 4) else (.cold, 5)) } })
       ∧ (q.force = false → activeParts t ≠ [] → no (.ownReset sub) 0x5123)))
  ∧ (∀ (s : State) (ident : Nat),
       (s.lock.st ≠ .unowned → s.lock.warned = false → exec .leaseWarn s = .next (sbSet s.lock.owner 5
         (timeTo (s.lock.leaseEnd - 1000000000) { s with lock := { s.lock with warned := true } })))
       ∧ (s.lock.st ≠ .unowned → ∃ u, exec .leaseExpired s = .next u ∧ u.lock = {} ∧ s.lock.leaseEnd ≤ u.ftime
           ∧ (∀ k, k = 1 ∨ k = 2 ∨ k = 3 → (getBox u k).flags.getLsbD 4 = true) ∧ u.parts = s.parts ∧ u.sess = s.sess ∧ u.mem = s.mem)
       ∧ (s.lock.st = .offered → ∃ u, exec .handoverTimeout s = .next u ∧ u.lock.st = .owned ∧ u.lock.owner = s.lock.owner ∧ u.lock.offerTo = 0)
       ∧ (s.cfg.policy.fmAny = true ∨ s.cfg.policy.fmId.toNat = ident → exec (.mgmtRequestDiscard ident) s = .next (sbSet 3 1 s)))

/-- 14 R377, R378: the PART commands of units, parameters, rows and pages, when their checks find nothing. 07 R194, R195, R198, 08 R211:
MAP installs all its entries or none; UNMAP waits for the kernel and the SCUs and then takes the entries away; KV_POOL adds and removes
Pinned pages that are mapped as R211 says. 03 R462: a returned page is filled in its turn. 01 R19: neither ends while the Signal Box
restarts. -/
def Obligations.PartitionMakeUp : Prop :=
  (∀ (sub : Submission) (s : State) (q : Req) (t : State),
     let p := q.f 0 1
     let pt := getPart t p
     let ok := fun (c : Instr) (u : State) => exec c s = .next (respond q 0 [] u)
     let cs := q.units 8 18
     let ss := q.units 32 8
     let hs := q.units 40 32
     let had := cs ≠ [] ∧ ss ≠ [] ∧ unavailable t p t.units.core (·.cores) cs = false ∧ unavailable t p t.units.slice (·.slices) ss = false
       ∧ unavailable t p t.units.chan (·.chans) hs = false
     (Served cmdPartCreate sub s q t → p < 16 → pt.st = .absent → had →
       ok (.partCreate sub) (setUnits p cs ss hs (modPart p (fun _ => { st := .empty }) t)))
     ∧ (Served cmdPartUnits sub s q t → p < 16 → pt.st = .empty ∨ pt.st = .drained → had →
         (∀ g ∈ pinnedOn t p (pt.chans.filter (fun c => !mem c hs)), mem g pt.pool = true) → ok (.partUnits sub) (setUnits p cs ss hs t))
     ∧ (Served cmdPartDestroy sub s q t → p < 16 → pt.st = .empty → ownedPages t p = [] → sessOf t p = [] →
         ok (.partDestroy sub) (scuDomains pt.chans (freeShares pt.chans (modPart p (fun _ => {}) (breakGroupsOf p t)))))
     ∧ (Served cmdParam sub s q t → p < 16 → pt.st = .empty ∨ pt.st = .drained → paramRange t p (q.f 1 1) (q.f 8 8) = true →
         featureBlocks t p (q.f 1 1) (q.f 8 8) = false → ok (.param sub) (paramEffect p (q.f 1 1) (q.f 8 8) t))
     ∧ (Served cmdShare sub s q t → p < 16 → pt.st ≠ .absent → 2 ≤ q.f 2 1 → q.f 2 1 ≤ 12 → mem (q.f 1 1) pt.chans = true →
         ok (.share sub) (modChan (q.f 1 1) (fun x => { x with sigma := q.f 2 1 }) t))
     ∧ (Served cmdRowMode sub s q t → 16 ≤ q.f 0 2 → q.f 0 2 ≤ 767 → q.f 2 1 ≤ 1 → rowOwned t (q.f 0 2) = false →
         ok (.rowMode sub) (fillRow (q.f 0 2) { t with mem := { t.mem with
           rowMode := spSet .spread t.mem.rowMode (q.f 0 2) (if q.f 2 1 = 0 then .spread else .pinned) } }))
     ∧ (Served cmdPages sub s q t → p < 16 → pt.st ≠ .absent → 1 ≤ q.f 2 2 → q.f 2 2 ≤ 1019 →
         let gs := dedup (q.list 4 4 (q.f 2 2))
         (q.f 1 1 = 0 → (∀ g ∈ gs, cannotTake t p g = false) → ok (.pages sub) (gs.foldl (fun u g => setOwner g (.part p) u) t))
         ∧ (q.f 1 1 = 1 → (∀ g ∈ gs, pageOwner t g = .part p ∧ pageInUse pt g = false) →
           ok (.pages sub) (returnPages gs (modPart p (fun x => { x with weights := x.weights.filter (fun g => !mem g gs) }) t))))
     ∧ ∀ page, page < 196608 →
         (nextFill s page = true → s.sb.restarting = false →
           exec (.pageFreed page) s = .next (fillPage page { s with mem := { s.mem with filling := s.mem.filling.filter (· != page) } }))
         ∧ (nextFill s page = false ∨ s.sb.restarting = true → exec (.pageFreed page) s = .next s))
  ∧ (∀ (sub : Submission) (s : State) (q : Req) (t : State),
       let p := q.f 0 1
       let pt := getPart t p
       let ok := fun (c : Instr) (u : State) => exec c s = .next (respond q 0 [] u)
       (Served cmdMap sub s q t → p < 16 → pt.st ≠ .absent → 1 ≤ q.f 2 2 → q.f 2 2 ≤ 254 →
         let l := (List.range (q.f 2 2)).map (fun i => (q.f (16 + 16 * i) 8, BitVec.ofNat 64 (q.f (24 + 16 * i) 8)))
         (∀ tab, mapAll t p l pt.ptab = some tab → ok (.map sub) (modPart p (fun x => { x with ptab := tab }) t))
         ∧ (mapAll t p l pt.ptab = none → exec (.map sub) s = .next (respond q 0x5140 [] t)))
       ∧ (Served cmdUnmap sub s q t → p < 16 → pt.st ≠ .absent → 1 ≤ q.f 2 2 → q.f 2 2 ≤ 509 → t.sb.ops.length < 16 →
         let vas := q.list 8 8 (q.f 2 2)
         (∀ v ∈ vas, v % 0x10000 = 0 ∧ v < 2 ^ 40 ∧ poolEntry pt v = false
           ∧ (pt.st = .empty ∨ pt.st = .drained ∨ inAreas pt.params v = false)) →
         exec (.unmap sub) s = .next (startOp q (some p) [] (modPart p (fun x => { x with unmapping := true, unmapVas := vas }) t)))
       ∧ (∀ p, p < 16 → (getPart s p).unmapping = true →
         ((getPart s p).kernel = none → scuBusy s p = false → s.sb.restarting = false →
           exec (.unmapDone p) s = .next (endOps p 0x0209 0 (modPart p unmapPart s)))
         ∧ ((getPart s p).kernel ≠ none ∨ scuBusy s p = true ∨ s.sb.restarting = true → exec (.unmapDone p) s = .next s))
       ∧ (Served cmdKvPool sub s q t → p < 16 → pt.st ≠ .absent → 1 ≤ q.f 2 2 → q.f 2 2 ≤ 1019 →
         let gs := dedup (q.list 4 4 (q.f 2 2))
         (q.f 1 1 = 0 → (∀ g ∈ gs, pageOwner t g = .part p ∧ mem g pt.pool = false ∧ pagePinned t g = true ∧ poolMapped pt.ptab g = true) →
           ok (.kvPool sub) (modPart p (fun x => { x with pool := x.pool ++ gs }) t))
         ∧ (q.f 1 1 = 1 → (∀ g ∈ gs, mem g pt.pool = true ∧ poolFree pt g = true) →
           ok (.kvPool sub) (modPart p (fun x => { x with pool := x.pool.filter (fun g => !mem g gs) }) t))))

/-- 09 R246, R247, 05 R141, R142: the states of a partition. START serves with the image chosen, DRAIN begins a drain or ends a halt,
DRAIN_DONE ends it, RESUME serves again, ABORT stops everything, STATUS answers the summary and the records. 05 R142: after an abort the
partition is Halted, without kernel or step, and the SCUs run nothing of it. -/
def Obligations.PartitionStates : Prop :=
  (∀ (sub : Submission) (s : State) (q : Req) (t : State),
     let p := q.f 0 1
     let pt := getPart t p
     let ok := fun (c : Instr) (pay : List Byte) (u : State) => exec c s = .next (respond q 0 pay u)
     (Served cmdPartStart sub s q t → p < 16 → pt.st = .drained → t.boot.domainsOff = false → startable t pt = true →
       ∀ i u, chooseImage t pt = some i → placeDirs p t = some u →
         ok (.partStart sub) (leBytes i 1) (modPart p (fun x => { x with st := .serving, imageUse := i }) u))
     ∧ (Served cmdPartDrain sub s q t → p < 16 → q.f 1 1 ≤ 1 → t.sb.ops.length < 16 →
       let cut := q.f 1 1 == 1
       (pt.st = .serving → exec (.partDrain sub) s = .next (startOp q (some p) [] (beginDrain p cut t)))
       ∧ (pt.st = .halted → exec (.partDrain sub) s = .next (startOp q (some p) []
           (modPart p (fun x => { x with st := .drained }) (if cut then retryAll p 0x4120 (breakGroupsOf p t) else t)))))
     ∧ (∀ p, p < 16 → drainOver s p = true →
       exec (.drainDone p) s = .next (endOps p 0x020C 0 (proceedOuts p (modPart p (fun x => { x with st := .drained, drainCut := false }) s))))
     ∧ (Served cmdPartResume sub s q t → p < 16 → pt.st = .halted → t.boot.domainsOff = false →
         ok (.partResume sub) [] (modPart p (fun x => { x with st := .serving }) t))
     ∧ (Served cmdPartAbort sub s q t → p < 16 → pt.st ≠ .absent → pt.st ≠ .empty → ok (.partAbort sub) [] (abortPart p t))
     ∧ (Served cmdPartStatus sub s q t → p < 16 → pt.st ≠ .absent → 1 ≤ q.f 6 2 → q.f 6 2 ≤ 63 →
       (q.f 1 1 = 0 → ok (.partStatus sub) (partSummary t p) t)
       ∧ (q.f 1 1 = 1 → ok (.partStatus sub) (recPayload (((pt.haltRecs.map HaltRec.toNat).drop (q.f 4 2)).take (q.f 6 2))) t)
       ∧ (q.f 1 1 = 2 → ok (.partStatus sub) (recPayload (((pt.stepRecs.map StepRec.toNat).drop (q.f 4 2)).take (q.f 6 2))) t)))
  ∧ (∀ (p : Nat) (s : State), spWf ({} : Chan) s.chans = true →
       let u := abortPart p s
       (getPart u p).st = .halted ∧ (getPart u p).kernel = none ∧ (getPart u p).step = none ∧ scuBusy u p = false
       ∧ ∀ n ks, (getPart s p).kernel = some ks → n ∈ ks.cores → (getCore u n).me.queue = [] ∧ (getCore u n).ve.queue = []
           ∧ (getCore u n).mv.queue = [] ∧ (getCore u n).tt.queue = [] ∧ (getCore u n).mode = .halted)

/-- 14 R379, 06 R174, 03 R67: LOAD starts when its partition is Empty and its fields are in range, and its end accepts the images or names
the code that rejects them (the Siding goes off with a model of acoustic features: log entry 127); UNLOAD empties the partition, RETAIN sets or clears the attribute, INFO answers the payload as accepted. 12
R338, R339: MIRROR pairs weight pages that R338 allows, or is refused with 0x2232; its end copies each primary into its mirror, or clears
the pairs; RELOADED takes a page off the list of those to reload. 01 R19: no load or mirror ends while the Signal Box restarts. -/
def Obligations.ModelCommands : Prop :=
  (∀ (sub : Submission) (s : State) (q : Req) (t : State),
     let p := q.f 0 1
     let pt := getPart t p
     (Served cmdModelLoad sub s q t → p < 16 → pt.st = .empty → 1 ≤ q.f 1 1 → q.f 1 1 ≤ 4 → q.f 2 1 ≤ 1 → 1 ≤ q.f 16 4 → q.f 16 4 ≤ 262144 →
       t.boot.domainsOff = false →
       (loadGeomBad q = true → exec (.modelLoad sub) s = .next (respond q 0x4201 [] t))
       ∧ (loadGeomBad q = false → t.sb.ops.length < 16 →
         exec (.modelLoad sub) s = .next (startOp q (some p) [] (modPart p (fun x => { x with loading := some (padTo 96 q.pay) }) t))))
     ∧ (∀ (p : Nat) (ws : List Nat) (pay : List Byte), p < 16 → (getPart s p).loading = some pay → s.sb.restarting = true →
       exec (.modelLoadDone p ws) s = .next s)
     ∧ (∀ (p : Nat) (ws : List Nat) (pay : List Byte) (u : State), p < 16 → (getPart s p).loading = some pay → s.sb.restarting = false →
       let free := modPart p (fun x => { x with loading := none }) s
       (readImages p pay free = (u, none) → exec (.modelLoadDone p ws) s = .next (endOps p 0x0301 0x1170 u))
       ∧ ∀ ds, readImages p pay free = (u, some ds) →
         (∀ c, lowest (ds.filterMap imageCode) = some c → exec (.modelLoadDone p ws) s = .next (endOps p 0x0301 c u))
         ∧ ((∀ d ∈ ds, imageCode d = none) → ∀ c, lowest (fitCodes u (getPart u p) ds) = some c →
             exec (.modelLoadDone p ws) s = .next (endOps p 0x0301 c u))
         ∧ ((∀ d ∈ ds, imageCode d = none) → fitCodes u (getPart u p) ds = [] →
             exec (.modelLoadDone p ws) s = .next (endOps p 0x0301 (if ds.any skipped then 0x0111 else 0)
               (scuDomains (getPart u p).chans (modPart p (fun x => { x with
                 st := .drained, model := some (loadedModel pay ds),
                 params := { x.params with siding := x.params.siding && !(loadedModel pay ds).features },
                 imageUse := 0, stepNo := 0, launches := 0, weights := weightsOf u p ws }) u)))))
     ∧ (Served cmdModelUnload sub s q t → p < 16 → pt.st = .drained → sessOf t p = [] →
       exec (.modelUnload sub) s = .next (respond q 0 [] (scuDomains pt.chans
         (modPart p (fun x => { x with st := .empty, model := none, weights := [], repair := [], reload := [] }) t))))
     ∧ (Served cmdRetain sub s q t → p < 16 → pt.st ≠ .absent → 1 ≤ q.f 2 2 → q.f 2 2 ≤ 1019 →
       let gs := q.list 4 4 (q.f 2 2)
       let rest := t.mem.retained.filter (fun g => !mem g gs)
       (∀ g ∈ gs, pageOwner t g = .part p) →
       (q.f 1 1 = 1 → exec (.retain sub) s = .next (respond q 0 [] { t with mem := { t.mem with retained := sortNat (rest ++ dedup gs) } }))
       ∧ (q.f 1 1 = 0 → exec (.retain sub) s = .next (respond q 0 [] { t with mem := { t.mem with retained := rest } })))
     ∧ (Served cmdModelInfo sub s q t → p < 16 → pt.st ≠ .absent →
       exec (.modelInfo sub) s = .next (respond q 0 ((pt.model.map (·.payload)).getD (List.replicate 96 0)) t)))
  ∧ (∀ (sub : Submission) (s : State) (q : Req) (t : State),
       let p := q.f 0 1
       let pt := getPart t p
       (Served cmdModelMirror sub s q t → p < 16 → pt.st ≠ .absent → 1 ≤ q.f 2 2 → q.f 2 2 ≤ 509 → t.sb.ops.length < 16 →
         let ps := (List.range (q.f 2 2)).map (fun i => (q.f (8 + 8 * i) 4, q.f (12 + 8 * i) 4))
         (∀ e ∈ ps, pageOwner t e.1 = .part p ∧ pageOwner t e.2 = .part p) →
         let starts := fun (pair : Bool) => exec (.modelMirror sub) s
           = .next (startOp q (some p) [] (modPart p (fun x => { x with mirroring := some (pair, ps) }) t))
         let good := (∀ e ∈ ps, pairOk t p e = true) ∧ hasRepeat (ps.flatMap (fun e => [e.1, e.2])) = false
         (q.f 1 1 = 0 → good → starts true) ∧ (q.f 1 1 = 1 → starts false)
         ∧ (q.f 1 1 = 0 → ¬good → exec (.modelMirror sub) s = .next (respond q 0x2232 [] t)))
       ∧ (∀ (p : Nat) (ps : List (Nat × Nat)), p < 16 → s.sb.restarting = false →
         let free := modPart p (fun x => { x with mirroring := none }) s
         ((getPart s p).mirroring = some (true, ps) →
           exec (.mirrorDone p) s = .next (endOps p 0x0304 0 (ps.foldl (fun u e => addMirror e u) free)))
         ∧ ((getPart s p).mirroring = some (false, ps) → exec (.mirrorDone p) s = .next (endOps p 0x0304 0
             { free with mem := { free.mem with mirrors := free.mem.mirrors.filter (fun e => !ps.any (· == e)) } })))
       ∧ (Served cmdReloaded sub s q t → p < 16 → pt.st ≠ .absent → mem (q.f 4 4) pt.reload = true →
         exec (.reloaded sub) s = .next (respond q 0 [] (modPart p (fun x => { x with reload := x.reload.filter (· != q.f 4 4) }) t))))

/-- 09 R249, 14 R380: the first SET of a tenant sets BAL to BURST at once, a later one waits for the boundary; STATUS answers a tenant or
a ring. 09 R238, R239, 14 R380: a ring is created Disabled with its attributes, enabled with its counts at 0, disabled unless work still
needs it, and destroyed. -/
def Obligations.TenantAndRingCommands : Prop :=
  (∀ (sub : Submission) (s : State) (q : Req) (t : State),
     let n := q.f 0 2
     (Served cmdTenSet sub s q t → n < 4096 → q.f 8 8 < 2 ^ 63 → q.f 16 8 < 2 ^ 63 →
       ∃ u, exec (.tenSet sub) s = .next (respond q 0 [] u) ∧ { u with tens := t.tens } = t
         ∧ (∀ m, m ≠ n → getTen u m = getTen t m) ∧ (getTen u n).wasSet = true
         ∧ (getTen u n).slack = q.f 24 4 ∧ (getTen u n).kvGuar = q.f 28 4
         ∧ ((getTen t n).wasSet = false → (getTen u n).rate = q.f 8 8 ∧ (getTen u n).burst = q.f 16 8 ∧ (getTen u n).bal = q.f 16 8)
         ∧ ((getTen t n).wasSet = true → (getTen u n).next = some (q.f 8 8, q.f 16 8) ∧ (getTen u n).bal = (getTen t n).bal
             ∧ (getTen u n).rate = (getTen t n).rate ∧ (getTen u n).burst = (getTen t n).burst))
     ∧ (Served cmdTenStatus sub s q t → let m := q.f 2 2
       (q.f 0 1 = 0 → m < 4096 → exec (.tenStatus sub) s = .next (respond q 0 (tenPayload m (getTen t m)) t))
       ∧ (q.f 0 1 = 1 → m < 16384 → exec (.tenStatus sub) s = .next (respond q 0 (ringPayload m (getRing t m)) t))))
  ∧ (∀ (sub : Submission) (s : State) (q : Req) (t : State),
       let r := q.f 0 2
       let x := getRing t r
       let y := ringOf q x
       let ok := fun (c : Instr) (u : State) => exec c s = .next (respond q 0 [] u)
       (Served cmdRingCreate sub s q t → r < 16384 → (getPart t y.part).st ≠ .absent → x.st = .absent ∨ x.st = .disabled →
         ringFieldBad t q y = false →
         y.completion = true ∨ (∀ g ∈ ringPages y, pageOwner t g = .part y.part ∧ pagePinned t g = false) →
         ok (.ringCreate sub) (modRing r (ringOf q) t))
       ∧ (Served cmdRingEnable sub s q t → r < 16384 → x.st = .disabled ∨ x.st = .error →
         (x.completion = true ∨ (getRing t x.pair).st = .enabled → ok (.ringEnable sub) (flushBacklog r (modRing r freshRing t)))
         ∧ (x.completion = false → (getRing t x.pair).st ≠ .enabled → exec (.ringEnable sub) s = .next (respond q 0x5132 [] t)))
       ∧ (Served cmdRingDisable sub s q t → r < 16384 → x.st ≠ .absent →
         (x.completion = false ∨ ringInUse t r = false →
           ok (.ringDisable sub) (dropBacklog r (modRing r (fun x => { x with st := .disabled }) t)))
         ∧ (x.completion = true → ringInUse t r = true → exec (.ringDisable sub) s = .next (respond q 0x5132 [] t)))
       ∧ (Served cmdRingDestroy sub s q t → r < 16384 → x.st = .disabled →
         ok (.ringDestroy sub) (modRing r (fun x => { ignored := x.ignored }) t)))

/-- 09 R233 to R236, 14 R381: OPEN makes a session Idle, CLOSE frees one without an open request, SETTINGS takes the settings of a session
at rest, READ and LOG answer the entry and the log. 13 R349: ADOPT asks the buddy for the copies, or is refused with 0x3110 where no path
leads there (11 R295); its end adopts each pair whose session
is Free and whose copy is held and of the partition's model, and names in DETAIL the pairs adopted; its code is 0 only when all were. -/
def Obligations.SessionCommands : Prop :=
  (∀ (sub : Submission) (s : State) (q : Req) (t : State),
     let n := q.f 0 2
     let x := getSess t n
     let p := q.f 2 1
     (Served cmdSessOpen sub s q t → q.f 3 1 ≤ 3 → p < 16 → q.f 4 2 < 4096 → 64 ≤ q.f 8 4 → q.f 8 4 ≤ 1048576 → x.st = .free →
       (getPart t p).st ≠ .absent → reserveFits t (q.f 8 4) = true → (dirDue t p = false ∨ dirPlace t p ≠ none) →
       let y := { freshSess n p (q.f 4 2) (q.f 8 4) with draft := tbit (q.f 3 1) 0, penInput := tbit (q.f 3 1) 1, link := q.f 6 2 }
       let u := modSess n (fun _ => y) t
       exec (.sessOpen sub) s = .next (respond q 0 (leBytes y.logPtr 8 ++ leBytes y.penPtr 8) (if dirDue t p then placeDir p n u else u)))
     ∧ (Served cmdSessClose sub s q t → x.st ≠ .free →
       (x.opened = false → exec (.sessClose sub) s = .next (respond q 0 [] (closeSess n t)))
       ∧ (x.opened = true → exec (.sessClose sub) s = .next (respond q 0x4104 [] t)))
     ∧ (Served cmdSettings sub s q t → otherBits (q.f 16 256) = false →
       let rest := x.st = .idle ∨ (x.st = .sided ∧ x.opened = false)
       (rest → settingsBad t (withSettings (q.f 16 256) x) = false →
         exec (.settings sub) s = .next (respond q 0 [] (mirrorSet n x.mirror (modSess n (withSettings (q.f 16 256)) t))))
       ∧ (¬rest ∨ settingsBad t (withSettings (q.f 16 256) x) = true → exec (.settings sub) s = .next (respond q 0x4140 [] t)))
     ∧ (Served cmdSessRead sub s q t →
       exec (.sessRead sub) s = .next (respond q 0 (leBytes x.toNat 256 ++ leBytes x.committed 4 ++ leBytes x.keep 4) t))
     ∧ (Served cmdSessLog sub s q t → 1 ≤ q.f 8 2 → q.f 8 2 ≤ 1016 →
       let l := (x.log.drop (q.f 4 4)).take (q.f 8 2)
       exec (.sessLog sub) s = .next (respond q 0 (leBytes l.length 2 ++ List.replicate 14 0 ++ l.flatMap (fun e => leBytes e 4)) t)))
  ∧ (∀ (sub : Submission) (s : State) (q : Req) (t : State),
       (Served cmdAdopt sub s q t → 1 ≤ q.f 2 1 → q.f 2 1 ≤ 64 → (∀ a ∈ adoptPairs q.pay, a.part < 16 ∧ a.tenant < 4096) → t.sb.ops.length < 16 →
         (canSend t (q.f 0 2) = true → exec (.adopt sub) s = .next (startOp q none q.pay (sendTo 3 "adopt" (q.f 0 2) [] q.pay [] t)))
         ∧ (canSend t (q.f 0 2) = false → exec (.adopt sub) s = .next (respond q 0x3110 [] t)))
       ∧ ∀ (op : Nat) (o : LongOp) (copies : List AdoptCopy), s.sb.ops.find? (fun o => o.op == op && o.opcode == 0x0506) = some o →
         let ps := adoptPairs o.arg
         let r := ((List.range ps.length).zip ps).foldl (fun (u : State × Nat) e => match copies[e.1]? with
           | some c => if adoptOk u.1 e.2 c then (adoptOne ps e.2 c u.1, u.2 + 2 ^ e.1) else u
           | none => u) (s, 0)
         exec (.adoptDone op copies) s = .next (opDone o (if r.2 + 1 = 2 ^ ps.length then 0 else 0x4160) (BitVec.ofNat 256 r.2) r.1))

/-- 14 R382, 16 R409, R417: the TEL commands answer pieces of the report, sensor and event records, and set the package limit between 500
W and the fused one. -/
def Obligations.TelemetryCommands : Prop :=
  ∀ (sub : Submission) (s : State) (q : Req) (t : State),
    let x := getBox t q.master
    (Served cmdFloorplan sub s q t → let piece := (t.report.drop (q.f 0 4)).take 4064
      exec (.floorplan sub) s = .next (respond q 0 (leBytes t.report.length 4 ++ leBytes piece.length 4 ++ List.replicate 8 0 ++ piece) t))
    ∧ (Served cmdSensors sub s q t → q.f 0 1 ≤ 4 →
      let l := ((sensorRecords t (q.f 0 1)).drop (q.f 4 4)).take (4064 / sensorSize (q.f 0 1))
      exec (.sensors sub) s = .next (respond q 0 (leBytes l.length 2 ++ List.replicate 14 0 ++ l.flatten) t))
    ∧ (Served cmdTelEvents sub s q t → 1 ≤ q.f 8 1 → q.f 8 1 ≤ 63 →
      let oldest := (x.events.head?.map (·.evtSeq)).getD (x.evtSeq + 1)
      let l := (x.events.filter (fun e => decide (q.f 0 8 ≤ e.evtSeq))).take (q.f 8 1)
      exec (.telEvents sub) s = .next (respond q 0 (leBytes oldest 8
        ++ [BitVec.ofNat 8 l.length, BitVec.ofNat 8 (b2n (decide (q.f 0 8 < oldest)))] ++ List.replicate 6 0
        ++ l.flatMap (fun e => leBytes e.toNat 64)) t))
    ∧ (Served cmdPowerLimit sub s q t →
      (500 ≤ q.f 0 2 → q.f 0 2 ≤ fusedWatts t →
        exec (.powerLimit sub) s = .next (respond q 0 [] { t with cfg := { t.cfg with powerLimit := some (q.f 0 2) } }))
      ∧ (q.f 0 2 < 500 ∨ fusedWatts t < q.f 0 2 → exec (.powerLimit sub) s = .next (respond q 0x5101 [] t)))

/-- 12 R324, R332, R333, 03 R83, 14 R383: the INT commands answer the error records and the spare rows taken, set CHK_MODE, and start
map-outs, of which those of free cores and slices proceed at once and those of channels with MAPOUT_PROCEED. -/
def Obligations.IntegrityCommands : Prop :=
  ∀ (sub : Submission) (s : State) (q : Req) (t : State),
    (Served cmdIntRecords sub s q t → 1 ≤ q.f 4 1 → q.f 4 1 ≤ 63 →
      let l := (t.sb.errRecs.filter (fun r => decide (q.f 0 4 ≤ r.seq))).take (q.f 4 1)
      exec (.intRecords sub) s = .next (respond q 0 (leBytes l.length 16 ++ l.flatMap (fun r => leBytes r.toNat 64)) t))
    ∧ (Served cmdChkMode sub s q t → q.f 0 1 ≤ 2 →
      exec (.chkMode sub) s = .next (respond q 0 [] { t with cfg := { t.cfg with chkMode := q.f 0 1 } }))
    ∧ (Served cmdMapout sub s q t → t.sb.ops.length < 16 → let n := q.f 2 1
      let starts := fun (u : State) => exec (.mapout sub) s = .next (settleFree (startOp q none (leBytes (q.f 0 1) 1 ++ leBytes n 1) u))
      (q.f 0 1 = 1 → n < 144 → unitPresent t.units.core n = true →
        starts { t with cfg := { t.cfg with pendCores := addOnce n t.cfg.pendCores } })
      ∧ (q.f 0 1 = 2 → n < 64 → unitPresent t.units.slice n = true →
        starts { t with cfg := { t.cfg with pendSlices := addOnce n t.cfg.pendSlices } })
      ∧ (q.f 0 1 = 3 → unitPresent t.units.chan n = true → starts (pendChannel n 0x2220 t)))
    ∧ (∀ c, c < 256 → mem c s.cfg.pendChannels = true → s.boot.domainsOff = false → s.sb.restarting = false → (homeOwned s c = false ∨ (getChan s c).failed = true) →
      (freeRow s = true → exec (.mapoutProceed c) s = .next (chanOut c (relay c s)))
      ∧ (freeRow s = false → exec (.mapoutProceed c) s = .next (post 0x2220 3 c s)))
    ∧ (Served cmdSpares sub s q t → exec (.spares sub) s = .next (respond q 0
        ((List.range 48).map (fun b => BitVec.ofNat 8 (spGet 0 (getChan t (q.f 0 1)).spares b))) t))

/-- 13 R356, 14 R384, 17 R440: the FW commands answer the versions, take bytes of the staged image, which is then not verified, verify its
signature, and activate it: refused with 0x5210 unless it is verified and no partition serves or drains, with 0x5211 when it has fewer
levels and no DOWN flag. -/
def Obligations.FirmwareCommands : Prop :=
  ∀ (sub : Submission) (s : State) (q : Req) (t : State),
    (Served cmdFwInfo sub s q t → exec (.fwInfo sub) s = .next (respond q 0
      (leBytes (runningImage t).version.toNat 4 ++ leBytes (stagedNum t 8 4) 4 ++ leBytes (b2n t.fw.verified) 4
        ++ leBytes (runningImage t).levels.toNat 4 ++ leBytes (stagedNum t 12 4) 4 ++ leBytes t.fw.fallback.version.toNat 4) t))
    ∧ (Served cmdStageWrite sub s q t → let off := q.f 0 4
      let data := q.pay.drop 8
      off % 8 = 0 → off < 0x4000000 → off + data.length ≤ 0x4000000 →
      exec (.stageWrite sub) s = .next (respond q 0 [] { t with fw := { t.fw with
        staged := spWrite t.fw.staged off data, stagedLen := max t.fw.stagedLen (off + data.length), verified := false } }))
    ∧ (Served cmdStageVerify sub s q t → t.sb.ops.length < 16 →
      exec (.stageVerify sub) s = .next (startOp q none (leBytes (q.f 0 4) 4) t))
    ∧ (∀ o, s.sb.ops.find? (fun o => o.opcode == 0x0803) = some o → let ok := verifies s (numAt o.arg 0 4)
      exec .stageVerifyDone s = .next (opDone o (if ok then 0 else 0x5212) 0 { s with fw := { s.fw with verified := ok } }))
    ∧ (Served cmdActivate sub s q t → let u := if q.force then cutAll t else t
      let idle := t.fw.verified = true ∧ (q.force = true ∨ activeParts t = [])
      let fewer := levelCount (stagedNum t 12 4) < levelCount (runningImage t).levels.toNat ∧ q.down = false
      (idle → ¬fewer → exec (.activate sub) s = .next (respond q 0 [] { u with boot := { u.boot with
        activating := true, resetPending := some ((if t.boot.phase = .recovery then .cold else .warm), 3) } }))
      ∧ (¬idle → exec (.activate sub) s = .next (respond q 0x5210 [] t))
      ∧ (idle → fewer → exec (.activate sub) s = .next (respond q 0x5211 [] t)))

/-- 11 R290, R293, R311, 14 R385: the FAB commands of identity, routes, time and ports. -/
def Obligations.FabricCommands : Prop :=
  ∀ (sub : Submission) (s : State) (q : Req) (t : State),
    let ok := fun (c : Instr) (u : State) => exec c s = .next (respond q 0 [] u)
    (Served cmdFabIdentity sub s q t →
      ok (.fabIdentity sub) (conflicts { t with fab := { t.fab with ident := BitVec.ofNat 16 (q.f 0 2), assigned := true } }))
    ∧ (Served cmdRoute sub s q t → 1 ≤ q.f 4 2 → q.f 4 2 ≤ 1016 → q.f 0 4 + q.f 4 2 ≤ 65536 →
      let es := (List.range (q.f 4 2)).map (fun i => (q.f 0 4 + i, q.f (8 + 4 * i) 4))
      ((∀ e ∈ es, routeBad t e.1 e.2 = false) → ok (.route sub) (lostPaths { t with fab := { t.fab with
        routes := es.foldl (fun m e => spSet 0 m e.1 (BitVec.ofNat 32 e.2)) t.fab.routes } }))
      ∧ ((∃ e ∈ es, routeBad t e.1 e.2 = true) → exec (.route sub) s = .next (respond q 0x3111 [] t)))
    ∧ (Served cmdFabTime sub s q t → q.f 0 1 ≤ 2 →
      (q.f 1 1 = 0 → ok (.fabTime sub) (takeRole (q.f 0 1) t))
      ∧ (q.f 1 1 = 1 → t.fab.timeState = 0 → t.fab.timeSet = false →
        ok (.fabTime sub) (takeRole (q.f 0 1) { t with ftime := q.f 8 8, fab := { t.fab with timeSet := true } }))
      ∧ (q.f 1 1 = 1 → t.fab.timeState ≠ 0 ∨ t.fab.timeSet = true → exec (.fabTime sub) s = .next (respond q 0x5131 [] t)))
    ∧ (Served cmdFabPort sub s q t → let p := q.f 0 1
      let set := fun (on : Bool) => modPort p (fun x => { x with enabled := on }) t
      p < 18 → unitPresent t.units.port p = true →
      (q.f 1 1 = 0 → ok (.fabPort sub) (leaveUp p .disabled (if portUp (getPort t p) then departNotices (set false) else set false)))
      ∧ (q.f 1 1 = 1 → (getPort t p).st = .disabled → unitOn t t.units.port p = true → ok (.fabPort sub) (leaveUp p .down (set true)))
      ∧ (q.f 1 1 = 1 → (getPort t p).st ≠ .disabled ∨ unitOn t t.units.port p = false → ok (.fabPort sub) (set true)))

/-- 11 R299, R300, 13 R346, R348, 14 R385: buddies, mirror regions, groups, status and events. -/
def Obligations.BuddyAndGroupCommands : Prop :=
  ∀ (sub : Submission) (s : State) (q : Req) (t : State),
    let ok := fun (c : Instr) (pay : List Byte) (u : State) => exec c s = .next (respond q 0 pay u)
    (Served cmdBuddy sub s q t → let p := q.f 0 1
      let b := if q.f 1 1 = 1 then some (q.f 2 2) else none
      p < 16 → (getPart t p).st ≠ .absent → q.f 1 1 ≤ 1 →
      (b = none ∨ (watchedSoon (modPart p (fun x => { x with buddy := b }) t)).length ≤ 4096) → ok (.buddy sub) [] (setBuddy p b t))
    ∧ (Served cmdGrant sub s q t → let src := q.f 2 2
      let sp := q.f 4 1
      let n := q.f 8 4
      sp < 16 →
      (q.f 0 1 = 0 → 1 ≤ n → n ≤ 32768 → grantOf t src sp = none → t.mem.grants.length < 64 → n ≤ (freeSpread t).length →
        let pages := (freeSpread t).take n
        let u := pages.foldl (fun u g => setOwner g .reserve u) t
        ok (.grant sub) [] { u with mem := { u.mem with grants := u.mem.grants ++ [{ src := src, spart := sp, pages := pages }] } })
      ∧ (∀ g, q.f 0 1 = 1 → grantOf t src sp = some g →
        let v := returnPages g.pages { t with mem := { t.mem with grants := t.mem.grants.filter (fun g => !(g.src == src && g.spart == sp)) } }
        ok (.grant sub) [] { v with fab := { v.fab with copies := v.fab.copies.filter (fun c => !(c.src == src && c.spart == sp)) } }))
    ∧ (Served cmdGroupForm sub s q t → let x := listSoFar q t
      let l := x.members ++ partMembers q
      (formRefused q t = true → exec (.groupForm sub) s = .next (respond q 0x3121 [] (dropList q t)))
      ∧ (formRefused q t = false → (getPart t (q.f 2 1)).st ≠ .absent → l.length < x.total →
        ok (.groupForm sub) [] (putGroup (q.f 0 2) { x with members := l } t))
      ∧ (∀ r, formRefused q t = false → (getPart t (q.f 2 1)).st ≠ .absent → l.length = x.total → ownRank t x.part l = some r →
        t.sb.ops.length < 16 →
        let y : Group := { x with
          members := l, complete := true, rank := r, level := topLevel (ownLevels t), answered := [r], dueAt := t.ftime + 1000000 * x.timeout,
          op := t.sb.opNext }
        ((watchedSoon (putGroup (q.f 0 2) y t)).length ≤ 4096 →
          exec (.groupForm sub) s = .next (startOp q none [] (tellMembers y false (putGroup (q.f 0 2) y t))))
        ∧ (4096 < (watchedSoon (putGroup (q.f 0 2) y t)).length →
          exec (.groupForm sub) s = .next (respond q 0x3124 [] (dropGroup (q.f 0 2) (tellMembers y true t))))))
    ∧ (Served cmdGroupRelease sub s q t → ∀ x, groupOf t (q.f 0 2) = some x →
      (x.st ≠ .forming ∨ x.complete = false → ok (.groupRelease sub) [] (syncPeers (dropGroup (q.f 0 2) (breakGroup (q.f 0 2) 0x3130 t))))
      ∧ (x.st = .forming → x.complete = true → exec (.groupRelease sub) s = .next (respond q 0x5131 [] t)))
    ∧ (Served cmdFabStatus sub s q t →
      (q.f 0 1 = 0 → ok (.fabStatus sub) ((List.range 18).flatMap (portStatus t)) t)
      ∧ (∀ x, q.f 0 1 = 1 → groupOf t (q.f 2 2) = some x →
        ok (.fabStatus sub) (leBytes x.st.code 1 ++ leBytes x.level 1 ++ leBytes x.rank 4 ++ leBytes x.total 4) t)
      ∧ (q.f 0 1 = 2 → ok (.fabStatus sub) (leBytes t.fab.timeState 1 ++ leBytes t.fab.stratum 1 ++ leBytes t.fab.masterId 2) t))
    ∧ (Served cmdFabEvents sub s q t → 1 ≤ q.f 8 1 → q.f 8 1 ≤ 63 →
      let l := (getBox t q.master).events.filter fabRecord
      let oldest := (l.head?.map (·.evtSeq)).getD ((getBox t q.master).evtSeq + 1)
      let out := (l.filter (fun e => decide (q.f 0 8 ≤ e.evtSeq))).take (q.f 8 1)
      ok (.fabEvents sub) (leBytes oldest 8 ++ [BitVec.ofNat 8 out.length, BitVec.ofNat 8 (b2n (decide (q.f 0 8 < oldest)))]
        ++ List.replicate 6 0 ++ out.flatMap (fun e => leBytes e.toNat 64)) t)

/-- 06 R179, 12 R326, 01 R27 to R29, 14 R386: the DIAG commands, when their checks find nothing. -/
def Obligations.DiagnosticCommands : Prop :=
  ∀ (sub : Submission) (s : State) (q : Req) (t : State),
    let ok := fun (c : Instr) (pay : List Byte) (u : State) => exec c s = .next (respond q 0 pay u)
    let n := q.f 0 1
    let c := getCore t n
    let readable := n < 144 ∧ unitPresent t.units.core n = true ∧ ∃ p, coreOwner t n = some p
      ∧ ((getPart t p).st = .halted ∨ (getPart t p).st = .drained)
    (Served cmdDiagLaunch sub s q t → n < 16 → (getPart t n).st = .drained → t.boot.domainsOff = false → q.f 16 2 ≤ 4048 → q.f 1 1 ≤ 3 →
      q.f 8 8 < 2 ^ 48 → t.sb.ops.length < 16 →
      ∀ m img, (getPart t n).model = some m → m.images[q.f 1 1]? = some img → imageFits t (getPart t n) img = true →
      (q.f 8 8 = 0 ∨ q.f 2 1 = 0xFF ∨ q.f 2 1 < img.lcores) →
      exec (.diagLaunch sub) s = .next (startOp q (some n) [] (launchKernel n img (bytesAt q.pay 32 (q.f 16 2)) true (q.f 8 8) (q.f 2 1) t)))
    ∧ (Served cmdReadStore sub s q t → readable → let a := q.f 4 4
      let len := q.f 8 2
      1 ≤ len → len ≤ 4064 → storeCode c a len = none →
      let hits := sramHits c.storeChk a len
      ok (.readStore sub) (pbData (sramBytes c.store c.storeChk a len)) (if hits.isEmpty then t
        else modCore n (fun c => { c with storeChk := sramMark c.store c.storeChk a len }) (sramErrors 7 0 n c.store hits t)))
    ∧ (Served cmdReadScoreboard sub s q t → readable →
      ok (.readScoreboard sub) ((List.range 64).flatMap (fun i => leBytes (ctr c i).toNat 4)
        ++ (List.range 4).flatMap (fun e => (List.range 64).flatMap (fun i => leBytes (spGet 0 (getEng c e).slots i).toNat 4))) t)
    ∧ (∀ pl, rawPlace t q = .ok pl → let may := t.cfg.chkMode ≠ 0 ∧ unitDrained t (placeOwner t pl) = true
      (Served cmdInject sub s q t →
        (may → ok (.inject sub) [] (injectAt pl (bytesAt q.pay 16 64) (bytesAt q.pay 80 8) t))
        ∧ (¬may → exec (.inject sub) s = .next (respond q 0x2260 [] t)))
      ∧ (Served cmdRawRead sub s q t →
        (may → ok (.rawRead sub) (rawRead pl t).2 (rawRead pl t).1) ∧ (¬may → exec (.rawRead sub) s = .next (respond q 0x2260 [] t))))
    ∧ (Served cmdDiagDomain sub s q t → let u := q.f 2 2
      let on := q.f 4 1
      n ≤ 8 → u < domainCount n → on ≤ 1 → domainByte t n u ≤ 1 → domainOwned t n u = false →
      (breaksOrder t n u on = true → exec (.diagDomain sub) s = .next (respond q 0x5133 [] t))
      ∧ (breaksOrder t n u on = false →
        ok (.diagDomain sub) [] (if domainByte t n u + on = 1 then t else unitChanged (if on = 0 then domainOff n u t else domainOn n u t))))

/-! ### Management transports (14 R361, 17 R437 to R440) -/

/-- 17 R437 to R439: the MCTP control commands on a transport that carries them, the addresses of the sideband bus, and the SPDM requests
in their order; while the Signal Box restarts every SPDM request is answered Busy. The formats are those of the standards (PRESUMED, log
entry 20). -/
def Obligations.ManagementTransports : Prop :=
  (∀ (via : Via) (s : State), heard s via = true →
    let sends := fun (i : Instr) (pay : List Byte) (t : State) => exec i s = .next (emit (.mctp via pay) t)
    (∀ op eid, op ≤ 1 → 0 < eid → eid < 255 →
      sends (.setEndpointId via op eid) [0, 0, BitVec.ofNat 8 eid, 0] { s with side := { s.side with eid := eid } })
    ∧ (∀ op eid, 1 < op ∨ eid = 0 ∨ 255 ≤ eid → sends (.setEndpointId via op eid) [2] s)
    ∧ sends (.getEndpointId via) [0, BitVec.ofNat 8 s.side.eid, 0, 0] s ∧ sends (.getEndpointUuid via) (0 :: s.fuse.uuid) s
    ∧ (∀ t, t = 0xFF ∨ t = 0 → sends (.getMctpVersionSupport via t) [0, 1, 0xF1, 0xF3, 0xFF, 0] s)
    ∧ (∀ t, t = 5 ∨ t = 0x7E → ∃ b u, sends (.getMctpVersionSupport via t) (0 :: 1 :: b) u ∧ b.length = 4 ∧ { u with free := s.free } = s)
    ∧ sends (.getMessageTypeSupport via) [0, 2, 0x05, 0x7E] s
    ∧ sends (.getVendorDefinedMessageSupport via 0) [0, 0xFF, 0, 0x1C, 0xB7, 0, 0] s)
  ∧ (∀ (s : State) (b : Bool) (st a : Nat), b = true ∨ st = 0x6A →
    exec (.i3cDynamicAddress b st a) s = .next { s with side := { s.side with i3c := some a } })
  ∧ (∀ s : State, exec .smbusLineTimeout s = .next { s with side := { s.side with i3c := none } })
  ∧ (∀ (via : Via) (s : State) (n v : Nat) (a h : BitVec 32) (l : List Byte), s.sb.restarting = true →
    ∀ i ∈ [Instr.getVersion via, .getCapabilities via v, .negotiateAlgorithms via a h, .getDigests via, .getCertificate via n v v,
      .challenge via n l, .getMeasurements via n l], exec i s = .next (spdmError via 3 s))
  ∧ ∀ (via : Via) (s : State), s.sb.restarting = false →
    let side := s.side
    let sends := fun (i : Instr) (sd : Side) => ∃ rsp, exec i s = .next (spdmSend via rsp { s with side := sd })
    let signs := fun (i : Instr) (req : List Byte) => ∃ b rsp, rsp = b ++ Config.deviceSign (sha384 (side.transcript ++ req ++ b))
      ∧ exec i s = .next (spdmSend via rsp { s with side := { side with nonces := side.nonces + 1, transcript := side.transcript ++ req ++ rsp } })
    (∃ log, sends (.getVersion via) { side with spdmVersion := 0, spdmCaps := false, spdmAlgs := false, transcript := log })
    ∧ (∀ v, side.transcript ≠ [] → v = 0x12 ∨ v = 0x13 →
      ∃ log, sends (.getCapabilities via v) { side with spdmVersion := v, spdmCaps := true, transcript := log })
    ∧ (∀ a h, side.spdmCaps = true → ∃ log, sends (.negotiateAlgorithms via a h)
        { side with spdmAlgs := decide (a &&& 0x80 ≠ 0) && decide (h &&& 2 ≠ 0), transcript := log })
    ∧ (side.spdmAlgs = true →
      (∃ log, sends (.getDigests via) { side with transcript := log })
      ∧ (∀ off len, off < s.fuse.certChain.length → ∃ log, sends (.getCertificate via 0 off len) { side with transcript := log })
      ∧ (∀ nonce, signs (.challenge via 0 nonce) ([spdmVer s, 0x83, 0, 0] ++ padTo 32 nonce))
      ∧ (∀ i nonce, i ≤ 6 ∨ i = 0xFF → signs (.getMeasurements via i nonce) ([spdmVer s, 0xE0, 1, BitVec.ofNat 8 i] ++ padTo 32 nonce)))

/-! ### The fabric (11 R284 to R312) -/

/-- 11 R284 to R289: training, its failures, the exchange of neighbour records and the neighbour's arrival, bad and retrained lanes, replays of
the codewords that a port holds, this device's own requests for a replay, and link keepalives. -/
def Obligations.JunctionPorts : Prop :=
  ∀ (p : Nat) (s : State), p < 18 →
    let x := getPort s p
    (∀ lanes, portLive s p = true → portUp x = false → x.st ≠ .training →
      let t := modPort p (fun x => { x with bufWritten := true }) s
      (4 ≤ laneCount lanes → exec (.portSignalDetect p lanes) s = .next (modPort p (fun x => { x with st := .training, good := lanes }) t))
      ∧ (laneCount lanes < 4 → exec (.portSignalDetect p lanes) s = .next (leaveUp p .down (modPort p (fun x => { x with good := lanes }) t))))
    ∧ (∀ step, 2 ≤ step → step ≤ 6 → x.st = .training → exec (.trainFailed p step) s = .next (jnSet p (post 0x3101 4 p (leaveUp p .down s))))
    ∧ (∀ good rec, x.st = .training → portLive s p = true →
      let n := laneCount good
      let own := if n < 4 then s else sendLink p "neighbour record" (leBytes (ownRecord s p) 32) s
      let t := modPort p (fun x => { x with good := good, partner := rec }) own
      let lv := topLevel (ownLevels s &&& fld rec.toNat 47 32)
      let fails := fun (code : Code) (st : PortState) => exec (.neighbourArrived p good rec) s = .next (jnSet p (post code 4 p (leaveUp p st t)))
      (n < 4 → fails 0x3101 .down) ∧ (4 ≤ n → ownClaimed s rec = true → fails 0x3103 .conflict)
      ∧ (4 ≤ n → ownClaimed s rec = false → lv = 0 → fails 0x3102 .incompatible)
      ∧ (4 ≤ n → ownClaimed s rec = false → lv ≠ 0 → exec (.neighbourArrived p good rec) s = .next (portEvent 0x0301 p rec
          (modPort p (fun x => { x with st := if n = 8 then .up8 else if 6 ≤ n then .up6 else .up4, level := lv }) t))))
    ∧ (∀ lane, lane < 8 → portUp x = true → x.good.getLsbD lane = true →
      exec (.laneBad p lane) s = .next (restripe p (x.good &&& ~~~bitOf 8 lane) s))
    ∧ (∀ pass, portUp x = true → x.st ≠ .up8 →
      (widthOf (x.good ||| pass) = x.st → exec (.laneRetrain p pass) s = .next (modPort p (fun y => { y with good := x.good ||| pass }) s))
      ∧ (widthOf (x.good ||| pass) ≠ x.st → exec (.laneRetrain p pass) s = .next (restripe p (x.good ||| pass) s)))
    ∧ (∀ seq bad, portUp x = true →
      let again := if x.tx.any (fun c => c.seq == seq) then x.tx.filter (fun c => decide (seq ≤ c.seq)) else []
      let n := if x.sameReplay ≠ 0 ∧ x.lastSeq = seq then x.sameReplay + 1 else 1
      let sent := fun (k : Nat) => again.foldl (fun t c => emit (.codeword p c) t)
        (modPort p (fun x => { x with replays := x.replays + again.length, lastSeq := seq, sameReplay := k }) s)
      (n ≠ 64 → exec (.codewordReplay p seq (.partner bad)) s = .next (sent n))
      ∧ (n = 64 → x.good &&& bad ≠ 0 → exec (.codewordReplay p seq (.partner bad)) s = .next (restripe p (x.good &&& ~~~bad) (sent 0)))
      ∧ (n = 64 → x.good &&& bad = 0 → exec (.codewordReplay p seq (.partner bad)) s = .next (sent 0))
      ∧ exec (.codewordReplay p seq .own) s = .next (sendLink p "replay request" (leBytes seq 8) s))
    ∧ (portUp x = true ∨ x.st = .incompatible → exec (.linkKeepalive p) s = .next (sendLink p "keepalive" [] s))

/-- 11 R285, R291, R292, R300, R310: keepalives to the watched peers, a peer heard, dead, reported dead or departed, and the groups another
device abandons. 11 R283, R290, R293 to R295: a packet for another device goes on by the routing table, or is answered with a NACK; the port
of an ordered packet is the one that the hash of its flow picks among the entry's Up ports, that of another the one with the most free credit
on its channel, the lowest on a tie, whose credit it uses. A notice to a device that no path reaches is not sent. (How much credit has come back
is a free value, and so are the hash and the labels: log entry 94.) -/
def Obligations.PeersAndForwarding : Prop :=
  ∀ s : State,
    exec .peerKeepalive s = .next (s.fab.peers.foldl (fun t x => sendNotice "keepalive" x.ident [] t) s)
    ∧ (∀ what d args, (s.fab.assigned = true → d ≠ s.fab.ident.toNat) →
      let k : Packet := { vc := 0, dst := d, src := s.fab.ident.toNat, flow := labelOf what d, what := what, args := args }
      (reachable s d = false → sendNotice what d args s = s)
      ∧ (reachable s d = true → ∃ p, p ∈ upPorts s d ∧ orderedPort s d k.flow = some p
          ∧ sendNotice what d args s = emit (.packet (some p) k) (sendSlots p [.head k] s)))
    ∧ (∀ d, exec (.keepaliveReceived d) s = .next { s with fab := { s.fab with
        peers := s.fab.peers.map (fun x => if x.ident = d then { x with last := s.ftime, dead := false } else x) } })
    ∧ (∀ d x, s.fab.peers.find? (fun x => x.ident == d && !x.dead) = some x →
      let t := timeTo (x.last + 6400000) s
      exec (.peerDead d) s = .next (loseDevice d (deadNotices ((sharedGroups t d).flatMap (fun e => e.2.members.map (·.1))) d (post 0x3140 0 0 t))))
    ∧ (∀ d src, exec (.peerDeadNotice d src) s
        = .next (loseDevice d (deadNotices (((sharedGroups s d).flatMap (fun e => groupPeers s e.2)).filter (· != src)) d s)))
    ∧ (∀ d, exec (.departureNotice d) s = .next (loseDevice d s))
    ∧ (∀ d keys, exec (.abandonNotice d keys) s
        = .next (((sharedGroups s d).filter (fun e => mem e.2.key.toNat keys)).foldl (fun t e => breakGroup e.1 0x3131 t) s))
    ∧ ∀ (p : Nat) (k : Packet), p < 18 → k.vc < 4 → portUp (getPort s p) = true → s.fab.assigned = true → k.dst ≠ s.fab.ident.toNat →
      let ups := upPorts s k.dst
      let goes := fun (t : State) => exec (.packetForward { port := p, packet := k }) s = .next t
      (reachable s k.dst = false → goes (sendPacket { vc := 2, dst := k.src, src := s.fab.ident.toNat, flow := k.flow, what := "nack", args := k.args } s))
      ∧ (reachable s k.dst = true → inOrder k = true → ∃ o, o ∈ ups ∧ orderedPort s k.dst k.flow = some o
          ∧ goes (emit (.packet (some o) k) (sendSlots o (slotsOf k) s)))
      ∧ (reachable s k.dst = true → inOrder k = false → ∃ o u, o ∈ ups ∧ goes (emit (.packet (some o) k) (sendSlots o (slotsOf k) u))
          ∧ { u with free := s.free, fab := { u.fab with ports := s.fab.ports } } = s
          ∧ (∀ r, { getPort u r with credit := (getPort s r).credit } = getPort s r)
          ∧ ∀ r ∈ ups, r ≠ o → creditOf u k.vc r ≤ creditOf u k.vc o + (slotsOf k).length
              ∧ (creditOf u k.vc r = creditOf u k.vc o + (slotsOf k).length → o < r))

/-- 11 R299, R300, R311, R312: an exchange with a neighbour, to whom the device's own time goes, and what it does when it follows that neighbour;
holdover of a backup and, without one, of the Synced device of the lowest stratum and identity or of another one, which of the two a free value
tells (log entry 95); a member's formation record, answered unless it is an answer, its refusal and its mismatch, of a group that forms or of one that is Formed; the formation's time
limit. -/
def Obligations.FabricTimeAndFormation : Prop :=
  ∀ s : State,
    (∀ p stratum ident offset delay, p < 18 → portUp (getPort s p) = true →
      let r := (getPort s p).partner.toNat
      let own := sendLink p "time" (leBytes (put s.fab.ident.toNat 68 + put s.fab.stratum 64 + s.ftime % 2 ^ 64) 16) s
      let noted := modPort p (fun x => { x with partner := BitVec.ofNat 256 (r - put (fld r 163 160) 160 + put (stratum % 16) 160) }) own
      let t := if stratum < s.fab.stratum then { noted with fab := { noted.fab with lastLower := s.ftime } } else noted
      let follows := followed t = some p ∧ s.fab.role ≠ 1 ∧ stratum < 15 ∧ (s.fab.timeState ≠ 1 ∨ stratum < s.fab.stratum)
      (follows → exec (.timeExchange p stratum ident offset delay) s = .next (follow stratum ident offset t))
      ∧ (¬follows → exec (.timeExchange p stratum ident offset delay) s = .next t))
    ∧ (s.fab.timeState = 1 → s.fab.role ≠ 1 → s.fab.stratum ≠ 0 →
      let t := timeTo (s.fab.lastLower + 10000000) s
      let master := fun (u : State) => { u with fab := { u.fab with stratum := 0, masterId := u.fab.ident.toNat, slew := 0 } }
      let drawn := { t with free := s.free + 1 }
      (s.fab.role = 2 → exec .holdover s = .next (master t))
      ∧ (s.fab.role ≠ 2 → exec .holdover s = .next (if (Config.freeWord s.free).getLsbD 0 then master drawn else setTime 2 drawn)))
    ∧ ∀ g x, g < 1024 → groupOf s g = some x → x.complete = true →
      (∀ rank (levels : BitVec 16), rank < x.members.length → rank ≠ x.rank → x.st = .forming ∨ x.st = .formed →
        let record := fun (list : List (Nat × Nat)) (o : Bool) (kind : RecordKind) (t : State) =>
          exec (.groupFormationRecord g rank x.key list o levels kind) s = .next t
        let ends := fun (code : Code) => if x.st = .forming then endForm g code s else breakGroup g 0x3130 s
        let told := fun (kind : RecordKind) => if kind = .answer then s else sendRecord x [rank] (ownLevels s) false true s
        (∀ list o, record list o .refusal (ends 0x3124))
        ∧ ∀ kind, kind ≠ .refusal →
          (∀ o, o ≠ (getPart s x.part).params.ordered → record x.members o kind (ends 0x3120))
          ∧ (∀ list o, list ≠ x.members → record list o kind s)
          ∧ record x.members (getPart s x.part).params.ordered kind (if x.st = .forming
              then tryForm g (modGroup g (fun y => { y with
                answered := addOnce rank y.answered, level := min y.level (topLevel levels.toNat) }) (told kind))
              else told kind))
      ∧ (x.st = .forming → exec (.groupTimeout g) s = .next (endForm g 0x3122 (timeTo x.dueAt s)))

/-- 10 R276, R277, 11 R302 to R306: the next request of a partition is read, HEAD advances, and the request is refused by the first check that
fails or queued in its group. A packet of a member is taken by the request of its number, kept while that request has not begun, or dropped when
it is over; an entry is noted, an acknowledgement settles what is owed, data is written and acknowledged, and a packet of a request that does
not match ends with 0x3133. A request that has all it needs completes with its record and its counter. A point of a remote atomic returns with
its old value, or with the owner's code, which ends the request; a NACK ends it with 0x3110. -/
def Obligations.CollectivesComplete : Prop :=
  ∀ (p : Nat) (s : State), p < 16 →
    (∀ s1 q x poison, nextColl p s = some (s1, q, x, poison) → (q + 2 ^ 32 - (getPart s p).collDone) % 2 ^ 32 < 256 →
      let r : CollReq := { q := q, req := BitVec.ofNat 512 x, tStart := s.ftime }
      let t := writeCtl p (modPart p (fun pt => { pt with collHead := (pt.collHead + 1) % 2 ^ 32 }) s1)
      ∀ i op, (i, op) ∈ [(Instr.allReduce p, 1), (.reduceScatter p, 2), (.allGather p, 3), (.allToAll p, 4), (.broadcast p, 5), (.barrier p, 6),
          (.remoteAtomic p, 7)] → cOp x = op →
        (poison = true → exec i s = .next (collFail p r 0x3132 t))
        ∧ (∀ c, poison = false → collCheck t p x = some c → exec i s = .next (collFail p r c t))
        ∧ (poison = false → collCheck t p x = none → exec i s = .next (queueColl p r t)))
    ∧ (∀ gn g k rank (c : CollPkt), gn < 1024 → groupOf s gn = some g → g.st = .formed → s.fab.assigned = true → rank < g.members.length →
        rank ≠ g.rank →
      let arrives := fun (t : State) => exec (.collectivePacketArrival gn k rank c.toCollHead c.data c.poison) s = .next t
      let mine := (getPart s g.part).coll.find? (fun r => cGroup r.req.toNat == gn && cOp r.req.toNat != 7 && r.k == k)
      let kept := modGroup gn (fun g => { g with early := g.early ++ [(k, rank, c)] }) s
      (∀ r, mine = some r → r.started = true → arrives (wake g.part (takePacket g.part r.q rank c s)))
      ∧ (∀ r, mine = some r → r.started = false → arrives kept)
      ∧ (mine = none → (g.count ≤ k → arrives kept) ∧ (k < g.count → arrives s)))
    ∧ (∀ q r g, reqGroup s p q = some (r, g) → ∀ rank (c : CollPkt),
      let takes := fun (t : State) => takePacket p q rank c s = t
      let ok := collMatch r.req.toNat c.hdr.toNat = true
      (c.kind = .ack → takes (modReq p q (fun r => { r with owed := r.owed - 1 }) s))
      ∧ (c.kind ≠ .ack → ¬ok → takes (collFail p r 0x3133 s))
      ∧ (c.kind = .enter → ok → takes (modReq p q (fun r => { r with entered := addOnce rank r.entered }) s))
      ∧ (c.kind = .data → ok → takes (sendPacket (collPacket s g r rank { kind := .ack, chunk := c.chunk, off := c.off }) (takeData p q c s)))
      ∧ (cOp r.req.toNat = 4 → r.ring = false → c.first < g.members.length → c.first ≠ g.rank →
          c.off + c.data.length ≤ cBlock r.req.toNat → r.got.any (· == (c.first, c.off)) = false →
          takeData p q c s = putOut p q (cDst r.req.toNat + c.first * cBlock r.req.toNat + c.off) (withLines c.data c.poison)
            (modReq p q (fun r => { r with got := r.got ++ [(c.first, c.off)], bytesGot := r.bytesGot + c.data.length }) s)))
    ∧ (∀ q r g, reqGroup s p q = some (r, g) →
      let b := collBytes r g.members.length s
      let t := retireColl p r (collRecord r 0 s.ftime g.level b.2.1 b.2.2 r.ev r.bad) b.1
      let v := match if r.stale then none else kernelCore t p (fld r.req.toNat 55 48) with
        | none => t
        | some n => Machine.incr n (fld r.req.toNat 61 56) 1 (outsideRec t n 0xFF) t
      (collReady r g = true → exec (.collectiveComplete p q) s = .next (wake p v))
      ∧ (collReady r g = false → exec (.collectiveComplete p q) s = .next s))
    ∧ ∀ q r, collReq s p q = some r →
      (∀ idx code (b : AtomOld), code < 2 ^ 16 → r.sent.any (fun e => e.1 == idx) = true →
        exec (.remoteAtomicResult p q idx code b) s = .next (wake p (sendWaiting (takeResult p q idx code
          (pbOf b.poison (leBytes b.old.toNat 8)) (modReq p q (fun y => { y with bytesGot := y.bytesGot + 8 }) s)))))
      ∧ (∀ idx code (old : List PB), cOp r.req.toNat = 7 → idx < cCount r.req.toNat → mem idx r.back = false →
        let noted := modReq p q (fun y => { y with back := y.back ++ [idx] }) s
        (code ≠ 0 → takeResult p q idx code old s = collFail p r code s)
        ∧ (code = 0 → cDst r.req.toNat = 0 → takeResult p q idx code old s = noted)
        ∧ (code = 0 → cDst r.req.toNat ≠ 0 → takeResult p q idx code old s = putOut p q (cDst r.req.toNat + 8 * idx) old noted))
      ∧ exec (.nack p q) s = .next (sendWaiting (wake p (collFail p r 0x3110 s)))

/-- 10 R276, 11 R306, 13 R347, R348: an atomic of another device is carried out at its place and answered on VC2 in its own flow with the old
value, or refused with a code; a device without an identity answers nothing (11 R290). The buddy's side keeps the entries that arrive and
acknowledges them; an acknowledgement, its time limit, and the end of a synchronisation. -/
def Obligations.RemoteAtomicsAndMirroring : Prop :=
  ∀ s : State,
    (∀ src flow p (ask : AtomAsk), p < 16 →
      let x := ask.record.toNat
      let w := atomBytes (fld x 54 52)
      let arrives := fun (t : State) => exec (.remoteAtomicArrival src flow p ask) s = .next t
      let answer := fun (code : Code) (old : List PB) (t : State) => arrives (sendPacket
        { vc := 2, dst := src, src := t.fab.ident.toNat, flow := flow, what := "atomic result", args := [ask.tag, code],
          data := padTo 8 (pbData old), poison := if pbPoison old then [0] else [] } t)
      (s.fab.assigned = false → arrives s)
      ∧ (s.fab.assigned = true → fld x 47 0 % w ≠ 0 → answer 0x2112 [] s)
      ∧ (∀ c, s.fab.assigned = true → fld x 47 0 % w = 0 → atomWhere s p (fld x 47 0) = .error c → answer c [] s)
      ∧ (∀ d, s.fab.assigned = true → fld x 47 0 % w = 0 → atomWhere s p (fld x 47 0) = .ok d →
        let a := atomAt d (fld x 51 48) (fld x 54 52) (pbOf ask.poison (leBytes (fld x 127 64) w))
          (pbOf ask.poison (leBytes (fld x 191 128) w)) s
        answer 0 a.2.1 a.1))
    ∧ (∀ src spart n model settings frm toks g, s.fab.assigned = true → grantOf s src spart = some g →
      let mine := fun (c : MirCopy) => c.src == src && c.spart == spart && c.session == n
      let rest := { s with fab := { s.fab with copies := s.fab.copies.filter (fun c => !mine c) } }
      let old := ((s.fab.copies.find? mine).map (·.log)).getD []
      let log := old.take frm ++ toks
      let others := ((copiesOf rest src spart).map (fun c => copyChunks c.log)).foldl (· + ·) 0
      let arrives := fun (closed : Bool) => exec (.mirrorEntriesArrival src spart n model settings frm toks closed) s
      arrives true = .next rest
      ∧ (frm ≤ old.length → 32 * g.pages.length < others + copyChunks log → arrives false = .next (mirrorReply "mirror full" src spart n old.length s))
      ∧ (frm ≤ old.length → others + copyChunks log ≤ 32 * g.pages.length →
        let c : MirCopy := { src := src, spart := spart, session := n, model := model, settings := padTo 256 settings, log := log }
        arrives false = .next (mirrorReply "mirror ack" src spart n log.length
          { rest with fab := { rest.fab with copies := rest.fab.copies ++ [c] } })))
    ∧ (∀ p n upTo, p < 16 → n < 65536 → (getSess s n).part = p → (getSess s n).mirror = true → (getPart s p).buddy ≠ none →
      ((getPart s p).syncing = false → (getPart s p).unprotected = false → exec (.buddyAck p n upTo) s = .next (ackSess n upTo s))
      ∧ ((getPart s p).syncing = true → (getSess s n).log.length ≤ upTo →
        exec (.buddyAck p n upTo) s = .next (modSess n (fun x => { x with mirLive := true }) (ackSess n upTo s)))
      ∧ ((getPart s p).syncing = true → upTo < (getSess s n).log.length → exec (.buddyAck p n upTo) s = .next (ackSess n upTo s)))
    ∧ ∀ p, p < 16 →
      ((∃ n ∈ mirrored s p, waitsAck s n = true) → exec (.mirrorAckTimeout p) s = .next (unprotect p s))
      ∧ ((∀ n ∈ mirrored s p, waitsAck s n = false) → exec (.mirrorAckTimeout p) s = .next s)
      ∧ ((getPart s p).syncing = true → (∀ n ∈ mirrored s p, (getSess s n).mirLive = true) →
        exec (.buddySynced p) s = .next (post 0x0305 5 p (modPart p (fun x => { x with syncing := false, unprotected := false }) s)))

/-! ### Integrity and heat (12 R327 to R344, 16 R404 to R415) -/

/-- 12 R327 to R339, 13 R341, R344, 03 R81, R84, 01 R17: scrubbing, write-backs, tests with the loss of a Points lane, weight repair, the
zero fill of KV pages, a channel's failure and the spare lanes of the bridge. -/
def Obligations.RepairRowsComplete : Prop :=
  ∀ s : State,
    (∀ c, chanLive s c = true → c < 256 →
      let i := (getChan s c).scrubPos
      let r := stackRead 2 c (64 * i) (modChan c (fun x => { x with scrubPos := (i + 1) % chanLines }) s)
      exec (.patrolScrub c) s = .next (if pbPoison r.2 then poisonFound c (64 * i) r.1 else r.1)
      ∧ (∀ off rest es, (getChan s c).wbQ = off :: rest → lineDecode (rawChk s c off) = .corrected es →
        exec (.correctiveWriteBack c) s = .next (stackWrite c off (pbOf false (applyFix (rawLine s c off) es)) s))
      ∧ (∀ off rest, (getChan s c).wbQ = off :: rest → (∀ fs, lineDecode (rawChk s c off) ≠ .corrected fs) →
        exec (.correctiveWriteBack c) s = .next (modChan c (fun x => { x with wbQ := rest }) s))
      ∧ ∃ u, exec (.channelFailure c) s = .next u ∧ (getChan u c).failed = true ∧ (getChan u c).queue = [] ∧ mem c u.cfg.pendChannels = true)
    ∧ (∀ n bad, n < 64 → unitOn s s.units.slice n = true →
      ∃ u, exec (.backgroundTest n bad) s = .next u ∧ spGet 0 u.cache.testPos n = (spGet 0 s.cache.testPos n + 1) % 2048)
    ∧ (∀ n, n < 16 → s.boot.domainsOff = false → mem n s.units.pointsOff = false →
      let t := recordErr { code := 0x2220, kind := 7, foundBy := 4, cls := 2, unit := n } s
      exec (.targetedTest 3 n true) s = .next (settleFree (if s.units.pointsOff = [] then { t with units := { t.units with pointsOff := [n] } }
        else failDevice t))
      ∧ exec (.targetedTest 3 n false) s = .next (settleFree (recordErr
        { code := 0x0220, kind := 7, foundBy := 4, cls := 1, unit := n, corrected := 1, action := 1 } s)))
    ∧ (∀ p g rest, p < 16 → (getPart s p).repair = g :: rest → (getPart s p).kernel = none → (getPart s p).step = none →
        s.sb.restarting = false →
      let t := modPart p (fun x => { x with repair := rest }) s
      let asks := fun (u : State) => exec (.weightRepair p) s
        = .next (pevtSet p (recordErr (weightRec p g 0x2230 0) (modPart p (fun x => { x with reload := addOnce g x.reload }) u)))
      (s.mem.mirrors.find? (fun e => e.1 == g) = none → asks t)
      ∧ ∀ e, s.mem.mirrors.find? (fun e => e.1 == g) = some e →
        let u := readyRepair g e.2 t
        (bothSick u g e.2 = true → asks u)
        ∧ (bothSick u g e.2 = false → exec (.weightRepair p) s = .next (recordErr (weightRec p g 0x0223 7) (copyMirror e.2 g u))))
    ∧ (∀ p page, p < 16 → mem page (getPart s p).kvFill = true → exec (.kvPageFreed p page) s
        = .next (modPart p (fun pt => { pt with kvFill := pt.kvFill.filter (· != page) }) (fillWhere (fun d => decide (d / 0x10000 = page)) s)))
    ∧ ∀ h, h < 2 → s.boot.domainsOff = false →
      (spGet 0 s.units.bridgeSpares h < Config.bridgeSpares → exec (.bridgeLaneFault h) s
        = .next { s with units := { s.units with bridgeSpares := spMod 0 s.units.bridgeSpares h (· + 1) } })
      ∧ (Config.bridgeSpares ≤ spGet 0 s.units.bridgeSpares h → exec (.bridgeLaneFault h) s = .next (failDevice s))

/-- 16 R403, R411: a power sample moves time to its tick, joins the last 100 samples and is followed by the clamp's step, which, without a clamp,
acts exactly when the last ten samples exceed the limit, with the factor that brings them to 0.92 of it but at least 0.5; its release ends it. 16
R404, R413, R414: the model's update moves time to its tick and every node takes the value of the model's step, an uninterpreted function of all
nodes and the last sample (log entry 21); with the domains on, each stack's refresh is then looked at, and a node at its stop threshold stops the
device in order, unless a stop is under way; after a stop the domains are off, LAST_STOP is 2 and ALERT_N is driven. 16 R405: a diode check takes
the 96 readings. 16 R410: a duty tick sets the limit's record and keeps every duty between 0.20 and 1.00; R412: under the brake none rises. 16
R410: a group 100 ms at the floor is told once with 0x6220. 16 R412: the brake takes every group to 0.20, its release ends it. 16 R415: a trip
asserts THERMTRIP_N and switches every domain but always-on off, with LAST_STOP 3. -/
def Obligations.PowerAndHeat : Prop :=
  ∀ s : State,
    (∀ mw, let l := (List.range 498).map (fun i => (mw[i]?).getD 0)
      let t := timeTo ((s.heat.sampleTick + 1) * 10000) s
      exec (.powerSample mw) s = .next (clampStep { t with heat := { t.heat with
        sampleTick := t.ftime / 10000, samples := lastN 100 (s.heat.samples ++ [l]) } }))
    ∧ (∀ t : State, t.heat.clamp = none →
      (1000 * pkgLimit t < pkgPower10 t → clampStep t = { t with heat := { t.heat with
        clamp := some (max 500 (920000 * pkgLimit t / pkgPower10 t)), clampOkSince := none } })
      ∧ (pkgPower10 t ≤ 1000 * pkgLimit t → clampStep t = t))
    ∧ (∀ f since, s.heat.clamp = some f → s.heat.clampOkSince = some since → let t := timeTo (since + 1000000) s
      exec .clampRelease s = .next { t with heat := { t.heat with clamp := none, clampOkSince := none } })
    ∧ (let temps := (List.range 512).map (fun n => spGet 400 s.heat.nodes n)
      let step := fun (n : Nat) => Config.thermalStep n temps ((s.heat.samples.getLast?).getD (List.replicate 498 0))
      let w := timeTo ((s.heat.modelTick + 1) * 10000) s
      let m := { w with heat := { w.heat with
        nodes := (List.range 512).foldl (fun m n => spSet 400 m n (step n)) [], modelTick := w.ftime / 10000 } }
      let t := (List.range 8).foldl (fun t k => refreshStep k t) m
      let answers := fun (u : State) => exec .thermalModelUpdate s = .next u
      (∀ n, n < 512 → spGet 400 m.heat.nodes n = step n)
      ∧ (s.boot.domainsOff = true → answers m)
      ∧ (s.boot.domainsOff = false → s.heat.stopping = false → mustStop t = true → answers (thermalStop t)
          ∧ (thermalStop t).boot.domainsOff = true ∧ (thermalStop t).boot.phase = .stopped ∧ (thermalStop t).boot.lastStop = 2
          ∧ (thermalStop t).host.alertAon = true ∧ (thermalStop t).cores = [])
      ∧ (s.boot.domainsOff = false → s.heat.stopping = true ∨ mustStop t = false → answers t))
    ∧ (∀ readings : List Int, readings.length = 96 → ∃ u, exec (.diodeCheck readings) s = .next u
      ∧ ∀ d, d < 96 → some (diode u d).reading = readings[d]?)
    ∧ (∃ u, exec .dutyTick s = .next u ∧ u.heat.limit = some (limitSet (timeTo ((s.heat.dutyTick + 1) * 1000000) s))
      ∧ ((∀ g, g < 12 → (dutyOf s g).duty ≤ 50) → ∀ g, g < 12 → (dutyOf u g).duty ≤ 50)
      ∧ ((∀ g, g < 12 → 10 ≤ (dutyOf s g).duty) → ∀ g, g < 12 → 10 ≤ (dutyOf u g).duty)
      ∧ (s.heat.brake = true → ∀ g, g < 12 → (dutyOf u g).duty ≤ (dutyOf s g).duty))
    ∧ (∀ g since, g < 12 → (dutyOf s g).floorSince = some since → (dutyOf s g).floorTold = false →
      exec (.groupAtFloor g) s = .next (groupPost 0x6220 g (modDuty g (fun x => { x with floorTold := true }) (timeTo (since + 100000000) s))))
    ∧ (s.heat.brake = false → ∃ u, exec .powerBrake s = .next u ∧ u.heat.brake = true ∧ ∀ g, g < 12 → (dutyOf u g).duty = 10)
    ∧ exec .powerBrakeRelease s = .next { s with heat := { s.heat with brake := false }, host := { s.host with pwrbrkHigh := true } }
    ∧ ∀ d a b, d < 96 → s.host.thermDrive = false → trips s d a b = true →
      ∃ u, exec (.thermtrip d a b) s = .next u ∧ u.host.thermDrive = true ∧ u.boot.domainsOff = true ∧ u.boot.pcieOff = true
        ∧ u.boot.lastStop = 3 ∧ u.cores = [] ∧ u.rings = [] ∧ u.sess = []

/-! ### Resets, starts and the Signal Box (13 R353 to R359, 15 R387 to R390, 17 R441, R442, 18 R451) -/

/-- The four causes of a reset, a start that ends in its report, in recovery or in the fuse fault, the restarts and checks of the Signal
Box, and the pins. -/
def Obligations.ResetsStartsAndPins : Prop :=
  ∀ s : State,
    (s.host.perstHigh = true → ∃ u, exec .perstNAssert s = .next u ∧ u.host.perstHigh = false ∧ u.host.linkUp = false ∧ u.fuse = s.fuse
      ∧ (s.boot.suppliesGood = true → u.boot.phase = .starting ∧ u.boot.nextStart = .cold ∧ u.boot.cause = 1 ∧ u.cores = [] ∧ u.parts = []))
    ∧ (s.host.perstHigh = true → ∀ aon, ∃ u, exec (.supplyLoss aon) s = .next u ∧ u.boot.suppliesGood = false ∧ u.boot.nextStart = .cold
      ∧ u.boot.cause = 0 ∧ u.cores = [] ∧ u.parts = [] ∧ u.fuse = s.fuse ∧ u.cfg = s.cfg)
    ∧ (∀ flush, s.sb.wdogBroken = false → s.host.perstHigh = true → s.boot.suppliesGood = true →
      (s.boot.phase = .ready →
        exec (.deviceWatchdogExpiry flush) s = .next (resetTo .warm 2 flush { s with boot := { s.boot with activating := false } }))
      ∧ (s.boot.phase = .starting → ∃ u, exec (.deviceWatchdogExpiry flush) s = .next u
        ∧ u.boot.failedStarts = s.boot.failedStarts + 1 ∧ u.boot.nextStart = (if s.boot.failedStarts < 2 then .warm else .cold)
        ∧ u.boot.phase = if s.boot.failedStarts < 3 then .starting else .recovery))
    ∧ (∀ f, s.boot.phase = .starting → s.sb.restarting = false → tooHot s = false →
      (s.fuse.copyFault = true → ∃ u, exec (.start f) s = .next u ∧ u.boot.phase = .fuseFault ∧ u.host.alertAon = true)
      ∧ (s.fuse.copyFault = false → bootImage (takeStaged s) = none → ∃ u, exec (.start f) s = .next u ∧ u.boot.phase = .recovery)
      ∧ ∀ t, s.fuse.copyFault = false → bootImage (takeStaged s) = some t →
        (f.bootOnly = false → exec (.start f) s = .next (startReport f t (startRestore f t)))
        ∧ (f.bootOnly = true → ∃ u, exec (.start f) s = .next u ∧ u.boot.phase = .starting ∧ u.boot.ifewin = true ∧ u.lock = s.lock ∧ u.units = s.units))
    ∧ (∀ f k cause, s.boot.phase ≠ .starting → s.boot.resetPending = some (k, cause) → activeParts s = [] →
      exec (.start f) s = .next (resetTo k cause true s))
    ∧ (s.sb.restarting = false → s.boot.phase = .ready ∨ s.boot.phase = .stopped →
      (∀ i ∈ [Instr.sbWatchdogExpiry, .lockstepMismatch], ∃ u, exec i s = .next u ∧ u.sb.restarting = true ∧ u.cores = s.cores ∧ u.parts = s.parts
        ∧ u.sess = s.sess ∧ u.rings = s.rings ∧ u.mem = s.mem)
      ∧ ∀ c w, ∃ u, exec (.sbSelfCheck c w) s = .next u ∧ u.sb.checkGroup = (s.sb.checkGroup + 1) % 64
        ∧ (u.sb.wdogBroken = true ↔ s.sb.wdogBroken = true ∨ w = false))
    ∧ (s.sb.restarting = true → ∃ u, exec .sbRestarted s = .next u ∧ u.sb.restarting = false
      ∧ u.sb.host.busy = false ∧ u.sb.bmc.busy = false ∧ u.sb.fm.busy = false)
    ∧ (∀ high, ∃ u, exec (.pinSample high) s = .next u ∧ u.host.levels = high)
    ∧ exec .pcieLinkDown s = .next { s with host := { s.host with linkUp := false } }
    ∧ (s.host.perstHigh = true → s.boot.pcieOff = false → exec .pcieLinkL0 s = .next { s with host := { s.host with linkUp := true } })
end

