-- ==== Sys2Proof/Laws/Events.lean ====
section
/-!
SUPPORT. What the operations of Machine/Flags.lean can do: setting a flag, sending a message and posting a record change the mailboxes, the
host interface and what was sent, and nothing else.
-/

namespace Sys2Proof.Machine

/-- Two states that differ at most in the mailboxes, the host interface and what was sent. -/
def Reported (s t : State) : Prop := { t with sb := s.sb, host := s.host, out := s.out } = s

theorem Reported.refl (s : State) : Reported s s := rfl

theorem Reported.trans {s t u : State} (h : Reported s t) (k : Reported t u) : Reported s u := by
  unfold Reported at *
  rw [← h, ← k]

theorem Reported.foldl {α : Type} {f : State → α → State} (h : ∀ s x, Reported s (f s x)) : ∀ (l : List α) (s : State), Reported s (l.foldl f s)
  | [], s => .refl s
  | x :: l, s => (h s x).trans (Reported.foldl h l (f s x))

theorem Reported.ite {c : Prop} [Decidable c] {s t u : State} (h : Reported s t) (k : Reported s u) : Reported s (if c then t else u) := by
  split
  · exact h
  · exact k

theorem modFn_reported (f : Nat) (g : HostFn → HostFn) (s : State) : Reported s (modFn f g s) := rfl

theorem emit_reported (o : Out) (s : State) : Reported s (emit o s) := rfl

theorem msix_reported (f v : Nat) (s : State) : Reported s (msix f v s) := .ite (modFn_reported ..) (emit_reported ..)

theorem hiSet_reported (f b : Nat) (s : State) : Reported s (hiSet f b s) :=
  .ite (Reported.trans (modFn_reported ..) (msix_reported ..)) (modFn_reported ..)

/-- A change of the host interface, and perhaps a set of HI_STATUS with it. -/
theorem host_reported {s : State} (h : HostIf) (b : Nat) (was : Bool) :
    Reported s (if was = true then { s with host := h } else hiSet 0 b { s with host := h }) :=
  .ite rfl (Reported.trans (t := { s with host := h }) rfl (hiSet_reported ..))

theorem pevtSet_reported (p : Nat) (s : State) : Reported s (pevtSet p s) := host_reported _ _ _
theorem jnSet_reported (b : Nat) (s : State) : Reported s (jnSet b s) := host_reported _ _ _
theorem thSet_reported (b : Nat) (s : State) : Reported s (thSet b s) := host_reported _ _ _
theorem mismatchSet_reported (k : Nat) (s : State) : Reported s (mismatchSet k s) := host_reported _ _ _

theorem modBox_reported (m : Nat) (g : Mailbox → Mailbox) (s : State) : Reported s (modBox m g s) := .ite rfl (.ite rfl rfl)

theorem notify_reported (m b : Nat) (s : State) : Reported s (notify m b s) :=
  .ite (msix_reported ..) (.ite (emit_reported ..) (.ite (emit_reported ..) (.refl s)))

theorem sbSet_reported (m b : Nat) (s : State) : Reported s (sbSet m b s) :=
  .ite (modBox_reported ..) (Reported.trans (modBox_reported ..) (notify_reported ..))

theorem enqueue_reported (m : Nat) (ev : EvRec) (s : State) : Reported s (enqueue m ev s) :=
  Reported.trans
    (.ite (Reported.trans (.ite (Reported.trans (modBox_reported ..) (sbSet_reported ..)) (modBox_reported ..)) (emit_reported ..))
      (.ite (Reported.trans (modBox_reported ..) (sbSet_reported ..)) (modBox_reported ..)))
    (sbSet_reported ..)

theorem postRec_reported (ev : EvRec) (also : List Nat) (s : State) : Reported s (postRec ev also s) := by
  refine Reported.foldl (f := fun t m => if addressed s ev.code m || mem m also then enqueue m ev t else t) (fun t m => ?_) [1, 2, 3] s
  exact .ite (enqueue_reported ..) (.refl t)

theorem post_reported (code : Code) (kind unit : Nat) (s : State) : Reported s (post code kind unit s) := postRec_reported ..

theorem postD_reported (code : Code) (kind unit : Nat) (d : BitVec 256) (s : State) : Reported s (postD code kind unit d s) := postRec_reported ..

theorem partEvent_reported (p : Nat) (code : Code) (s : State) : Reported s (partEvent p code s) :=
  (pevtSet_reported ..).trans (post_reported ..)

/-- What a reader of the state needs of it. -/
theorem Reported.heat {s t : State} (h : Reported s t) : t.heat = s.heat := by rw [← h]

theorem Reported.boot {s t : State} (h : Reported s t) : t.boot = s.boot := by rw [← h]

theorem Reported.mem {s t : State} (h : Reported s t) : t.mem = s.mem := by rw [← h]

theorem Reported.cores {s t : State} (h : Reported s t) : t.cores = s.cores := by rw [← h]

theorem Reported.parts {s t : State} (h : Reported s t) : t.parts = s.parts := by rw [← h]

theorem Reported.units {s t : State} (h : Reported s t) : t.units = s.units := by rw [← h]

theorem Reported.fab {s t : State} (h : Reported s t) : t.fab = s.fab := by rw [← h]

end Sys2Proof.Machine
end

