-- ==== Sys2Proof/Laws/Memory.lean ====
section
/-!
SUPPORT. The canonical form of sparse maps and of stack memory: every operation that changes stack memory keeps it, and reset has it.
-/

namespace Sys2Proof.Machine

variable {α : Type} [DecidableEq α]

/-- The form of a map with a first entry. -/
theorem spWf_cons (d : α) (k : Nat) (v : α) (t : Sp α) :
    spWf d ((k, v) :: t) = true ↔ v ≠ d ∧ (∀ e ∈ t, k < e.1) ∧ spWf d t = true := by
  simp [spWf, and_assoc]

omit [DecidableEq α] in
theorem spErase_keys (m : Sp α) (n : Nat) : ∀ e ∈ spErase m n, e ∈ m := by
  induction m with
  | nil => simp [spErase]
  | cons a t ih =>
    obtain ⟨k, w⟩ := a
    unfold spErase
    split
    · intro e he; exact List.mem_cons_of_mem _ (ih e he)
    · intro e he
      rcases List.mem_cons.mp he with h | h
      · exact h ▸ List.mem_cons_self
      · exact List.mem_cons_of_mem _ (ih e h)

theorem spErase_wf (d : α) (m : Sp α) (n : Nat) (h : spWf d m = true) : spWf d (spErase m n) = true := by
  induction m with
  | nil => rfl
  | cons a t ih =>
    obtain ⟨k, w⟩ := a
    obtain ⟨h1, h2, h3⟩ := (spWf_cons d k w t).mp h
    unfold spErase
    split
    · exact ih h3
    · exact (spWf_cons d k w _).mpr ⟨h1, fun e he => h2 e (spErase_keys t n e he), ih h3⟩

omit [DecidableEq α] in
theorem spPut_keys (m : Sp α) (n : Nat) (v : α) : ∀ e ∈ spPut m n v, e = (n, v) ∨ e ∈ m := by
  induction m with
  | nil => simp [spPut]
  | cons a t ih =>
    obtain ⟨k, w⟩ := a
    unfold spPut
    split
    · simp
    · split
      · intro e he
        rcases List.mem_cons.mp he with h | h
        · exact .inl h
        · exact .inr (List.mem_cons_of_mem _ h)
      · intro e he
        rcases List.mem_cons.mp he with h | h
        · exact .inr (h ▸ List.mem_cons_self)
        · rcases ih e h with h | h
          · exact .inl h
          · exact .inr (List.mem_cons_of_mem _ h)

theorem spPut_wf (d : α) (m : Sp α) (n : Nat) (v : α) (hv : v ≠ d) (h : spWf d m = true) : spWf d (spPut m n v) = true := by
  induction m with
  | nil => simp [spPut, spWf, hv]
  | cons a t ih =>
    obtain ⟨k, w⟩ := a
    obtain ⟨h1, h2, h3⟩ := (spWf_cons d k w t).mp h
    unfold spPut
    split
    · next hn =>
      refine (spWf_cons d n v _).mpr ⟨hv, fun e he => ?_, h⟩
      rcases List.mem_cons.mp he with he | he
      · exact he ▸ hn
      · exact Nat.lt_trans hn (h2 e he)
    · split
      · next _ hn => exact (spWf_cons d n v _).mpr ⟨hv, fun e he => hn ▸ h2 e he, h3⟩
      · next hn hk =>
        refine (spWf_cons d k w _).mpr ⟨h1, fun e he => ?_, ih h3⟩
        rcases spPut_keys t n v e he with he | he
        · subst he; show k < n; omega
        · exact h2 e he

theorem spSet_wf (d : α) (m : Sp α) (n : Nat) (v : α) (h : spWf d m = true) : spWf d (spSet d m n v) = true := by
  unfold spSet
  split
  · exact spErase_wf d m n h
  · next hv => exact spPut_wf d m n v hv h

theorem spMod_wf (d : α) (m : Sp α) (n : Nat) (f : α → α) (h : spWf d m = true) : spWf d (spMod d m n f) = true := spSet_wf d m n _ h

theorem spWrite_wf (m : Sp Byte) (a : Nat) (l : List Byte) (h : spWf 0 m = true) : spWf 0 (spWrite m a l) = true := by
  induction l generalizing m a with
  | nil => exact h
  | cons b t ih => exact ih _ _ (spSet_wf 0 m a b h)

theorem filter_wf (d : α) (m : Sp α) (p : Nat × α → Bool) (h : spWf d m = true) : spWf d (m.filter p) = true := by
  induction m with
  | nil => rfl
  | cons a t ih =>
    obtain ⟨k, w⟩ := a
    obtain ⟨h1, h2, h3⟩ := (spWf_cons d k w t).mp h
    by_cases hp : p (k, w) = true
    · rw [List.filter_cons_of_pos hp]
      exact (spWf_cons d k w _).mpr ⟨h1, fun e he => h2 e (List.mem_of_mem_filter he), ih h3⟩
    · rw [List.filter_cons_of_neg hp]; exact ih h3

/-- Entries written one after another keep the form. -/
theorem foldl_wf {β : Type} (d : α) (g : Sp α → β → Sp α) (hg : ∀ m b, spWf d m = true → spWf d (g m b) = true) (l : List β) (m : Sp α)
    (h : spWf d m = true) : spWf d (l.foldl g m) = true := by
  induction l generalizing m with
  | nil => exact h
  | cons b t ih => exact ih _ (hg m b h)

/-! ### Stack memory -/

theorem memory_wf_iff (m : Mem) : Memory.wf m = true ↔ spWf 0 m.bytes = true ∧ spWf 0 m.chk = true := by simp [Memory.wf]

theorem putRaw_keeps_wf (chan off : Nat) (data : List Byte) (d : BitVec 64) (s : State) (h : Memory.wf s.mem = true) :
    Memory.wf (putRaw chan off data d s).mem = true :=
  have ⟨h1, h2⟩ := (memory_wf_iff _).mp h
  (memory_wf_iff _).mpr ⟨spWrite_wf _ _ _ h1, spSet_wf 0 _ _ _ h2⟩

theorem setChk_keeps_wf (chan off : Nat) (v : BitVec 64) (s : State) (h : Memory.wf s.mem = true) : Memory.wf (setChk chan off v s).mem = true :=
  putRaw_keeps_wf chan off _ v s h

theorem stackWrite_keeps_wf (chan off : Nat) (l : List PB) (s : State) (h : Memory.wf s.mem = true) :
    Memory.wf (stackWrite chan off l s).mem = true := by
  have hw := putRaw_keeps_wf chan off (pbData l) (lineMark (pbPoison l)) s h
  unfold stackWrite
  dsimp only
  split <;> exact hw

theorem fillWhere_keeps_wf (q : Nat → Bool) (s : State) (h : Memory.wf s.mem = true) : Memory.wf (fillWhere q s).mem = true :=
  have ⟨h1, h2⟩ := (memory_wf_iff _).mp h
  (memory_wf_iff _).mpr ⟨filter_wf 0 _ _ h1, filter_wf 0 _ _ h2⟩

theorem relay_keeps_wf (c : Nat) (s : State) : Memory.wf (relay c s).mem = true := by
  have hopt : ∀ {β γ : Type} [DecidableEq γ] (d : γ) (k : β → Option Nat) (v : β → γ) (m : Sp γ) (b : β), spWf d m = true →
      spWf d (match k b with | some n => spSet d m n (v b) | none => m) = true := by
    intro β γ _ d k v m b hm
    cases k b with
    | none => exact hm
    | some n => exact spSet_wf d m n _ hm
  refine (memory_wf_iff _).mpr ⟨?_, ?_⟩
  · exact foldl_wf 0 _ (fun m (b : Host.Cell) hm => hopt 0 (fun b => movedKey (settleLines s) c b.1) (fun b => b.2) m b hm) _ _ rfl
  · refine foldl_wf 0 _ (fun m b hm => ?_) _ _ (foldl_wf 0 _ (fun m b hm => ?_) _ _ rfl)
    · cases hk : movedKey (settleLines s) c b with
      | none => simpa [hk] using hm
      | some k => simpa [hk] using spSet_wf 0 m (k / 64) linePoison hm
    · cases hk : movedKey (settleLines s) c (64 * b.1) with
      | none => simpa [hk] using hm
      | some k => simpa [hk] using spSet_wf 0 m (k / 64) b.2 hm

theorem keptMem_keeps_wf (k : StartKind) (m : Mem) (h : Memory.wf m = true) : Memory.wf (keptMem k m) = true := by
  cases k
  · rfl
  · exact h

theorem startMem_keeps_wf (f : StartFindings) (s : State) (h : Memory.wf s.mem = true) : Memory.wf (startMem f s) = true :=
  have ⟨h1, h2⟩ := (memory_wf_iff _).mp h
  (memory_wf_iff _).mpr ⟨filter_wf 0 _ _ h1, filter_wf 0 _ _ h2⟩

theorem reset_memory_wf : Memory.wf State.reset.mem = true := rfl

end Sys2Proof.Machine
end

