-- ==== Sys2Proof/Laws/State.lean ====
section
/-!
SUPPORT. One lemma per field and update of the state: what each of the shared updates leaves as it was.
-/

namespace Sys2Proof.Machine

/-! ### modChan -/

@[simp] theorem modChan_pending (c : Nat) (g : Chan → Chan) (s : State) : (modChan c g s).pending = s.pending := rfl
@[simp] theorem modChan_free (c : Nat) (g : Chan → Chan) (s : State) : (modChan c g s).free = s.free := rfl
@[simp] theorem modChan_ftime (c : Nat) (g : Chan → Chan) (s : State) : (modChan c g s).ftime = s.ftime := rfl
@[simp] theorem modChan_epoch (c : Nat) (g : Chan → Chan) (s : State) : (modChan c g s).epoch = s.epoch := rfl
@[simp] theorem modChan_fuse (c : Nat) (g : Chan → Chan) (s : State) : (modChan c g s).fuse = s.fuse := rfl
@[simp] theorem modChan_boot (c : Nat) (g : Chan → Chan) (s : State) : (modChan c g s).boot = s.boot := rfl
@[simp] theorem modChan_cfg (c : Nat) (g : Chan → Chan) (s : State) : (modChan c g s).cfg = s.cfg := rfl
@[simp] theorem modChan_fw (c : Nat) (g : Chan → Chan) (s : State) : (modChan c g s).fw = s.fw := rfl
@[simp] theorem modChan_units (c : Nat) (g : Chan → Chan) (s : State) : (modChan c g s).units = s.units := rfl
@[simp] theorem modChan_mem (c : Nat) (g : Chan → Chan) (s : State) : (modChan c g s).mem = s.mem := rfl
@[simp] theorem modChan_cache (c : Nat) (g : Chan → Chan) (s : State) : (modChan c g s).cache = s.cache := rfl
@[simp] theorem modChan_cores (c : Nat) (g : Chan → Chan) (s : State) : (modChan c g s).cores = s.cores := rfl
@[simp] theorem modChan_parts (c : Nat) (g : Chan → Chan) (s : State) : (modChan c g s).parts = s.parts := rfl
@[simp] theorem modChan_tens (c : Nat) (g : Chan → Chan) (s : State) : (modChan c g s).tens = s.tens := rfl
@[simp] theorem modChan_rings (c : Nat) (g : Chan → Chan) (s : State) : (modChan c g s).rings = s.rings := rfl
@[simp] theorem modChan_sess (c : Nat) (g : Chan → Chan) (s : State) : (modChan c g s).sess = s.sess := rfl
@[simp] theorem modChan_host (c : Nat) (g : Chan → Chan) (s : State) : (modChan c g s).host = s.host := rfl
@[simp] theorem modChan_side (c : Nat) (g : Chan → Chan) (s : State) : (modChan c g s).side = s.side := rfl
@[simp] theorem modChan_sb (c : Nat) (g : Chan → Chan) (s : State) : (modChan c g s).sb = s.sb := rfl
@[simp] theorem modChan_lock (c : Nat) (g : Chan → Chan) (s : State) : (modChan c g s).lock = s.lock := rfl
@[simp] theorem modChan_fab (c : Nat) (g : Chan → Chan) (s : State) : (modChan c g s).fab = s.fab := rfl
@[simp] theorem modChan_heat (c : Nat) (g : Chan → Chan) (s : State) : (modChan c g s).heat = s.heat := rfl
@[simp] theorem modChan_report (c : Nat) (g : Chan → Chan) (s : State) : (modChan c g s).report = s.report := rfl
@[simp] theorem modChan_hostMem (c : Nat) (g : Chan → Chan) (s : State) : (modChan c g s).hostMem = s.hostMem := rfl
@[simp] theorem modChan_out (c : Nat) (g : Chan → Chan) (s : State) : (modChan c g s).out = s.out := rfl

/-! ### modCore -/

@[simp] theorem modCore_pending (n : Nat) (g : Core → Core) (s : State) : (modCore n g s).pending = s.pending := rfl
@[simp] theorem modCore_free (n : Nat) (g : Core → Core) (s : State) : (modCore n g s).free = s.free := rfl
@[simp] theorem modCore_ftime (n : Nat) (g : Core → Core) (s : State) : (modCore n g s).ftime = s.ftime := rfl
@[simp] theorem modCore_epoch (n : Nat) (g : Core → Core) (s : State) : (modCore n g s).epoch = s.epoch := rfl
@[simp] theorem modCore_fuse (n : Nat) (g : Core → Core) (s : State) : (modCore n g s).fuse = s.fuse := rfl
@[simp] theorem modCore_boot (n : Nat) (g : Core → Core) (s : State) : (modCore n g s).boot = s.boot := rfl
@[simp] theorem modCore_cfg (n : Nat) (g : Core → Core) (s : State) : (modCore n g s).cfg = s.cfg := rfl
@[simp] theorem modCore_fw (n : Nat) (g : Core → Core) (s : State) : (modCore n g s).fw = s.fw := rfl
@[simp] theorem modCore_units (n : Nat) (g : Core → Core) (s : State) : (modCore n g s).units = s.units := rfl
@[simp] theorem modCore_mem (n : Nat) (g : Core → Core) (s : State) : (modCore n g s).mem = s.mem := rfl
@[simp] theorem modCore_cache (n : Nat) (g : Core → Core) (s : State) : (modCore n g s).cache = s.cache := rfl
@[simp] theorem modCore_chans (n : Nat) (g : Core → Core) (s : State) : (modCore n g s).chans = s.chans := rfl
@[simp] theorem modCore_parts (n : Nat) (g : Core → Core) (s : State) : (modCore n g s).parts = s.parts := rfl
@[simp] theorem modCore_tens (n : Nat) (g : Core → Core) (s : State) : (modCore n g s).tens = s.tens := rfl
@[simp] theorem modCore_rings (n : Nat) (g : Core → Core) (s : State) : (modCore n g s).rings = s.rings := rfl
@[simp] theorem modCore_sess (n : Nat) (g : Core → Core) (s : State) : (modCore n g s).sess = s.sess := rfl
@[simp] theorem modCore_host (n : Nat) (g : Core → Core) (s : State) : (modCore n g s).host = s.host := rfl
@[simp] theorem modCore_side (n : Nat) (g : Core → Core) (s : State) : (modCore n g s).side = s.side := rfl
@[simp] theorem modCore_sb (n : Nat) (g : Core → Core) (s : State) : (modCore n g s).sb = s.sb := rfl
@[simp] theorem modCore_lock (n : Nat) (g : Core → Core) (s : State) : (modCore n g s).lock = s.lock := rfl
@[simp] theorem modCore_fab (n : Nat) (g : Core → Core) (s : State) : (modCore n g s).fab = s.fab := rfl
@[simp] theorem modCore_heat (n : Nat) (g : Core → Core) (s : State) : (modCore n g s).heat = s.heat := rfl
@[simp] theorem modCore_report (n : Nat) (g : Core → Core) (s : State) : (modCore n g s).report = s.report := rfl
@[simp] theorem modCore_hostMem (n : Nat) (g : Core → Core) (s : State) : (modCore n g s).hostMem = s.hostMem := rfl
@[simp] theorem modCore_out (n : Nat) (g : Core → Core) (s : State) : (modCore n g s).out = s.out := rfl

/-! ### modPart -/

@[simp] theorem modPart_pending (p : Nat) (g : Part → Part) (s : State) : (modPart p g s).pending = s.pending := rfl
@[simp] theorem modPart_free (p : Nat) (g : Part → Part) (s : State) : (modPart p g s).free = s.free := rfl
@[simp] theorem modPart_ftime (p : Nat) (g : Part → Part) (s : State) : (modPart p g s).ftime = s.ftime := rfl
@[simp] theorem modPart_epoch (p : Nat) (g : Part → Part) (s : State) : (modPart p g s).epoch = s.epoch := rfl
@[simp] theorem modPart_fuse (p : Nat) (g : Part → Part) (s : State) : (modPart p g s).fuse = s.fuse := rfl
@[simp] theorem modPart_boot (p : Nat) (g : Part → Part) (s : State) : (modPart p g s).boot = s.boot := rfl
@[simp] theorem modPart_cfg (p : Nat) (g : Part → Part) (s : State) : (modPart p g s).cfg = s.cfg := rfl
@[simp] theorem modPart_fw (p : Nat) (g : Part → Part) (s : State) : (modPart p g s).fw = s.fw := rfl
@[simp] theorem modPart_units (p : Nat) (g : Part → Part) (s : State) : (modPart p g s).units = s.units := rfl
@[simp] theorem modPart_mem (p : Nat) (g : Part → Part) (s : State) : (modPart p g s).mem = s.mem := rfl
@[simp] theorem modPart_cache (p : Nat) (g : Part → Part) (s : State) : (modPart p g s).cache = s.cache := rfl
@[simp] theorem modPart_chans (p : Nat) (g : Part → Part) (s : State) : (modPart p g s).chans = s.chans := rfl
@[simp] theorem modPart_cores (p : Nat) (g : Part → Part) (s : State) : (modPart p g s).cores = s.cores := rfl
@[simp] theorem modPart_tens (p : Nat) (g : Part → Part) (s : State) : (modPart p g s).tens = s.tens := rfl
@[simp] theorem modPart_rings (p : Nat) (g : Part → Part) (s : State) : (modPart p g s).rings = s.rings := rfl
@[simp] theorem modPart_sess (p : Nat) (g : Part → Part) (s : State) : (modPart p g s).sess = s.sess := rfl
@[simp] theorem modPart_host (p : Nat) (g : Part → Part) (s : State) : (modPart p g s).host = s.host := rfl
@[simp] theorem modPart_side (p : Nat) (g : Part → Part) (s : State) : (modPart p g s).side = s.side := rfl
@[simp] theorem modPart_sb (p : Nat) (g : Part → Part) (s : State) : (modPart p g s).sb = s.sb := rfl
@[simp] theorem modPart_lock (p : Nat) (g : Part → Part) (s : State) : (modPart p g s).lock = s.lock := rfl
@[simp] theorem modPart_fab (p : Nat) (g : Part → Part) (s : State) : (modPart p g s).fab = s.fab := rfl
@[simp] theorem modPart_heat (p : Nat) (g : Part → Part) (s : State) : (modPart p g s).heat = s.heat := rfl
@[simp] theorem modPart_report (p : Nat) (g : Part → Part) (s : State) : (modPart p g s).report = s.report := rfl
@[simp] theorem modPart_hostMem (p : Nat) (g : Part → Part) (s : State) : (modPart p g s).hostMem = s.hostMem := rfl
@[simp] theorem modPart_out (p : Nat) (g : Part → Part) (s : State) : (modPart p g s).out = s.out := rfl

/-! ### modTen -/

@[simp] theorem modTen_pending (n : Nat) (g : Tenant → Tenant) (s : State) : (modTen n g s).pending = s.pending := rfl
@[simp] theorem modTen_free (n : Nat) (g : Tenant → Tenant) (s : State) : (modTen n g s).free = s.free := rfl
@[simp] theorem modTen_ftime (n : Nat) (g : Tenant → Tenant) (s : State) : (modTen n g s).ftime = s.ftime := rfl
@[simp] theorem modTen_epoch (n : Nat) (g : Tenant → Tenant) (s : State) : (modTen n g s).epoch = s.epoch := rfl
@[simp] theorem modTen_fuse (n : Nat) (g : Tenant → Tenant) (s : State) : (modTen n g s).fuse = s.fuse := rfl
@[simp] theorem modTen_boot (n : Nat) (g : Tenant → Tenant) (s : State) : (modTen n g s).boot = s.boot := rfl
@[simp] theorem modTen_cfg (n : Nat) (g : Tenant → Tenant) (s : State) : (modTen n g s).cfg = s.cfg := rfl
@[simp] theorem modTen_fw (n : Nat) (g : Tenant → Tenant) (s : State) : (modTen n g s).fw = s.fw := rfl
@[simp] theorem modTen_units (n : Nat) (g : Tenant → Tenant) (s : State) : (modTen n g s).units = s.units := rfl
@[simp] theorem modTen_mem (n : Nat) (g : Tenant → Tenant) (s : State) : (modTen n g s).mem = s.mem := rfl
@[simp] theorem modTen_cache (n : Nat) (g : Tenant → Tenant) (s : State) : (modTen n g s).cache = s.cache := rfl
@[simp] theorem modTen_chans (n : Nat) (g : Tenant → Tenant) (s : State) : (modTen n g s).chans = s.chans := rfl
@[simp] theorem modTen_cores (n : Nat) (g : Tenant → Tenant) (s : State) : (modTen n g s).cores = s.cores := rfl
@[simp] theorem modTen_parts (n : Nat) (g : Tenant → Tenant) (s : State) : (modTen n g s).parts = s.parts := rfl
@[simp] theorem modTen_rings (n : Nat) (g : Tenant → Tenant) (s : State) : (modTen n g s).rings = s.rings := rfl
@[simp] theorem modTen_sess (n : Nat) (g : Tenant → Tenant) (s : State) : (modTen n g s).sess = s.sess := rfl
@[simp] theorem modTen_host (n : Nat) (g : Tenant → Tenant) (s : State) : (modTen n g s).host = s.host := rfl
@[simp] theorem modTen_side (n : Nat) (g : Tenant → Tenant) (s : State) : (modTen n g s).side = s.side := rfl
@[simp] theorem modTen_sb (n : Nat) (g : Tenant → Tenant) (s : State) : (modTen n g s).sb = s.sb := rfl
@[simp] theorem modTen_lock (n : Nat) (g : Tenant → Tenant) (s : State) : (modTen n g s).lock = s.lock := rfl
@[simp] theorem modTen_fab (n : Nat) (g : Tenant → Tenant) (s : State) : (modTen n g s).fab = s.fab := rfl
@[simp] theorem modTen_heat (n : Nat) (g : Tenant → Tenant) (s : State) : (modTen n g s).heat = s.heat := rfl
@[simp] theorem modTen_report (n : Nat) (g : Tenant → Tenant) (s : State) : (modTen n g s).report = s.report := rfl
@[simp] theorem modTen_hostMem (n : Nat) (g : Tenant → Tenant) (s : State) : (modTen n g s).hostMem = s.hostMem := rfl
@[simp] theorem modTen_out (n : Nat) (g : Tenant → Tenant) (s : State) : (modTen n g s).out = s.out := rfl

/-! ### modRing -/

@[simp] theorem modRing_pending (r : Nat) (g : Ring → Ring) (s : State) : (modRing r g s).pending = s.pending := rfl
@[simp] theorem modRing_free (r : Nat) (g : Ring → Ring) (s : State) : (modRing r g s).free = s.free := rfl
@[simp] theorem modRing_ftime (r : Nat) (g : Ring → Ring) (s : State) : (modRing r g s).ftime = s.ftime := rfl
@[simp] theorem modRing_epoch (r : Nat) (g : Ring → Ring) (s : State) : (modRing r g s).epoch = s.epoch := rfl
@[simp] theorem modRing_fuse (r : Nat) (g : Ring → Ring) (s : State) : (modRing r g s).fuse = s.fuse := rfl
@[simp] theorem modRing_boot (r : Nat) (g : Ring → Ring) (s : State) : (modRing r g s).boot = s.boot := rfl
@[simp] theorem modRing_cfg (r : Nat) (g : Ring → Ring) (s : State) : (modRing r g s).cfg = s.cfg := rfl
@[simp] theorem modRing_fw (r : Nat) (g : Ring → Ring) (s : State) : (modRing r g s).fw = s.fw := rfl
@[simp] theorem modRing_units (r : Nat) (g : Ring → Ring) (s : State) : (modRing r g s).units = s.units := rfl
@[simp] theorem modRing_mem (r : Nat) (g : Ring → Ring) (s : State) : (modRing r g s).mem = s.mem := rfl
@[simp] theorem modRing_cache (r : Nat) (g : Ring → Ring) (s : State) : (modRing r g s).cache = s.cache := rfl
@[simp] theorem modRing_chans (r : Nat) (g : Ring → Ring) (s : State) : (modRing r g s).chans = s.chans := rfl
@[simp] theorem modRing_cores (r : Nat) (g : Ring → Ring) (s : State) : (modRing r g s).cores = s.cores := rfl
@[simp] theorem modRing_parts (r : Nat) (g : Ring → Ring) (s : State) : (modRing r g s).parts = s.parts := rfl
@[simp] theorem modRing_tens (r : Nat) (g : Ring → Ring) (s : State) : (modRing r g s).tens = s.tens := rfl
@[simp] theorem modRing_sess (r : Nat) (g : Ring → Ring) (s : State) : (modRing r g s).sess = s.sess := rfl
@[simp] theorem modRing_host (r : Nat) (g : Ring → Ring) (s : State) : (modRing r g s).host = s.host := rfl
@[simp] theorem modRing_side (r : Nat) (g : Ring → Ring) (s : State) : (modRing r g s).side = s.side := rfl
@[simp] theorem modRing_sb (r : Nat) (g : Ring → Ring) (s : State) : (modRing r g s).sb = s.sb := rfl
@[simp] theorem modRing_lock (r : Nat) (g : Ring → Ring) (s : State) : (modRing r g s).lock = s.lock := rfl
@[simp] theorem modRing_fab (r : Nat) (g : Ring → Ring) (s : State) : (modRing r g s).fab = s.fab := rfl
@[simp] theorem modRing_heat (r : Nat) (g : Ring → Ring) (s : State) : (modRing r g s).heat = s.heat := rfl
@[simp] theorem modRing_report (r : Nat) (g : Ring → Ring) (s : State) : (modRing r g s).report = s.report := rfl
@[simp] theorem modRing_hostMem (r : Nat) (g : Ring → Ring) (s : State) : (modRing r g s).hostMem = s.hostMem := rfl
@[simp] theorem modRing_out (r : Nat) (g : Ring → Ring) (s : State) : (modRing r g s).out = s.out := rfl

/-! ### modSess -/

@[simp] theorem modSess_pending (n : Nat) (g : Sess → Sess) (s : State) : (modSess n g s).pending = s.pending := rfl
@[simp] theorem modSess_free (n : Nat) (g : Sess → Sess) (s : State) : (modSess n g s).free = s.free := rfl
@[simp] theorem modSess_ftime (n : Nat) (g : Sess → Sess) (s : State) : (modSess n g s).ftime = s.ftime := rfl
@[simp] theorem modSess_epoch (n : Nat) (g : Sess → Sess) (s : State) : (modSess n g s).epoch = s.epoch := rfl
@[simp] theorem modSess_fuse (n : Nat) (g : Sess → Sess) (s : State) : (modSess n g s).fuse = s.fuse := rfl
@[simp] theorem modSess_boot (n : Nat) (g : Sess → Sess) (s : State) : (modSess n g s).boot = s.boot := rfl
@[simp] theorem modSess_cfg (n : Nat) (g : Sess → Sess) (s : State) : (modSess n g s).cfg = s.cfg := rfl
@[simp] theorem modSess_fw (n : Nat) (g : Sess → Sess) (s : State) : (modSess n g s).fw = s.fw := rfl
@[simp] theorem modSess_units (n : Nat) (g : Sess → Sess) (s : State) : (modSess n g s).units = s.units := rfl
@[simp] theorem modSess_mem (n : Nat) (g : Sess → Sess) (s : State) : (modSess n g s).mem = s.mem := rfl
@[simp] theorem modSess_cache (n : Nat) (g : Sess → Sess) (s : State) : (modSess n g s).cache = s.cache := rfl
@[simp] theorem modSess_chans (n : Nat) (g : Sess → Sess) (s : State) : (modSess n g s).chans = s.chans := rfl
@[simp] theorem modSess_cores (n : Nat) (g : Sess → Sess) (s : State) : (modSess n g s).cores = s.cores := rfl
@[simp] theorem modSess_parts (n : Nat) (g : Sess → Sess) (s : State) : (modSess n g s).parts = s.parts := rfl
@[simp] theorem modSess_tens (n : Nat) (g : Sess → Sess) (s : State) : (modSess n g s).tens = s.tens := rfl
@[simp] theorem modSess_rings (n : Nat) (g : Sess → Sess) (s : State) : (modSess n g s).rings = s.rings := rfl
@[simp] theorem modSess_host (n : Nat) (g : Sess → Sess) (s : State) : (modSess n g s).host = s.host := rfl
@[simp] theorem modSess_side (n : Nat) (g : Sess → Sess) (s : State) : (modSess n g s).side = s.side := rfl
@[simp] theorem modSess_sb (n : Nat) (g : Sess → Sess) (s : State) : (modSess n g s).sb = s.sb := rfl
@[simp] theorem modSess_lock (n : Nat) (g : Sess → Sess) (s : State) : (modSess n g s).lock = s.lock := rfl
@[simp] theorem modSess_fab (n : Nat) (g : Sess → Sess) (s : State) : (modSess n g s).fab = s.fab := rfl
@[simp] theorem modSess_heat (n : Nat) (g : Sess → Sess) (s : State) : (modSess n g s).heat = s.heat := rfl
@[simp] theorem modSess_report (n : Nat) (g : Sess → Sess) (s : State) : (modSess n g s).report = s.report := rfl
@[simp] theorem modSess_hostMem (n : Nat) (g : Sess → Sess) (s : State) : (modSess n g s).hostMem = s.hostMem := rfl
@[simp] theorem modSess_out (n : Nat) (g : Sess → Sess) (s : State) : (modSess n g s).out = s.out := rfl

/-! ### modFn -/

@[simp] theorem modFn_pending (f : Nat) (g : HostFn → HostFn) (s : State) : (modFn f g s).pending = s.pending := rfl
@[simp] theorem modFn_free (f : Nat) (g : HostFn → HostFn) (s : State) : (modFn f g s).free = s.free := rfl
@[simp] theorem modFn_ftime (f : Nat) (g : HostFn → HostFn) (s : State) : (modFn f g s).ftime = s.ftime := rfl
@[simp] theorem modFn_epoch (f : Nat) (g : HostFn → HostFn) (s : State) : (modFn f g s).epoch = s.epoch := rfl
@[simp] theorem modFn_fuse (f : Nat) (g : HostFn → HostFn) (s : State) : (modFn f g s).fuse = s.fuse := rfl
@[simp] theorem modFn_boot (f : Nat) (g : HostFn → HostFn) (s : State) : (modFn f g s).boot = s.boot := rfl
@[simp] theorem modFn_cfg (f : Nat) (g : HostFn → HostFn) (s : State) : (modFn f g s).cfg = s.cfg := rfl
@[simp] theorem modFn_fw (f : Nat) (g : HostFn → HostFn) (s : State) : (modFn f g s).fw = s.fw := rfl
@[simp] theorem modFn_units (f : Nat) (g : HostFn → HostFn) (s : State) : (modFn f g s).units = s.units := rfl
@[simp] theorem modFn_mem (f : Nat) (g : HostFn → HostFn) (s : State) : (modFn f g s).mem = s.mem := rfl
@[simp] theorem modFn_cache (f : Nat) (g : HostFn → HostFn) (s : State) : (modFn f g s).cache = s.cache := rfl
@[simp] theorem modFn_chans (f : Nat) (g : HostFn → HostFn) (s : State) : (modFn f g s).chans = s.chans := rfl
@[simp] theorem modFn_cores (f : Nat) (g : HostFn → HostFn) (s : State) : (modFn f g s).cores = s.cores := rfl
@[simp] theorem modFn_parts (f : Nat) (g : HostFn → HostFn) (s : State) : (modFn f g s).parts = s.parts := rfl
@[simp] theorem modFn_tens (f : Nat) (g : HostFn → HostFn) (s : State) : (modFn f g s).tens = s.tens := rfl
@[simp] theorem modFn_rings (f : Nat) (g : HostFn → HostFn) (s : State) : (modFn f g s).rings = s.rings := rfl
@[simp] theorem modFn_sess (f : Nat) (g : HostFn → HostFn) (s : State) : (modFn f g s).sess = s.sess := rfl
@[simp] theorem modFn_side (f : Nat) (g : HostFn → HostFn) (s : State) : (modFn f g s).side = s.side := rfl
@[simp] theorem modFn_sb (f : Nat) (g : HostFn → HostFn) (s : State) : (modFn f g s).sb = s.sb := rfl
@[simp] theorem modFn_lock (f : Nat) (g : HostFn → HostFn) (s : State) : (modFn f g s).lock = s.lock := rfl
@[simp] theorem modFn_fab (f : Nat) (g : HostFn → HostFn) (s : State) : (modFn f g s).fab = s.fab := rfl
@[simp] theorem modFn_heat (f : Nat) (g : HostFn → HostFn) (s : State) : (modFn f g s).heat = s.heat := rfl
@[simp] theorem modFn_report (f : Nat) (g : HostFn → HostFn) (s : State) : (modFn f g s).report = s.report := rfl
@[simp] theorem modFn_hostMem (f : Nat) (g : HostFn → HostFn) (s : State) : (modFn f g s).hostMem = s.hostMem := rfl
@[simp] theorem modFn_out (f : Nat) (g : HostFn → HostFn) (s : State) : (modFn f g s).out = s.out := rfl

/-! ### emit -/

@[simp] theorem emit_pending (o : Out) (s : State) : (emit o s).pending = s.pending := rfl
@[simp] theorem emit_free (o : Out) (s : State) : (emit o s).free = s.free := rfl
@[simp] theorem emit_ftime (o : Out) (s : State) : (emit o s).ftime = s.ftime := rfl
@[simp] theorem emit_epoch (o : Out) (s : State) : (emit o s).epoch = s.epoch := rfl
@[simp] theorem emit_fuse (o : Out) (s : State) : (emit o s).fuse = s.fuse := rfl
@[simp] theorem emit_boot (o : Out) (s : State) : (emit o s).boot = s.boot := rfl
@[simp] theorem emit_cfg (o : Out) (s : State) : (emit o s).cfg = s.cfg := rfl
@[simp] theorem emit_fw (o : Out) (s : State) : (emit o s).fw = s.fw := rfl
@[simp] theorem emit_units (o : Out) (s : State) : (emit o s).units = s.units := rfl
@[simp] theorem emit_mem (o : Out) (s : State) : (emit o s).mem = s.mem := rfl
@[simp] theorem emit_cache (o : Out) (s : State) : (emit o s).cache = s.cache := rfl
@[simp] theorem emit_chans (o : Out) (s : State) : (emit o s).chans = s.chans := rfl
@[simp] theorem emit_cores (o : Out) (s : State) : (emit o s).cores = s.cores := rfl
@[simp] theorem emit_parts (o : Out) (s : State) : (emit o s).parts = s.parts := rfl
@[simp] theorem emit_tens (o : Out) (s : State) : (emit o s).tens = s.tens := rfl
@[simp] theorem emit_rings (o : Out) (s : State) : (emit o s).rings = s.rings := rfl
@[simp] theorem emit_sess (o : Out) (s : State) : (emit o s).sess = s.sess := rfl
@[simp] theorem emit_host (o : Out) (s : State) : (emit o s).host = s.host := rfl
@[simp] theorem emit_side (o : Out) (s : State) : (emit o s).side = s.side := rfl
@[simp] theorem emit_sb (o : Out) (s : State) : (emit o s).sb = s.sb := rfl
@[simp] theorem emit_lock (o : Out) (s : State) : (emit o s).lock = s.lock := rfl
@[simp] theorem emit_fab (o : Out) (s : State) : (emit o s).fab = s.fab := rfl
@[simp] theorem emit_heat (o : Out) (s : State) : (emit o s).heat = s.heat := rfl
@[simp] theorem emit_report (o : Out) (s : State) : (emit o s).report = s.report := rfl
@[simp] theorem emit_hostMem (o : Out) (s : State) : (emit o s).hostMem = s.hostMem := rfl

/-! ### timeTo -/

@[simp] theorem timeTo_pending (t : Nat) (s : State) : (timeTo t s).pending = s.pending := rfl
@[simp] theorem timeTo_free (t : Nat) (s : State) : (timeTo t s).free = s.free := rfl
@[simp] theorem timeTo_epoch (t : Nat) (s : State) : (timeTo t s).epoch = s.epoch := rfl
@[simp] theorem timeTo_fuse (t : Nat) (s : State) : (timeTo t s).fuse = s.fuse := rfl
@[simp] theorem timeTo_boot (t : Nat) (s : State) : (timeTo t s).boot = s.boot := rfl
@[simp] theorem timeTo_cfg (t : Nat) (s : State) : (timeTo t s).cfg = s.cfg := rfl
@[simp] theorem timeTo_fw (t : Nat) (s : State) : (timeTo t s).fw = s.fw := rfl
@[simp] theorem timeTo_units (t : Nat) (s : State) : (timeTo t s).units = s.units := rfl
@[simp] theorem timeTo_mem (t : Nat) (s : State) : (timeTo t s).mem = s.mem := rfl
@[simp] theorem timeTo_cache (t : Nat) (s : State) : (timeTo t s).cache = s.cache := rfl
@[simp] theorem timeTo_chans (t : Nat) (s : State) : (timeTo t s).chans = s.chans := rfl
@[simp] theorem timeTo_cores (t : Nat) (s : State) : (timeTo t s).cores = s.cores := rfl
@[simp] theorem timeTo_parts (t : Nat) (s : State) : (timeTo t s).parts = s.parts := rfl
@[simp] theorem timeTo_tens (t : Nat) (s : State) : (timeTo t s).tens = s.tens := rfl
@[simp] theorem timeTo_rings (t : Nat) (s : State) : (timeTo t s).rings = s.rings := rfl
@[simp] theorem timeTo_sess (t : Nat) (s : State) : (timeTo t s).sess = s.sess := rfl
@[simp] theorem timeTo_host (t : Nat) (s : State) : (timeTo t s).host = s.host := rfl
@[simp] theorem timeTo_side (t : Nat) (s : State) : (timeTo t s).side = s.side := rfl
@[simp] theorem timeTo_sb (t : Nat) (s : State) : (timeTo t s).sb = s.sb := rfl
@[simp] theorem timeTo_lock (t : Nat) (s : State) : (timeTo t s).lock = s.lock := rfl
@[simp] theorem timeTo_fab (t : Nat) (s : State) : (timeTo t s).fab = s.fab := rfl
@[simp] theorem timeTo_heat (t : Nat) (s : State) : (timeTo t s).heat = s.heat := rfl
@[simp] theorem timeTo_report (t : Nat) (s : State) : (timeTo t s).report = s.report := rfl
@[simp] theorem timeTo_hostMem (t : Nat) (s : State) : (timeTo t s).hostMem = s.hostMem := rfl
@[simp] theorem timeTo_out (t : Nat) (s : State) : (timeTo t s).out = s.out := rfl

/-! ### modBox: a mailbox lies in the Signal Box -/

@[simp] theorem modBox_pending (m : Nat) (g : Mailbox → Mailbox) (s : State) : (modBox m g s).pending = s.pending := by
  unfold modBox; split <;> [rfl; split <;> rfl]
@[simp] theorem modBox_free (m : Nat) (g : Mailbox → Mailbox) (s : State) : (modBox m g s).free = s.free := by
  unfold modBox; split <;> [rfl; split <;> rfl]
@[simp] theorem modBox_ftime (m : Nat) (g : Mailbox → Mailbox) (s : State) : (modBox m g s).ftime = s.ftime := by
  unfold modBox; split <;> [rfl; split <;> rfl]
@[simp] theorem modBox_epoch (m : Nat) (g : Mailbox → Mailbox) (s : State) : (modBox m g s).epoch = s.epoch := by
  unfold modBox; split <;> [rfl; split <;> rfl]
@[simp] theorem modBox_fuse (m : Nat) (g : Mailbox → Mailbox) (s : State) : (modBox m g s).fuse = s.fuse := by
  unfold modBox; split <;> [rfl; split <;> rfl]
@[simp] theorem modBox_boot (m : Nat) (g : Mailbox → Mailbox) (s : State) : (modBox m g s).boot = s.boot := by
  unfold modBox; split <;> [rfl; split <;> rfl]
@[simp] theorem modBox_cfg (m : Nat) (g : Mailbox → Mailbox) (s : State) : (modBox m g s).cfg = s.cfg := by
  unfold modBox; split <;> [rfl; split <;> rfl]
@[simp] theorem modBox_fw (m : Nat) (g : Mailbox → Mailbox) (s : State) : (modBox m g s).fw = s.fw := by
  unfold modBox; split <;> [rfl; split <;> rfl]
@[simp] theorem modBox_units (m : Nat) (g : Mailbox → Mailbox) (s : State) : (modBox m g s).units = s.units := by
  unfold modBox; split <;> [rfl; split <;> rfl]
@[simp] theorem modBox_mem (m : Nat) (g : Mailbox → Mailbox) (s : State) : (modBox m g s).mem = s.mem := by
  unfold modBox; split <;> [rfl; split <;> rfl]
@[simp] theorem modBox_cache (m : Nat) (g : Mailbox → Mailbox) (s : State) : (modBox m g s).cache = s.cache := by
  unfold modBox; split <;> [rfl; split <;> rfl]
@[simp] theorem modBox_chans (m : Nat) (g : Mailbox → Mailbox) (s : State) : (modBox m g s).chans = s.chans := by
  unfold modBox; split <;> [rfl; split <;> rfl]
@[simp] theorem modBox_cores (m : Nat) (g : Mailbox → Mailbox) (s : State) : (modBox m g s).cores = s.cores := by
  unfold modBox; split <;> [rfl; split <;> rfl]
@[simp] theorem modBox_parts (m : Nat) (g : Mailbox → Mailbox) (s : State) : (modBox m g s).parts = s.parts := by
  unfold modBox; split <;> [rfl; split <;> rfl]
@[simp] theorem modBox_tens (m : Nat) (g : Mailbox → Mailbox) (s : State) : (modBox m g s).tens = s.tens := by
  unfold modBox; split <;> [rfl; split <;> rfl]
@[simp] theorem modBox_rings (m : Nat) (g : Mailbox → Mailbox) (s : State) : (modBox m g s).rings = s.rings := by
  unfold modBox; split <;> [rfl; split <;> rfl]
@[simp] theorem modBox_sess (m : Nat) (g : Mailbox → Mailbox) (s : State) : (modBox m g s).sess = s.sess := by
  unfold modBox; split <;> [rfl; split <;> rfl]
@[simp] theorem modBox_host (m : Nat) (g : Mailbox → Mailbox) (s : State) : (modBox m g s).host = s.host := by
  unfold modBox; split <;> [rfl; split <;> rfl]
@[simp] theorem modBox_side (m : Nat) (g : Mailbox → Mailbox) (s : State) : (modBox m g s).side = s.side := by
  unfold modBox; split <;> [rfl; split <;> rfl]
@[simp] theorem modBox_lock (m : Nat) (g : Mailbox → Mailbox) (s : State) : (modBox m g s).lock = s.lock := by
  unfold modBox; split <;> [rfl; split <;> rfl]
@[simp] theorem modBox_fab (m : Nat) (g : Mailbox → Mailbox) (s : State) : (modBox m g s).fab = s.fab := by
  unfold modBox; split <;> [rfl; split <;> rfl]
@[simp] theorem modBox_heat (m : Nat) (g : Mailbox → Mailbox) (s : State) : (modBox m g s).heat = s.heat := by
  unfold modBox; split <;> [rfl; split <;> rfl]
@[simp] theorem modBox_report (m : Nat) (g : Mailbox → Mailbox) (s : State) : (modBox m g s).report = s.report := by
  unfold modBox; split <;> [rfl; split <;> rfl]
@[simp] theorem modBox_hostMem (m : Nat) (g : Mailbox → Mailbox) (s : State) : (modBox m g s).hostMem = s.hostMem := by
  unfold modBox; split <;> [rfl; split <;> rfl]
@[simp] theorem modBox_out (m : Nat) (g : Mailbox → Mailbox) (s : State) : (modBox m g s).out = s.out := by
  unfold modBox; split <;> [rfl; split <;> rfl]

/-! ### Sparse maps: reading after writing -/

theorem spGet?_spPut_same {α : Type} (m : Sp α) (n : Nat) (v : α) : spGet? (spPut m n v) n = some v := by
  induction m with
  | nil => simp [spPut, spGet?]
  | cons e t ih =>
    obtain ⟨k, w⟩ := e
    unfold spPut
    split
    · simp [spGet?]
    · split
      · simp [spGet?]
      · have h : k ≠ n := fun h => ‹¬n = k› h.symm
        simp [spGet?, h, ih]

theorem spGet?_spPut_other {α : Type} (m : Sp α) (n k : Nat) (v : α) (h : k ≠ n) : spGet? (spPut m n v) k = spGet? m k := by
  induction m with
  | nil => simp [spPut, spGet?, Ne.symm h]
  | cons e t ih =>
    obtain ⟨j, w⟩ := e
    unfold spPut
    split
    · simp [spGet?, Ne.symm h]
    · split
      · next hj => subst hj; simp [spGet?, Ne.symm h]
      · simp [spGet?, ih]

theorem spGet?_spErase_same {α : Type} (m : Sp α) (n : Nat) : spGet? (spErase m n) n = none := by
  induction m with
  | nil => rfl
  | cons e t ih =>
    obtain ⟨k, w⟩ := e
    unfold spErase
    split
    · exact ih
    · simp [spGet?, *]

theorem spGet?_spErase_other {α : Type} (m : Sp α) (n k : Nat) (h : k ≠ n) : spGet? (spErase m n) k = spGet? m k := by
  induction m with
  | nil => rfl
  | cons e t ih =>
    obtain ⟨j, w⟩ := e
    unfold spErase
    split
    · next hj => subst hj; simp [spGet?, Ne.symm h, ih]
    · simp [spGet?, ih]

variable {α : Type} [DecidableEq α]

@[simp] theorem spGet_spSet_same (d : α) (m : Sp α) (n : Nat) (v : α) : spGet d (spSet d m n v) n = v := by
  unfold spSet spGet
  split
  · next h => simp [spGet?_spErase_same, h]
  · simp [spGet?_spPut_same]

theorem spGet_spSet_other (d : α) (m : Sp α) (n k : Nat) (v : α) (h : k ≠ n) : spGet d (spSet d m n v) k = spGet d m k := by
  unfold spSet spGet
  split
  · rw [spGet?_spErase_other m n k h]
  · rw [spGet?_spPut_other m n k v h]

@[simp] theorem spGet_spMod_same (d : α) (m : Sp α) (n : Nat) (f : α → α) : spGet d (spMod d m n f) n = f (spGet d m n) := by
  simp [spMod]

theorem spGet_spMod_other (d : α) (m : Sp α) (n k : Nat) (f : α → α) (h : k ≠ n) : spGet d (spMod d m n f) k = spGet d m k :=
  spGet_spSet_other d m n k _ h

/-! ### Units read after they changed -/

@[simp] theorem getChan_modChan_same (n : Nat) (f : Chan → Chan) (s : State) : getChan (modChan n f s) n = f (getChan s n) := spGet_spMod_same _ _ _ _

theorem getChan_modChan_other (n k : Nat) (f : Chan → Chan) (s : State) (h : k ≠ n) : getChan (modChan n f s) k = getChan s k :=
  spGet_spMod_other _ _ _ _ _ h

@[simp] theorem getCore_modCore_same (n : Nat) (f : Core → Core) (s : State) : getCore (modCore n f s) n = f (getCore s n) := spGet_spMod_same _ _ _ _

theorem getCore_modCore_other (n k : Nat) (f : Core → Core) (s : State) (h : k ≠ n) : getCore (modCore n f s) k = getCore s k :=
  spGet_spMod_other _ _ _ _ _ h

@[simp] theorem getPart_modPart_same (n : Nat) (f : Part → Part) (s : State) : getPart (modPart n f s) n = f (getPart s n) := spGet_spMod_same _ _ _ _

theorem getPart_modPart_other (n k : Nat) (f : Part → Part) (s : State) (h : k ≠ n) : getPart (modPart n f s) k = getPart s k :=
  spGet_spMod_other _ _ _ _ _ h

@[simp] theorem getTen_modTen_same (n : Nat) (f : Tenant → Tenant) (s : State) : getTen (modTen n f s) n = f (getTen s n) := spGet_spMod_same _ _ _ _

theorem getTen_modTen_other (n k : Nat) (f : Tenant → Tenant) (s : State) (h : k ≠ n) : getTen (modTen n f s) k = getTen s k :=
  spGet_spMod_other _ _ _ _ _ h

@[simp] theorem getRing_modRing_same (n : Nat) (f : Ring → Ring) (s : State) : getRing (modRing n f s) n = f (getRing s n) := spGet_spMod_same _ _ _ _

theorem getRing_modRing_other (n k : Nat) (f : Ring → Ring) (s : State) (h : k ≠ n) : getRing (modRing n f s) k = getRing s k :=
  spGet_spMod_other _ _ _ _ _ h

@[simp] theorem getSess_modSess_same (n : Nat) (f : Sess → Sess) (s : State) : getSess (modSess n f s) n = f (getSess s n) := spGet_spMod_same _ _ _ _

theorem getSess_modSess_other (n k : Nat) (f : Sess → Sess) (s : State) (h : k ≠ n) : getSess (modSess n f s) k = getSess s k :=
  spGet_spMod_other _ _ _ _ _ h

@[simp] theorem getFn_modFn_same (n : Nat) (f : HostFn → HostFn) (s : State) : getFn (modFn n f s) n = f (getFn s n) := spGet_spMod_same _ _ _ _

theorem getFn_modFn_other (n k : Nat) (f : HostFn → HostFn) (s : State) (h : k ≠ n) : getFn (modFn n f s) k = getFn s k :=
  spGet_spMod_other _ _ _ _ _ h

@[simp] theorem getChan_modCore (k : Nat) (n : Nat) (g : Core → Core) (s : State) : getChan (modCore n g s) k = getChan s k := rfl
@[simp] theorem getChan_modPart (k : Nat) (p : Nat) (g : Part → Part) (s : State) : getChan (modPart p g s) k = getChan s k := rfl
@[simp] theorem getChan_modTen (k : Nat) (n : Nat) (g : Tenant → Tenant) (s : State) : getChan (modTen n g s) k = getChan s k := rfl
@[simp] theorem getChan_modRing (k : Nat) (r : Nat) (g : Ring → Ring) (s : State) : getChan (modRing r g s) k = getChan s k := rfl
@[simp] theorem getChan_modSess (k : Nat) (n : Nat) (g : Sess → Sess) (s : State) : getChan (modSess n g s) k = getChan s k := rfl
@[simp] theorem getChan_modFn (k : Nat) (f : Nat) (g : HostFn → HostFn) (s : State) : getChan (modFn f g s) k = getChan s k := rfl
@[simp] theorem getChan_emit (k : Nat) (o : Out) (s : State) : getChan (emit o s) k = getChan s k := rfl
@[simp] theorem getChan_timeTo (k : Nat) (t : Nat) (s : State) : getChan (timeTo t s) k = getChan s k := rfl
@[simp] theorem getCore_modChan (k : Nat) (c : Nat) (g : Chan → Chan) (s : State) : getCore (modChan c g s) k = getCore s k := rfl
@[simp] theorem getCore_modPart (k : Nat) (p : Nat) (g : Part → Part) (s : State) : getCore (modPart p g s) k = getCore s k := rfl
@[simp] theorem getCore_modTen (k : Nat) (n : Nat) (g : Tenant → Tenant) (s : State) : getCore (modTen n g s) k = getCore s k := rfl
@[simp] theorem getCore_modRing (k : Nat) (r : Nat) (g : Ring → Ring) (s : State) : getCore (modRing r g s) k = getCore s k := rfl
@[simp] theorem getCore_modSess (k : Nat) (n : Nat) (g : Sess → Sess) (s : State) : getCore (modSess n g s) k = getCore s k := rfl
@[simp] theorem getCore_modFn (k : Nat) (f : Nat) (g : HostFn → HostFn) (s : State) : getCore (modFn f g s) k = getCore s k := rfl
@[simp] theorem getCore_emit (k : Nat) (o : Out) (s : State) : getCore (emit o s) k = getCore s k := rfl
@[simp] theorem getCore_timeTo (k : Nat) (t : Nat) (s : State) : getCore (timeTo t s) k = getCore s k := rfl
@[simp] theorem getPart_modChan (k : Nat) (c : Nat) (g : Chan → Chan) (s : State) : getPart (modChan c g s) k = getPart s k := rfl
@[simp] theorem getPart_modCore (k : Nat) (n : Nat) (g : Core → Core) (s : State) : getPart (modCore n g s) k = getPart s k := rfl
@[simp] theorem getPart_modTen (k : Nat) (n : Nat) (g : Tenant → Tenant) (s : State) : getPart (modTen n g s) k = getPart s k := rfl
@[simp] theorem getPart_modRing (k : Nat) (r : Nat) (g : Ring → Ring) (s : State) : getPart (modRing r g s) k = getPart s k := rfl
@[simp] theorem getPart_modSess (k : Nat) (n : Nat) (g : Sess → Sess) (s : State) : getPart (modSess n g s) k = getPart s k := rfl
@[simp] theorem getPart_modFn (k : Nat) (f : Nat) (g : HostFn → HostFn) (s : State) : getPart (modFn f g s) k = getPart s k := rfl
@[simp] theorem getPart_emit (k : Nat) (o : Out) (s : State) : getPart (emit o s) k = getPart s k := rfl
@[simp] theorem getPart_timeTo (k : Nat) (t : Nat) (s : State) : getPart (timeTo t s) k = getPart s k := rfl
@[simp] theorem getTen_modChan (k : Nat) (c : Nat) (g : Chan → Chan) (s : State) : getTen (modChan c g s) k = getTen s k := rfl
@[simp] theorem getTen_modCore (k : Nat) (n : Nat) (g : Core → Core) (s : State) : getTen (modCore n g s) k = getTen s k := rfl
@[simp] theorem getTen_modPart (k : Nat) (p : Nat) (g : Part → Part) (s : State) : getTen (modPart p g s) k = getTen s k := rfl
@[simp] theorem getTen_modRing (k : Nat) (r : Nat) (g : Ring → Ring) (s : State) : getTen (modRing r g s) k = getTen s k := rfl
@[simp] theorem getTen_modSess (k : Nat) (n : Nat) (g : Sess → Sess) (s : State) : getTen (modSess n g s) k = getTen s k := rfl
@[simp] theorem getTen_modFn (k : Nat) (f : Nat) (g : HostFn → HostFn) (s : State) : getTen (modFn f g s) k = getTen s k := rfl
@[simp] theorem getTen_emit (k : Nat) (o : Out) (s : State) : getTen (emit o s) k = getTen s k := rfl
@[simp] theorem getTen_timeTo (k : Nat) (t : Nat) (s : State) : getTen (timeTo t s) k = getTen s k := rfl
@[simp] theorem getRing_modChan (k : Nat) (c : Nat) (g : Chan → Chan) (s : State) : getRing (modChan c g s) k = getRing s k := rfl
@[simp] theorem getRing_modCore (k : Nat) (n : Nat) (g : Core → Core) (s : State) : getRing (modCore n g s) k = getRing s k := rfl
@[simp] theorem getRing_modPart (k : Nat) (p : Nat) (g : Part → Part) (s : State) : getRing (modPart p g s) k = getRing s k := rfl
@[simp] theorem getRing_modTen (k : Nat) (n : Nat) (g : Tenant → Tenant) (s : State) : getRing (modTen n g s) k = getRing s k := rfl
@[simp] theorem getRing_modSess (k : Nat) (n : Nat) (g : Sess → Sess) (s : State) : getRing (modSess n g s) k = getRing s k := rfl
@[simp] theorem getRing_modFn (k : Nat) (f : Nat) (g : HostFn → HostFn) (s : State) : getRing (modFn f g s) k = getRing s k := rfl
@[simp] theorem getRing_emit (k : Nat) (o : Out) (s : State) : getRing (emit o s) k = getRing s k := rfl
@[simp] theorem getRing_timeTo (k : Nat) (t : Nat) (s : State) : getRing (timeTo t s) k = getRing s k := rfl
@[simp] theorem getSess_modChan (k : Nat) (c : Nat) (g : Chan → Chan) (s : State) : getSess (modChan c g s) k = getSess s k := rfl
@[simp] theorem getSess_modCore (k : Nat) (n : Nat) (g : Core → Core) (s : State) : getSess (modCore n g s) k = getSess s k := rfl
@[simp] theorem getSess_modPart (k : Nat) (p : Nat) (g : Part → Part) (s : State) : getSess (modPart p g s) k = getSess s k := rfl
@[simp] theorem getSess_modTen (k : Nat) (n : Nat) (g : Tenant → Tenant) (s : State) : getSess (modTen n g s) k = getSess s k := rfl
@[simp] theorem getSess_modRing (k : Nat) (r : Nat) (g : Ring → Ring) (s : State) : getSess (modRing r g s) k = getSess s k := rfl
@[simp] theorem getSess_modFn (k : Nat) (f : Nat) (g : HostFn → HostFn) (s : State) : getSess (modFn f g s) k = getSess s k := rfl
@[simp] theorem getSess_emit (k : Nat) (o : Out) (s : State) : getSess (emit o s) k = getSess s k := rfl
@[simp] theorem getSess_timeTo (k : Nat) (t : Nat) (s : State) : getSess (timeTo t s) k = getSess s k := rfl
@[simp] theorem getFn_modChan (k : Nat) (c : Nat) (g : Chan → Chan) (s : State) : getFn (modChan c g s) k = getFn s k := rfl
@[simp] theorem getFn_modCore (k : Nat) (n : Nat) (g : Core → Core) (s : State) : getFn (modCore n g s) k = getFn s k := rfl
@[simp] theorem getFn_modPart (k : Nat) (p : Nat) (g : Part → Part) (s : State) : getFn (modPart p g s) k = getFn s k := rfl
@[simp] theorem getFn_modTen (k : Nat) (n : Nat) (g : Tenant → Tenant) (s : State) : getFn (modTen n g s) k = getFn s k := rfl
@[simp] theorem getFn_modRing (k : Nat) (r : Nat) (g : Ring → Ring) (s : State) : getFn (modRing r g s) k = getFn s k := rfl
@[simp] theorem getFn_modSess (k : Nat) (n : Nat) (g : Sess → Sess) (s : State) : getFn (modSess n g s) k = getFn s k := rfl
@[simp] theorem getFn_emit (k : Nat) (o : Out) (s : State) : getFn (emit o s) k = getFn s k := rfl
@[simp] theorem getFn_timeTo (k : Nat) (t : Nat) (s : State) : getFn (timeTo t s) k = getFn s k := rfl

/-- A mailbox that was changed. -/
theorem getBox_modBox_same (m : Nat) (g : Mailbox → Mailbox) (s : State) : getBox (modBox m g s) m = g (getBox s m) := by
  unfold getBox modBox
  by_cases h1 : m = 1
  · simp [h1]
  · by_cases h2 : m = 2
    · simp [h2]
    · simp [h1, h2]

end Sys2Proof.Machine
end

