-- ==== Sys2Proof/Tests/Slice0.lean ====
section
/-!
SUPPORT. The model's own tests: an ill-formed command for each check of WellFormed, tests of single commands against values taken from
spec/, and for each statement that has premises a concrete state and operands that meet them (the theorems named witness).
-/

namespace Sys2Proof.Tests

open Sys2Proof Sys2Proof.Machine

set_option Elab.async false

/-- The outcome is a next state with a property. -/
def holds (o : Host.Outcome State Fault Refusal) (f : State → Bool) : Bool := match o with
  | .next t => f t
  | _ => false

/-! ### Well-formedness -/

/-- A number of a unit beyond the last one, for each kind of unit. -/
def badUnits : List Instr :=
  [.alu 144, .haltComplete 16, .gemv 256, .backgroundTest 64 [], .portSignalDetect 18 0, .bridgeLaneFault 2, .flr 64, .turn 16384,
   .groupTimeout 1024, .groupAtFloor 12, .thermtrip 96 0 0, .buddyAck 0 65536 0, .laneBad 0 8, .targetedTest 8 0 false,
   .targetedTest 3 16 false, .targetedTest 7 18 false, .pageFreed 196608, .packetForward { port := 0, packet := { vc := 4, dst := 0, src := 0, flow := 0 } },
   .packetForward { port := 18, packet := { vc := 0, dst := 0, src := 0, flow := 0 } }]

theorem test_bad_units_refused : badUnits.all (fun i => !i.unitsExist && !i.wellFormed) = true := by decide

/-- An operand out of its range, for each check of operands. -/
def badOperands : List Instr :=
  [.sync 0 4, .sbTimeout 0 5, .registerWrite 0 1 0 4 0, .registerWrite 0 0 0 9 0, .registerWrite 0 0 0 0 0, .claim (.bmc .pcie 256 (List.replicate 16 0)),
   .claim (.bmc .pcie 9 []), .claim (.fm 65536 (List.replicate 16 0)), .claim (.fm 1 []), .getEndpointId (.mctp .pcie 256), .trainFailed 0 7,
   .powerSample [], .diodeCheck []]

theorem test_bad_operands_refused : badOperands.all (fun i => i.unitsExist && !i.operandsOk && !i.wellFormed) = true := by decide

theorem test_wellFormed_accepts : ([.alu 143, .sync 0 3, .registerWrite 0 2 0 8 0, .claim (.fm 1 (List.replicate 16 0)), .trainFailed 17 6] : List Instr).all
    Instr.wellFormed = true := by decide

/-- A command of a unit that does not exist faults by name, and no unit is missing from a command that names one. -/
theorem test_no_such_unit : (match exec (.alu 144) State.reset with
  | .fault (.noSuchUnit "core" 144) => true
  | _ => false) = true := by decide

/-! ### The queue -/

theorem test_front_first : holds (step { State.reset with pending := [.endPart 0, .pcieLinkDown] }) (fun t => t.pending == [.pcieLinkDown]) = true := by
  decide

theorem test_idle : holds (step State.reset) (fun t => t == State.reset) = true := by decide

theorem witness_standing : Standing State.reset.fuse State.reset := by
  exact ⟨by decide, by decide, rfl⟩

theorem witness_memory : Memory.wf State.reset.mem = true := by decide

/-! ### The control core -/

/-- The word of an instruction: opcode, the two register fields, and the sixteen low bits (06 R165). -/
def insn (op a b imm : Nat) : Nat := op * 2 ^ 26 + a * 2 ^ 21 + b * 2 ^ 16 + imm

/-- Core 0 runs at an instruction, with registers 2 and 3 set. -/
def coreAt (w : Nat) (x y : Nat) : State :=
  { State.reset with cores := [(0, { mode := .run, code := leBytes w 4, regs := [(2, BitVec.ofNat 64 x), (3, BitVec.ofNat 64 y)] })] }

/-- A change of core 0. -/
def with0 (f : Core → Core) (s : State) : State := modCore 0 f s

/-- The fetch at core 0 gives a word and changes nothing. -/
def fetched (w : Nat) (s : State) : Bool := match fetchInsn 0 s with
  | .word t v => decide (t = s) && v == w
  | _ => false

theorem fetches_of {w : Nat} {s : State} (h : fetched w s = true) : Fetches 0 w s s := by
  refine ⟨by decide, ?_⟩
  unfold fetched at h
  split at h
  · next t v e => simp only [Bool.and_eq_true, decide_eq_true_eq, beq_iff_eq] at h; rw [e, h.1, h.2]
  · cases h

/-- The words of ALU with rd 1, ra 2 and rb 3. -/
def aluWord (f : Nat) : Nat := insn 1 1 2 (3 * 2048 + f)

theorem witness_alu : ∀ f ∈ List.range 19, Fetches 0 (aluWord f) (coreAt (aluWord f) 5 7) (coreAt (aluWord f) 5 7) ∧ opIs 1 (aluWord f) = true
    ∧ fld (aluWord f) 10 0 = f := fun f h =>
  have k : ∀ f ∈ List.range 19, fetched (aluWord f) (coreAt (aluWord f) 5 7) = true ∧ opIs 1 (aluWord f) = true ∧ fld (aluWord f) 10 0 = f := by
    decide +kernel
  ⟨fetches_of (k f h).1, (k f h).2⟩

/-- Register 1 after ALU with a function on two operands. -/
def aluGives (f x y r : Nat) : Bool :=
  holds (exec (.alu 0) (coreAt (aluWord f) x y)) (fun t => (reg (getCore t 0) 1).toNat == r && (getCore t 0).pc == 4)

/-- 06 R167, worked by hand. -/
theorem test_alu : ([(0, 2 ^ 64 - 1, 2, 1), (1, 1, 2, 2 ^ 64 - 1), (2, 2 ^ 63, 3, 2 ^ 63), (3, 2 ^ 63, 6, 3), (4, 12, 10, 8), (5, 12, 10, 14), (6, 12, 10, 6),
    (7, 3, 65, 6), (8, 2 ^ 63, 63, 1), (9, 2 ^ 63, 63, 2 ^ 64 - 1), (10, 2 ^ 64 - 1, 0, 1), (11, 2 ^ 64 - 1, 0, 0), (12, 2 ^ 64 - 1, 0, 2 ^ 64 - 1),
    (13, 2 ^ 64 - 1, 0, 0), (14, 2 ^ 64 - 1, 0, 0), (15, 2 ^ 64 - 1, 0, 2 ^ 64 - 1), (16, 7, 2, 3), (16, 7, 0, 2 ^ 64 - 1), (17, 7, 4, 3), (17, 7, 0, 7)]
    : List (Nat × Nat × Nat × Nat)).all (fun e => aluGives e.1 e.2.1 e.2.2.1 e.2.2.2) = true := by decide +kernel

/-- 06 R169: an undefined FUNC halts with 0x1120. -/
theorem test_alu_undefined : holds (exec (.insnUndef 0) (coreAt (aluWord 18) 5 7)) (fun t =>
    (getCore t 0).mode == .halted && ((getCore t 0).halt.map (·.code)) == some 0x1120 && reg (getCore t 0) 1 == 0) = true := by decide +kernel

/-- The immediate instructions: opcode, the IMM field, the command, and register 1 with 5 in register 2 (06 R166). -/
def immCases : List (Nat × Nat × Instr × Nat) :=
  [(2, 0xFFFF, .addi 0, 4), (3, 0xFFFC, .andi 0, 4), (4, 0x0010, .ori 0, 21), (5, 0x0001, .xori 0, 4), (6, 63, .shli 0, 2 ^ 63), (7, 1, .shri 0, 2),
   (8, 2, .sari 0, 1), (9, 0xFFFF, .slti 0, 0)]

theorem witness_immediates : ∀ e ∈ immCases, Fetches 0 (insn e.1 1 2 e.2.1) (coreAt (insn e.1 1 2 e.2.1) 5 7) (coreAt (insn e.1 1 2 e.2.1) 5 7)
    ∧ opIs e.1 (insn e.1 1 2 e.2.1) = true := fun e h =>
  have k : ∀ e ∈ immCases, fetched (insn e.1 1 2 e.2.1) (coreAt (insn e.1 1 2 e.2.1) 5 7) = true ∧ opIs e.1 (insn e.1 1 2 e.2.1) = true := by
    decide +kernel
  ⟨fetches_of (k e h).1, (k e h).2⟩

theorem test_immediates : immCases.all (fun e => holds (exec e.2.2.1 (coreAt (insn e.1 1 2 e.2.1) 5 7)) (fun t => (reg (getCore t 0) 1).toNat == e.2.2.2))
    = true := by decide +kernel

/-- MOVZ and MOVK place the sixteen bits at SH (bits [17:16]); rd is the register field a. -/
theorem test_moves : holds (exec (.movz 0) (coreAt (insn 0x0A 1 3 0xABCD) 5 7)) (fun t => (reg (getCore t 0) 1).toNat == 0xABCD000000000000)
    && holds (exec (.movk 0) (coreAt (insn 0x0B 2 1 0xABCD) 0x11112222 7)) (fun t => (reg (getCore t 0) 2).toNat == 0xABCD2222) = true := by decide +kernel

theorem witness_moves : Fetches 0 (insn 0x0A 1 3 1) (coreAt (insn 0x0A 1 3 1) 5 7) (coreAt (insn 0x0A 1 3 1) 5 7)
    ∧ (opIs 0x0A (insn 0x0A 1 3 1) = true ∧ fld (insn 0x0A 1 3 1) 20 18 = 0) ∧ (opIs 0x0B (insn 0x0B 2 1 1) = true ∧ fld (insn 0x0B 2 1 1) 20 18 = 0) :=
  ⟨fetches_of (by decide +kernel), by decide⟩

/-- Address 16 in register 2 with offset −8: address 8 of control memory and of the core store. -/
def memAt (op : Nat) : State := with0 (fun c => { c with cmem := [(8, 0xEE)], store := [(8, 0xEE)] }) (coreAt (insn op 3 2 0xFFF8) 16 7)

theorem witness_loads_stores : ∀ op ∈ [0x0C, 0x0D, 0x0E, 0x0F], Fetches 0 (insn op 3 2 0xFFF8) (memAt op) (memAt op)
    ∧ opIs op (insn op 3 2 0xFFF8) = true ∧ storeCode (getCore (memAt op) 0) 8 8 = none ∧ (8 : Nat) + 8 ≤ (getCore (memAt op) 0).size
    ∧ pbPoison (storeRead 0 8 8 (memAt op)).2 = false ∧ pbPoison (cmemRead 0 8 8 (memAt op)).2 = false := fun op h =>
  have k : ∀ op ∈ [0x0C, 0x0D, 0x0E, 0x0F], fetched (insn op 3 2 0xFFF8) (memAt op) = true ∧ opIs op (insn op 3 2 0xFFF8) = true
      ∧ storeCode (getCore (memAt op) 0) 8 8 = none ∧ (8 : Nat) + 8 ≤ (getCore (memAt op) 0).size
      ∧ pbPoison (storeRead 0 8 8 (memAt op)).2 = false ∧ pbPoison (cmemRead 0 8 8 (memAt op)).2 = false := by decide +kernel
  ⟨fetches_of (k op h).1, (k op h).2⟩

theorem test_loads_stores : holds (exec (.ldc 0) (memAt 0x0C)) (fun t => (reg (getCore t 0) 3).toNat == 0xEE)
    && holds (exec (.lds 0) (memAt 0x0E)) (fun t => (reg (getCore t 0) 3).toNat == 0xEE)
    && holds (exec (.stc 0) (memAt 0x0D)) (fun t => spBytes (getCore t 0).cmem 8 8 == leBytes 7 8)
    && holds (exec (.sts 0) (memAt 0x0F)) (fun t => spBytes (getCore t 0).store 8 8 == leBytes 7 8) = true := by decide +kernel

/-- A poisoned byte of the core store halts a load with 0x1125 and writes no register (06 R169). -/
def poisonedStore : State := with0 (fun c => { c with storeChk := [(8, bytePoison)] }) (memAt 0x0E)

theorem witness_poisoned_load : pbPoison (storeRead 0 8 8 poisonedStore).2 = true := by decide +kernel

theorem test_poisoned_load : holds (exec (.lds 0) poisonedStore) (fun t => (getCore t 0).halt.map (·.code) == some 0x1125
    && (reg (getCore t 0) 3).toNat == 7) = true := by decide +kernel

/-- The branches with ra in register 2 and rb in register 3: opcode, operands, command, taken (06 R166). -/
def branchCases : List (Nat × Nat × Nat × Instr × Bool) :=
  [(0x10, 5, 5, .beq 0, true), (0x10, 5, 7, .beq 0, false), (0x11, 5, 7, .bne 0, true), (0x11, 5, 5, .bne 0, false),
   (0x12, 2 ^ 64 - 1, 0, .blt 0, true), (0x12, 0, 2 ^ 64 - 1, .blt 0, false), (0x13, 0, 2 ^ 64 - 1, .bge 0, true), (0x13, 2 ^ 64 - 1, 0, .bge 0, false),
   (0x14, 0, 2 ^ 64 - 1, .bltu 0, true), (0x14, 2 ^ 64 - 1, 0, .bltu 0, false), (0x15, 2 ^ 64 - 1, 0, .bgeu 0, true), (0x15, 0, 2 ^ 64 - 1, .bgeu 0, false)]

/-- A branch to itself (OFF 0), and one beyond the code (OFF 1 in a code of one instruction). -/
def branchAt (off : Nat) (e : Nat × Nat × Nat × Instr × Bool) : State := coreAt (insn e.1 2 3 off) e.2.1 e.2.2.1

theorem witness_branches : ∀ e ∈ branchCases, ∀ off ∈ [0, 1], Fetches 0 (insn e.1 2 3 off) (branchAt off e) (branchAt off e)
    ∧ opIs e.1 (insn e.1 2 3 off) = true := fun e h off ho =>
  have k : ∀ e ∈ branchCases, ∀ off ∈ [0, 1], fetched (insn e.1 2 3 off) (branchAt off e) = true ∧ opIs e.1 (insn e.1 2 3 off) = true := by
    decide +kernel
  ⟨fetches_of (k e h off ho).1, (k e h off ho).2⟩

theorem test_branches : branchCases.all (fun e =>
    holds (exec e.2.2.2.1 (branchAt 0 e)) (fun t => (getCore t 0).pc == if e.2.2.2.2 then 0 else 4)
    && holds (exec e.2.2.2.1 (branchAt 1 e)) (fun t => (getCore t 0).halt.map (·.code) == if e.2.2.2.2 then some 0x1122 else none)) = true := by
  decide +kernel

/-- JAL to itself and JALR to 4 times its immediate beyond register 2. -/
theorem witness_jumps : Fetches 0 (insn 0x16 1 0 0) (coreAt (insn 0x16 1 0 0) 0 0) (coreAt (insn 0x16 1 0 0) 0 0) ∧ opIs 0x16 (insn 0x16 1 0 0) = true
    ∧ Fetches 0 (insn 0x17 1 2 0) (coreAt (insn 0x17 1 2 0) 0 0) (coreAt (insn 0x17 1 2 0) 0 0) ∧ opIs 0x17 (insn 0x17 1 2 0) = true
    ∧ Fetches 0 (insn 0x17 1 2 1) (coreAt (insn 0x17 1 2 1) 0 0) (coreAt (insn 0x17 1 2 1) 0 0) :=
  ⟨fetches_of (by decide +kernel), by decide, fetches_of (by decide +kernel), by decide, fetches_of (by decide +kernel)⟩

theorem test_jumps : holds (exec (.jal 0) (coreAt (insn 0x16 1 0 0) 0 0)) (fun t => (getCore t 0).pc == 0 && (reg (getCore t 0) 1).toNat == 4)
    && holds (exec (.jalr 0) (coreAt (insn 0x17 1 2 0) 0 0)) (fun t => (getCore t 0).pc == 0 && (reg (getCore t 0) 1).toNat == 4)
    && holds (exec (.jalr 0) (coreAt (insn 0x17 1 2 1) 0 0)) (fun t => (getCore t 0).halt.map (·.code) == some 0x1122) = true := by decide +kernel

/-! ### The push register and the scoreboard -/

/-- Core 0 with a template, events of counter 4 and a completion word of the VE. -/
def pushAt (w x y : Nat) : State := with0 (fun c => { c with
  tmpl := [7, 0x3F], ctrs := [(4, 9)], ve := { slots := [(2, 0x11)] }, size := 0x100000 }) (coreAt w x y)

/-- TPL, PSET, PINS, PADD, WAIT, INCR and SLOT, with register 2 as ra and register 3 as rb. -/
def pWords : List Nat :=
  [insn 0x20 0 2 0, insn 0x21 2 0 1, insn 0x22 2 0 (8 * 256 + 7 * 4), insn 0x23 2 0 (252 * 256 + 3 * 4), insn 0x28 2 0 4, insn 0x29 0 3 63, insn 0x2A 1 2 1]

theorem witness_push_register : ∀ w ∈ pWords, Fetches 0 w (pushAt w 1 5) (pushAt w 1 5) := fun w h =>
  have k : ∀ w ∈ pWords, fetched w (pushAt w 1 5) = true := by decide +kernel
  fetches_of (k w h)

theorem witness_push_fields : opIs 0x20 (insn 0x20 0 2 0) = true ∧ fRd (insn 0x20 0 2 0) = 0 ∧ opIs 0x21 (insn 0x21 2 0 1) = true
    ∧ fld (insn 0x22 2 0 (8 * 256 + 7 * 4)) 20 16 = 0 ∧ opIs 0x23 (insn 0x23 2 0 (252 * 256 + 3 * 4)) = true
    ∧ fld (insn 0x23 2 0 (252 * 256 + 3 * 4)) 15 8 + fld (insn 0x23 2 0 (252 * 256 + 3 * 4)) 7 2 + 1 = 256 ∧ opIs 0x28 (insn 0x28 2 0 4) = true
    ∧ opIs 0x29 (insn 0x29 0 3 63) = true ∧ fld (insn 0x29 0 3 63) 6 6 = 0 ∧ opIs 0x2A (insn 0x2A 1 2 1) = true := by decide

theorem test_push_register :
    holds (exec (.tpl 0) (pushAt (insn 0x20 0 2 0) 1 5)) (fun t => (getCore t 0).p == 0x3F)
    && holds (exec (.pset 0) (pushAt (insn 0x21 2 0 1) 9 5)) (fun t => (getCore t 0).p.toNat == 9 * 2 ^ 32)
    && holds (exec (.pins 0) (pushAt (insn 0x22 2 0 (8 * 256 + 7 * 4)) 0x1FF 5)) (fun t => (getCore t 0).p.toNat == 0xFF00)
    && holds (exec (.padd 0) (with0 (fun c => { c with p := 15 <<< 252 }) (pushAt (insn 0x23 2 0 (252 * 256 + 3 * 4)) 2 5)))
        (fun t => (getCore t 0).p.toNat == 2 ^ 252)
    && holds (exec (.pins 0) (pushAt (insn 0x22 2 0 (252 * 256 + 7 * 4)) 1 5)) (fun t => (getCore t 0).halt.map (·.code) == some 0x1124) = true := by
  decide +kernel

theorem test_scoreboard :
    holds (exec (.wait 0) (pushAt (insn 0x28 2 0 4) 9 5)) (fun t => (getCore t 0).mode == .run && (getCore t 0).pc == 4)
    && holds (exec (.wait 0) (pushAt (insn 0x28 2 0 4) 10 5)) (fun t => (getCore t 0).mode == .waiting 4 10 && (getCore t 0).pc == 0)
    && holds (exec (.incr 0) (pushAt (insn 0x29 0 3 4) 1 5)) (fun t => (ctr (getCore t 0) 4).toNat == 14)
    && holds (exec (.slot 0) (pushAt (insn 0x2A 1 2 1) 66 5)) (fun t => (reg (getCore t 0) 1).toNat == 0x11)
    && holds (exec (.waitResumes 0) (with0 (fun c => { c with mode := .waiting 4 9 }) (pushAt 0 0 0))) (fun t => (getCore t 0).mode == .run)
    && holds (exec (.waitResumes 0) (with0 (fun c => { c with mode := .waiting 4 10 }) (pushAt 0 0 0))) (fun t => (getCore t 0).mode == .waiting 4 10)
    = true := by decide +kernel

theorem witness_wait : (getCore (with0 (fun c => { c with mode := .waiting 4 9 }) (pushAt 0 0 0)) 0).mode = .waiting 4 9
    ∧ 9 ≤ (ctr (getCore (with0 (fun c => { c with mode := .waiting 4 9 }) (pushAt 0 0 0)) 0) 4).toNat := by decide +kernel

/-! ### A device that runs -/

/-- Ready, domains on, link up. -/
def live : State :=
  { State.reset with boot := { State.reset.boot with phase := .ready, domainsOff := false },
                     host := { State.reset.host with perstHigh := true, linkUp := true } }

/-- Partition 3 with core 0 and channel 0: VA 0 maps a Spread page of channel 0 (R, W, ATOM), VA 0x200000 a Pinned one (R, W, SCU). -/
def part3 : Part :=
  { st := .serving, cores := [0], chans := [0],
    ptab := [{ va := 0, bits := 0x200002D }, { va := 0x200000, bits := 0x220001D }] }

/-- The device with partition 3, and core 0 running in it. -/
def kstate (f : Core → Core) : State :=
  { live with parts := [(3, part3)], mem := { live.mem with owner := [(16, .part 3), (17, .part 3)], rowMode := [(17, .pinned)] },
              units := { live.units with scu := [(0, 0)] },
              cores := [(0, f { mode := .run, part := some 3 })] }

/-- Identity 300, with a route through Port 0, which is Up, to devices 77 and 40. -/
def linked : Fabric := { live.fab with ident := 300, assigned := true, routes := [(40, 0x1000001), (77, 0x1000001)], ports := [(0, { st := .up8 })] }

/-- A loop record: space, base, descriptor, levels as stride, dimension and count (06 R147). -/
def lrec (space base desc : Nat) (lv : List (Nat × Nat × Nat)) : List Byte :=
  leBytes (desc * 2 ^ 448 + space * 2 ^ 438 + lv.length * 2 ^ 432 + base * 2 ^ 384
    + ((List.range lv.length).zip lv).foldl (fun a e => a + (e.2.1 * 2 ^ 32 + e.2.2.1 * 2 ^ 24 + e.2.2.2) * 2 ^ (64 * e.1)) 0) 64

/-- A store that holds some runs. -/
def storeOf (l : List (Nat × List Byte)) : Sp Byte := l.foldl (fun m e => spWrite m e.1 e.2) []

/-- A command of a queue: opcode, engine and the fields above. -/
def ecmd (q opc fields : Nat) : QEnt := { cmd := BitVec.ofNat 256 (opc + q * 2 ^ 6 + fields), ordinal := 0 }

/-- An engine's queue in its core. -/
def putEng (q : Nat) (g : Engine) (c : Core) : Core := match q with
  | 0 => { c with me := g }
  | 1 => { c with ve := g }
  | 2 => { c with mv := g }
  | _ => { c with tt := g }

/-- Core 0 with a command at the head of a queue and records in its store. -/
def headed (q : Nat) (e : QEnt) (l : List (Nat × List Byte)) : State :=
  kstate (fun c => putEng q { queue := [e], nextOrd := 1 } { c with store := storeOf l })

/-- The checks of a command reject nothing. -/
def accepted (r : Res EngWork) : Bool := match r with
  | .ok _ (.error _) => false
  | _ => true

theorem accepts_of {body : QEnt → State → Res EngWork} {e : QEnt} {s : State} (h : accepted (body e s) = true) : Accepts body e s := by
  intro t c k
  rw [k] at h
  cases h

/-- The work ends in a completion. -/
def completed (r : Res EngWork) : Bool := match r with
  | .ok _ _ => true
  | _ => false

theorem unstopped_of {body : QEnt → State → Res EngWork} {e : QEnt} {s : State} (h : completed (body e s) = true) : Unstopped body e s := by
  intro t c v k
  rw [k] at h
  cases h

/-! ### The Matrix and Vector Engines -/

/-- MATMUL of one chunk of E4M3 with K = 1 into an FP32 tile (06 R151, R152). -/
def matE : QEnt := ecmd 0 0x01 (0xF000 * 2 ^ 128 + 0xF040 * 2 ^ 148 + 0xF080 * 2 ^ 168 + 3 * 2 ^ 188 + 3 * 2 ^ 193 + 1 * 2 ^ 208)
def matS : State := headed 0 matE
  [(0xF000, lrec 0 0 0 [(0, 0, 1)]), (0xF040, lrec 0 0x2000 0 [(0, 0, 1)]), (0xF080, lrec 0 0x8000 0 [(0, 0, 1)]), (0, [0x38]), (0x2000, [0x40])]

theorem witness_matmul : Starts 0 0 0x01 matE matS ∧ Accepts (matBody 0) matE matS :=
  ⟨⟨by decide, by decide +kernel⟩, accepts_of (by decide +kernel)⟩

/-- ELTWISE ADD over one point of 32 FP32 elements: 1.0 + 2.0 = 3.0, all other elements 0 (06 R154, R463). -/
def eltE : QEnt := ecmd 1 0x01 (0xF000 * 2 ^ 128 + 0xF040 * 2 ^ 148 + 0xF080 * 2 ^ 188 + 1 * 2 ^ 226)
def eltS : State := headed 1 eltE
  [(0xF000, lrec 0 0 0 [(0, 0, 1)]), (0xF040, lrec 0 0x80 0 [(0, 0, 1)]), (0xF080, lrec 0 0x100 0 [(0, 0, 1)]),
   (0, leBytes 0x3F800000 4), (0x80, leBytes 0x40000000 4)]

theorem witness_eltwise : Starts 0 1 0x01 eltE eltS ∧ Accepts (eltBody 0) eltE eltS :=
  ⟨⟨by decide, by decide +kernel⟩, accepts_of (by decide +kernel)⟩

theorem test_eltwise : holds (exec (.eltwise 0) eltS) (fun t => spBytes (getCore t 0).store 0x100 8 == leBytes 0x40400000 8
    && (getCore t 0).ve.queue == [] && (getCore t 0).ve.doneOrd == 1) = true := by decide +kernel

/-- REDUCE MAX of one point whose first elements are 1.0 and −2.0 (06 R155). -/
def redE : QEnt := ecmd 1 0x02 (0xF000 * 2 ^ 128 + 0xF080 * 2 ^ 168 + 3 * 2 ^ 198 + 1 * 2 ^ 201)
def redS : State := headed 1 redE
  [(0xF000, lrec 0 0 0 [(0, 0, 1)]), (0xF080, lrec 0 0x100 0 [(0, 0, 1)]), (0, leBytes 0x3F800000 4 ++ leBytes 0xC0000000 4)]

theorem witness_reduce : Starts 0 1 0x02 redE redS ∧ Accepts (redBody 0) redE redS :=
  ⟨⟨by decide, by decide +kernel⟩, accepts_of (by decide +kernel)⟩

theorem test_reduce : holds (exec (.reduce 0) redS) (fun t => spBytes (getCore t 0).store 0x100 4 == leBytes 0x3F800000 4) = true := by
  decide +kernel

/-- COMBINE SUM of two records of one value, of leaves 0 and 1 of 2: 1.0 + 2.0 (05 R135, 06 R156). -/
def combE : QEnt := ecmd 1 0x03 (0xF000 * 2 ^ 128 + 2 * 2 ^ 148 + 2 * 2 ^ 164 + 1 * 2 ^ 180 + 1 * 2 ^ 196 + 0x100 * 2 ^ 212)
def combS : State := headed 1 combE
  [(0xF000, leBytes (0 + 0 * 2 ^ 20 + 1 * 2 ^ 36) 8 ++ leBytes (0x40 + 1 * 2 ^ 20 + 1 * 2 ^ 36) 8), (0, leBytes 0x3F800000 4), (0x40, leBytes 0x40000000 4)]

theorem witness_combine : Starts 0 1 0x03 combE combS ∧ Accepts (combBody 0) combE combS :=
  ⟨⟨by decide, by decide +kernel⟩, accepts_of (by decide +kernel)⟩

theorem test_combine : holds (exec (.combine 0) combS) (fun t => spBytes (getCore t 0).store 0x100 4 == leBytes 0x40400000 4) = true := by
  decide +kernel

/-- A command that runs leaves everything but its own core's store as it was. -/
theorem witness_stays : ∃ t w, eltBody 0 eltE eltS = .ok t w := by
  have h : completed (eltBody 0 eltE eltS) = true := by decide +kernel
  unfold completed at h
  split at h
  · next t w k => exact ⟨t, w, k⟩
  · cases h

/-! ### The Move Engine and the Turntable -/

/-- MOVE of one run of 8 bytes within the store (06 R158). -/
def moveE : QEnt := ecmd 2 0x01 (0xF000 * 2 ^ 128 + 0xF040 * 2 ^ 148 + 8 * 2 ^ 168)
def moveS : State := headed 2 moveE [(0xF000, lrec 0 0 0 [(0, 0, 1)]), (0xF040, lrec 0 0x100 0 [(0, 0, 1)]), (0, leBytes 0x1122334455667788 8)]

theorem witness_move : Starts 0 2 0x01 moveE moveS ∧ Accepts (moveBody 0) moveE moveS ∧ Unstopped (moveBody 0) moveE moveS :=
  ⟨⟨by decide, by decide +kernel⟩, accepts_of (by decide +kernel), unstopped_of (by decide +kernel)⟩

theorem test_move : holds (exec (.move 0) moveS) (fun t => spBytes (getCore t 0).store 0x100 8 == leBytes 0x1122334455667788 8) = true := by
  decide +kernel

/-- The descriptor of one INT32 element at VA 0 (07 R183). -/
def desc32 : List Byte := leBytes ((1 + 4 * 2 ^ 32) * 2 ^ 128 + 1 * 2 ^ 5 + 0x0D) 128

/-- ATOMIC ADD of 5 to a 32-bit word of memory, with its old value returned (06 R161). -/
def atomE : QEnt := ecmd 2 0x04 (0xF000 * 2 ^ 128 + 0xF040 * 2 ^ 148 + 0xF080 * 2 ^ 188)
def atomS : State := headed 2 atomE
  [(0xF000, lrec 1 0 0xE000 [(0, 0, 1)]), (0xF040, lrec 0 0 0 [(0, 0, 1)]), (0xF080, lrec 0 0x100 0 [(0, 0, 1)]), (0xE000, desc32), (0, leBytes 5 4),
   (0x100, leBytes 9 4)]

theorem witness_atomic : Starts 0 2 0x04 atomE atomS ∧ Accepts (atomicBody 0) atomE atomS ∧ Unstopped (atomicBody 0) atomE atomS :=
  ⟨⟨by decide, by decide +kernel⟩, accepts_of (by decide +kernel), unstopped_of (by decide +kernel)⟩

theorem test_atomic : holds (exec (.atomic 0) atomS) (fun t => spBytes (getCore t 0).store 0x100 4 == leBytes 0 4) = true := by decide +kernel

/-- CMO FLUSH of one line of VA 0 (06 R160). -/
def cmoE : QEnt := ecmd 2 0x03 (1 * 2 ^ 192)

theorem witness_cmo : Starts 0 2 0x03 cmoE (headed 2 cmoE []) ∧ Accepts (cmoBody 0) cmoE (headed 2 cmoE []) :=
  ⟨⟨by decide, by decide +kernel⟩, accepts_of (by decide +kernel)⟩

/-- LAYOUT of two elements of two bytes, the order reversed by a stride of −2 (06 R162). -/
def layE : QEnt := ecmd 3 0x01 (0xF000 * 2 ^ 128 + 0xF040 * 2 ^ 148 + 1 * 2 ^ 168)
def layS : State := headed 3 layE [(0xF000, lrec 0 2 0 [(2 ^ 32 - 2, 0, 2)]), (0xF040, lrec 0 0x100 0 [(2, 0, 2)]), (0, leBytes 0x22221111 4)]

theorem witness_layout : Starts 0 3 0x01 layE layS ∧ Accepts (layoutBody 0) layE layS ∧ Unstopped (layoutBody 0) layE layS :=
  ⟨⟨by decide, by decide +kernel⟩, accepts_of (by decide +kernel), unstopped_of (by decide +kernel)⟩

theorem test_layout : holds (exec (.layout 0) layS) (fun t => spBytes (getCore t 0).store 0x100 4 == leBytes 0x11112222 4) = true := by decide +kernel

/-- SCALE_EXPAND of one BF16 scale to two FP32 places (06 R162). -/
def expE : QEnt := ecmd 3 0x02 (0xF000 * 2 ^ 128 + 0xF040 * 2 ^ 148 + 1 * 2 ^ 168 + 2 * 2 ^ 169)
def expS : State := headed 3 expE [(0xF000, lrec 0 0 0 [(0, 0, 1)]), (0xF040, lrec 0 0x100 0 [(4, 0, 2)]), (0, leBytes 0x3F80 2)]

theorem witness_scale_expand : Starts 0 3 0x02 expE expS ∧ Accepts (expandBody 0) expE expS ∧ Unstopped (expandBody 0) expE expS :=
  ⟨⟨by decide, by decide +kernel⟩, accepts_of (by decide +kernel), unstopped_of (by decide +kernel)⟩

theorem test_scale_expand : holds (exec (.scaleExpand 0) expS) (fun t =>
    spBytes (getCore t 0).store 0x100 8 == leBytes 0x3F800000 4 ++ leBytes 0x3F800000 4) = true := by decide +kernel

/-- A SYNC of the ME completes; one with a nonzero word 4 is rejected with 0x1101 (06 R146). -/
def syncE (x : Nat) : QEnt := ecmd 0 0x3F x

theorem witness_sync : Starts 0 0 0x3F (syncE 0) (headed 0 (syncE 0) []) ∧ (syncE 0).cmd.toNat < 2 ^ 128
    ∧ Starts 0 0 0x3F (syncE (2 ^ 128)) (headed 0 (syncE (2 ^ 128)) []) ∧ 2 ^ 128 ≤ (syncE (2 ^ 128)).cmd.toNat :=
  ⟨⟨by decide, by decide +kernel⟩, by decide +kernel, ⟨by decide, by decide +kernel⟩, by decide +kernel⟩

/-- The work is rejected with a code. -/
def rejected (code : Code) (r : Res EngWork) : Bool := match r with
  | .ok _ (.error k) => k == code
  | _ => false

/-- A MOVE whose level count is 0 is rejected with 0x1104 (06 R147), an access that no page maps stops an ATOMIC before it starts. -/
def badMoveS : State := headed 2 moveE [(0xF000, lrec 0 0 0 []), (0xF040, lrec 0 0x100 0 [(0, 0, 1)])]

theorem witness_rejected : Starts 0 2 0x01 moveE badMoveS ∧ ∃ t, moveBody 0 moveE badMoveS = .ok t (.error 0x1104) := by
  refine ⟨⟨by decide, by decide +kernel⟩, ?_⟩
  have h : rejected 0x1104 (moveBody 0 moveE badMoveS) = true := by decide +kernel
  unfold rejected at h
  split at h
  · next t k e => simp only [beq_iff_eq] at h; exact ⟨t, by rw [e, h]⟩
  · cases h

theorem test_rejected : holds (exec (.move 0) badMoveS) (fun t => (getCore t 0).mv.queue == [moveE] && (getCore t 0).mode == .halted
    && (getCore t 0).halt.map (fun r => (r.code, r.queue, r.part)) == some (0x1104, 2, false)) = true := by decide +kernel

/-! ### Pushes, banks and halts -/

/-- Core 0 at a PUSH to the MV with a SYNC in its push register (06 R163). -/
def pushS (l : List QEnt) : State := kstate (fun c => { c with
  code := leBytes (insn 0x24 0 0 2) 4, p := BitVec.ofNat 256 (0x3F + 2 * 2 ^ 6), mv := { queue := l, nextOrd := l.length } })

theorem witness_push : Fetches 0 (insn 0x24 0 0 2) (pushS []) (pushS []) ∧ opIs 0x24 (insn 0x24 0 0 2) = true
    ∧ pushBad 0 (pushS []) (getCore (pushS []) 0) (insn 0x24 0 0 2) = [] ∧ (getEng (getCore (pushS []) 0) 2).queue.length < 64 :=
  ⟨fetches_of (by decide +kernel), by decide +kernel, by decide +kernel, by decide +kernel⟩

/-- A queue of 64 commands. -/
def fullQueue : List QEnt := List.replicate 64 (ecmd 2 0x3F 0)

theorem witness_push_full : Fetches 0 (insn 0x24 0 0 2) (pushS fullQueue) (pushS fullQueue)
    ∧ pushBad 0 (pushS fullQueue) (getCore (pushS fullQueue) 0) (insn 0x24 0 0 2) = [] ∧ 64 ≤ (getEng (getCore (pushS fullQueue) 0) 2).queue.length :=
  ⟨fetches_of (by decide +kernel), by decide +kernel, by decide +kernel⟩

theorem test_push : holds (exec (.push 0) (pushS [])) (fun t => ((getCore t 0).mv.queue.map (·.cmd.toNat)) == [0x3F + 2 * 2 ^ 6] && (getCore t 0).pc == 4)
    && holds (exec (.push 0) (pushS fullQueue)) (fun t => (getCore t 0).mode == .stalled 2 && (getCore t 0).pc == 0)
    && holds (exec (.pushResumes 0) (with0 (fun c => { c with mode := .stalled 2 }) (pushS []))) (fun t => (getCore t 0).mode == .run
      && (getCore t 0).mv.queue.length == 1) = true := by decide +kernel

theorem witness_push_resumes : (getCore (with0 (fun c => { c with mode := .stalled 2 }) (pushS [])) 0).mode = .stalled 2 := by decide +kernel

/-- A word of BANK (state 2, Off, mask in register 2), ID, MAPCH, END, and one of an undefined opcode. -/
def bankWords : List Nat := [insn 0x2B 2 0 2, insn 0x2C 1 0 4, insn 0x2D 1 2 0, insn 0x2E 0 0 0, insn 0x3E 0 0 0]

/-- Core 0 of a kernel with one logical channel, logical core 0. -/
def kernS (w x : Nat) : State :=
  { kstate (fun c => { c with code := leBytes w 4, regs := [(2, BitVec.ofNat 64 x)], size := 0x80000 }) with
    parts := [(3, { part3 with launches := 6, kernel := some { image := { lchannels := 1 }, cores := [0], chans := [0] } })] }

theorem witness_bank_words : ∀ w ∈ bankWords, Fetches 0 w (kernS w 0) (kernS w 0) := fun w h =>
  have k : ∀ w ∈ bankWords, fetched w (kernS w 0) = true := by decide +kernel
  fetches_of (k w h)

theorem witness_bank_fields : opIs 0x2B (insn 0x2B 2 0 2) = true ∧ fld (insn 0x2B 2 0 2) 1 0 ≠ 3 ∧ enginesIdle (getCore (kernS 0 0) 0) = true
    ∧ opIs 0x2C (insn 0x2C 1 0 4) = true ∧ fRa (insn 0x2C 1 0 4) = 0 ∧ fImm (insn 0x2C 1 0 9) = 9 ∧ opIs 0x2D (insn 0x2D 1 2 0) = true
    ∧ physChan (kernS 0 0) 0 0 = some 0 ∧ physChan (kernS 0 0) 0 1 = none ∧ opIs 0x2E (insn 0x2E 0 0 0) = true
    ∧ fld (insn 0x2E 0 0 0) 25 0 = 0 ∧ opDefined (insn 0x3E 0 0 0) = false := by decide +kernel

theorem test_bank_words :
    holds (exec (.bank 0) (kernS (insn 0x2B 2 0 2) 0x80000000)) (fun t => (getCore t 0).bankReqs.map (fun r => (r.mask, r.st)) == [(0x80000000, .off)])
    && holds (exec (.idSel 0) (kernS (insn 0x2C 1 0 4) 0)) (fun t => (reg (getCore t 0) 1).toNat == 6)
    && holds (exec (.idSel 0) (kernS (insn 0x2C 1 0 9) 0)) (fun t => (getCore t 0).halt.map (·.code) == some 0x1124)
    && holds (exec (.mapch 0) (kernS (insn 0x2D 1 2 0) 0)) (fun t => (reg (getCore t 0) 1).toNat == 0 && (getCore t 0).pc == 4)
    && holds (exec (.mapch 0) (kernS (insn 0x2D 1 2 0) 1)) (fun t => (getCore t 0).halt.map (·.code) == some 0x1123)
    && holds (exec (.endPart 0) (kernS (insn 0x2E 0 0 0) 0)) (fun t => (getCore t 0).mode == .ended)
    && holds (exec (.insnUndef 0) (kernS (insn 0x3E 0 0 0) 0)) (fun t => (getCore t 0).halt.map (·.code) == some 0x1120) = true := by decide +kernel

theorem witness_frame : ∃ u, exec (.addi 0) (coreAt (insn 2 1 2 1) 5 7) = .next u ∧ (getCore u 0).mode = .run :=
  have h : holds (exec (.addi 0) (coreAt (insn 2 1 2 1) 5 7)) (fun t => (getCore t 0).mode == .run) = true := by decide +kernel
  by
    unfold holds at h
    split at h
    · next t k => exact ⟨t, k, by simpa using h⟩
    · cases h

/-- A bank change that waits, and one whose earlier commands have completed: bank 31 of a store of 512 KiB. -/
def bankS (after : Nat) : State := kstate (fun c => { c with
  bankReqs := [{ mask := 0x80000000, st := .off, after := [after, 0, 0, 0] }], me := { queue := [syncE 0], nextOrd := 1 } })

theorem witness_bank_effect : (getCore (bankS 0) 0).bankReqs = [{ mask := 0x80000000, st := .off, after := [0, 0, 0, 0] }]
    ∧ (getCore (bankS 0) 0).mode ≠ .halted ∧ (∀ q, q < 4 → (([0, 0, 0, 0] : List Nat)[q]?).getD 0 ≤ (getEng (getCore (bankS 0) 0) q).doneOrd) := by
  refine ⟨by decide +kernel, by decide +kernel, ?_⟩
  decide +kernel

/-- A command behind a change, one before it, and a change that still waits. -/
theorem witness_bank_order : (getEng (getCore (bankS 0) 0) 0).queue = [syncE 0] ∧ (∃ r ∈ (getCore (bankS 0) 0).bankReqs, (r.after[0]?).getD 0 ≤ (syncE 0).ordinal)
    ∧ (∀ r ∈ (getCore (bankS 1) 0).bankReqs, (syncE 0).ordinal < (r.after[0]?).getD 0) ∧ engActive (getCore (bankS 1) 0) = true
    ∧ waitsMet (getCore (bankS 1) 0) (syncE 0).cmd.toNat = true ∧ (getEng (getCore (bankS 1) 0) 0).doneOrd < ((([1, 0, 0, 0] : List Nat)[0]?).getD 0) := by
  decide +kernel

theorem test_bank_effect : holds (exec (.bankStateEffect 0) (bankS 0)) (fun t => bankState (getCore t 0) 31 == .off && bankState (getCore t 0) 30 == .on
    && (getCore t 0).bankReqs == []) && holds (exec (.bankStateEffect 0) (bankS 1)) (fun t => decide (t = bankS 1)) = true := by decide +kernel

/-- A command that waits for counter 1 to reach 5 (06 R144). -/
def waitE : QEnt := ecmd 0 0x3F (1 * 2 ^ 8 + 1 * 2 ^ 9 + 5 * 2 ^ 64)

theorem witness_core_events : (getEng (getCore (headed 0 waitE []) 0) 0).queue = [waitE] ∧ engActive (getCore (headed 0 waitE []) 0) = true
    ∧ waitsMet (getCore (headed 0 waitE []) 0) waitE.cmd.toNat = false
    ∧ (getCore (kstate (fun c => { c with mode := .waiting 1 5 })) 0).mode = .waiting 1 5
    ∧ (getCore (kstate (fun c => { c with mode := .counted })) 0).mode = .counted ∧ enginesIdle (getCore (kstate (fun c => { c with mode := .counted })) 0) = true := by
  decide +kernel

/-- A kernel of partition 3 on core 0 that halts because of logical core 2. -/
def haltingS (f : Core → Core) : State :=
  { kstate f with parts := [(3, { part3 with kernel := some { image := {}, cores := [0], chans := [], halting := some (0x1130, 2) } })] }

theorem witness_halt_notice : (coreKernel (haltingS id) 0).bind (·.halting) = some (0x1130, 2) := by decide +kernel

theorem test_core_events :
    holds (exec (.sbTimeout 0 0) (headed 0 waitE [])) (fun t => (getCore t 0).halt.map (fun r => (r.code, r.queue)) == some (0x1113, 0))
    && holds (exec (.sbTimeout 0 4) (kstate (fun c => { c with mode := .waiting 1 5 }))) (fun t => (getCore t 0).halt.map (·.code) == some 0x1113)
    && holds (exec (.stopCount 0) (kstate (fun c => { c with mode := .counted }))) (fun t => (getCore t 0).halt.map (·.code) == some 0x0110)
    && holds (exec (.haltNotice 0) (haltingS id)) (fun t => (getCore t 0).halt.map (fun r => (r.code, r.faultVa)) == some (0x1140, 2)) = true := by
  decide +kernel

theorem witness_halt_complete : (getPart (haltingS (fun c => { c with mode := .halted })) 3).kernel.bind (·.halting) = some (0x1130, 2)
    ∧ (∀ n ∈ [0], (getCore (haltingS (fun c => { c with mode := .halted })) n).mode = .halted
      ∧ inProgress (getCore (haltingS (fun c => { c with mode := .halted })) n) = false) ∧ scuBusy (haltingS (fun c => { c with mode := .halted })) 3 = false := by
  decide +kernel

theorem test_halt_complete : holds (exec (.haltComplete 3) (haltingS (fun c => { c with mode := .halted }))) (fun t => (getPart t 3).st == .halted
    && (getPart t 3).kernel == none) = true := by decide +kernel

/-- A Halted partition with its halted core. -/
def haltedS : State :=
  { live with parts := [(3, { part3 with st := .halted })], cores := [(0, { mode := .halted, part := some 3 })] }

theorem witness_counters : frozen (kstate id) 0 = false ∧ (ctr (getCore (kstate id) 0) 5).toNat + 7 < 2 ^ 32
    ∧ frozen (kstate (fun c => { c with ctrs := [(5, 0xFFFFFFFF)] })) 0 = false
    ∧ 2 ^ 32 ≤ (ctr (getCore (kstate (fun c => { c with ctrs := [(5, 0xFFFFFFFF)] })) 0) 5).toNat + 1 ∧ frozen haltedS 0 = true := by decide +kernel

/-! ### SCU commands -/

/-- A record of an SCU command with its status at VA 0x200000 (04 R91). -/
def scuRec (op fields : Nat) : BitVec 512 := BitVec.ofNat 512 (op + 0x200000 * 2 ^ 64 + fields)

/-- DISPATCH of one STATUS record to channel 0 (06 R159). -/
def dispE : QEnt := ecmd 2 0x02 (0xF000 * 2 ^ 128 + 1 * 2 ^ 148)
def dispS : State := headed 2 dispE [(0xF000, leBytes (scuRec 0x0E 0).toNat 64)]

theorem witness_dispatch : Starts 0 2 0x02 dispE dispS ∧ dispatchCodes dispS 0 dispE.cmd.toNat = []
    ∧ loadRecs 0 (fld dispE.cmd.toNat 147 128) (fld dispE.cmd.toNat 153 148) dispS = (dispS, [((scuRec 0x0E 0).toNat, false)])
    ∧ ([((scuRec 0x0E 0).toNat, false)]).flatMap (fun r => recCodes dispS 0 r.1) = [] :=
  ⟨⟨by decide, by decide +kernel⟩, by decide +kernel, by decide +kernel, by decide +kernel⟩

theorem test_dispatch : holds (exec (.dispatch 0) dispS) (fun t => (getChan t 0).queue.map (·.record) == [scuRec 0x0E 0] && (getChan t 0).seq == 1
    && (getCore t 0).mv.queue == []) = true := by decide +kernel

/-- A held dispatch: its head has waited. -/
def heldE : QEnt := { dispE with waited := true }
def heldS : State := headed 2 heldE [(0xF000, leBytes (scuRec 0x0E 0).toNat 64)]

theorem witness_dispatch_wait : (getCore heldS 0).mv.queue = [heldE] ∧ heldE.waited = true
    ∧ loadRecs 0 (fld heldE.cmd.toNat 147 128) (fld heldE.cmd.toNat 153 148) heldS = (heldS, [((scuRec 0x0E 0).toNat, false)]) :=
  ⟨by decide +kernel, by decide, by decide +kernel⟩

/-- Channel 0 with an accepted command of core 0 in partition 3. -/
def scuE (op fields : Nat) (data : List Byte) : ScuEnt :=
  { record := scuRec op fields, part := 3, core := 0, rank := 0, nTargets := 1, recIdx := 0, ctr := some 4, cmd := 0, ordinal := 0, data := data,
    dataPoison := List.replicate data.length false, targets := [0], seq := 1 }
def scuS (op fields : Nat) (data : List Byte) : State := { kstate id with chans := [(0, { queue := [scuE op fields data], seq := 1 })] }

/-- FILL, COPY, CONVERT FP32 to BF16, ELEM SCALE, GATHER of one row, GEMV of one row and element in E4M3, and an ATTN of no page here. -/
def fillF : Nat := 0x200040 * 2 ^ 320 + 1 * 2 ^ 384
def copyF : Nat := 0x200040 * 2 ^ 256 + 0x200080 * 2 ^ 320 + 1 * 2 ^ 384
def convF : Nat := 0x200040 * 2 ^ 256 + 1 * 2 ^ 304 + 0x200100 * 2 ^ 320 + 1 * 2 ^ 368
def elemF : Nat := 0x200040 * 2 ^ 256 + 1 * 2 ^ 304 + 3 * 2 ^ 368 + 0x200100 * 2 ^ 384 + 0x40000000 * 2 ^ 448
def gathF : Nat := 0x200400 * 2 ^ 128 + 2 * 2 ^ 232 + 0x200040 * 2 ^ 256 + 1 * 2 ^ 304 + 1 * 2 ^ 320 + 4 * 2 ^ 352 + 1 * 2 ^ 404 + 1 * 2 ^ 417
def gemvF : Nat := 3 * 2 ^ 8 + 0x200400 * 2 ^ 128 + 1 * 2 ^ 232 + 0x200040 * 2 ^ 256 + 1 * 2 ^ 304 + 1 * 2 ^ 384 + 1 * 2 ^ 400 + 1 * 2 ^ 463 * 0 + 1 * 2 ^ 480
def attnF : Nat := 3 * 2 ^ 8 + 0x200400 * 2 ^ 128 + 32 * 2 ^ 232 + 1 * 2 ^ 276 + 1 * 2 ^ 288 + 1 * 2 ^ 342 + 1 * 2 ^ 347 + 1 * 2 ^ 368 + 1 * 2 ^ 416
def attnData : List Byte := List.replicate 256 0 ++ leBytes 0x21 4

/-- The command heads its channel's queue and its checks find nothing. -/
def scuOk (op fields : Nat) (data : List Byte) (check : State → ScuEnt → List Code) : Bool :=
  decide ((getChan (scuS op fields data) 0).queue.head? = some (scuE op fields data)) && decide (rOp (scuE op fields data).record.toNat = op)
  && scuOn (scuS op fields data) 0
  && decide (scuRange (scuS op fields data) 3 0 needSw (statusVa (scuE op fields data)) 64 ++ check (scuS op fields data) (scuE op fields data) = [])

theorem scu_of {op fields : Nat} {data : List Byte} {check : State → ScuEnt → List Code} (h : scuOk op fields data check = true) :
    ScuStarts 0 op (scuE op fields data) (scuS op fields data) ∧ ScuAccepts 0 check (scuE op fields data) (scuS op fields data) := by
  simp only [scuOk, Bool.and_eq_true, decide_eq_true_eq] at h
  exact ⟨⟨by decide, h.1.1.1, h.1.1.2, h.1.2⟩, h.2⟩

theorem witness_gemv : ScuStarts 0 1 (scuE 1 gemvF (leBytes 0x3F800000 4)) (scuS 1 gemvF (leBytes 0x3F800000 4))
    ∧ ScuAccepts 0 (gemvCheck 0) (scuE 1 gemvF (leBytes 0x3F800000 4)) (scuS 1 gemvF (leBytes 0x3F800000 4)) := scu_of (by decide +kernel)
theorem witness_gather : ScuStarts 0 3 (scuE 3 gathF (leBytes 0 4 ++ leBytes 1 2)) (scuS 3 gathF (leBytes 0 4 ++ leBytes 1 2))
    ∧ ScuAccepts 0 (gatherCheck 0) (scuE 3 gathF (leBytes 0 4 ++ leBytes 1 2)) (scuS 3 gathF (leBytes 0 4 ++ leBytes 1 2)) := scu_of (by decide +kernel)
theorem witness_copy : ScuStarts 0 4 (scuE 4 copyF ([])) (scuS 4 copyF ([]))
    ∧ ScuAccepts 0 (scuCopyCheck 0) (scuE 4 copyF ([])) (scuS 4 copyF ([])) := scu_of (by decide +kernel)
theorem witness_fill : ScuStarts 0 5 (scuE 5 fillF (List.replicate 64 0x5A)) (scuS 5 fillF (List.replicate 64 0x5A))
    ∧ ScuAccepts 0 (scuFillCheck 0) (scuE 5 fillF (List.replicate 64 0x5A)) (scuS 5 fillF (List.replicate 64 0x5A)) := scu_of (by decide +kernel)
theorem witness_convert : ScuStarts 0 6 (scuE 6 convF ([])) (scuS 6 convF ([]))
    ∧ ScuAccepts 0 (convCheck 0) (scuE 6 convF ([])) (scuS 6 convF ([])) := scu_of (by decide +kernel)
theorem witness_elem : ScuStarts 0 7 (scuE 7 elemF ([])) (scuS 7 elemF ([]))
    ∧ ScuAccepts 0 (elemCheck 0) (scuE 7 elemF ([])) (scuS 7 elemF ([])) := scu_of (by decide +kernel)
theorem witness_status : ScuStarts 0 0x0E (scuE 0x0E 0 ([])) (scuS 0x0E 0 ([]))
    ∧ ScuAccepts 0 (fun _ _ => []) (scuE 0x0E 0 ([])) (scuS 0x0E 0 ([])) := scu_of (by decide +kernel)
theorem witness_fence : ScuStarts 0 0x0F (scuE 0x0F 0 ([])) (scuS 0x0F 0 ([]))
    ∧ ScuAccepts 0 (fun _ _ => []) (scuE 0x0F 0 ([])) (scuS 0x0F 0 ([])) := scu_of (by decide +kernel)

/-- A FILL of a page that nothing maps is rejected with 0x2150. -/
theorem witness_scu_rejected : lowest (scuRange (scuS 5 (0x400000 * 2 ^ 320 + 1 * 2 ^ 384) []) 3 0 needSw 0x200000 64
    ++ scuFillCheck 0 (scuS 5 (0x400000 * 2 ^ 320 + 1 * 2 ^ 384) []) (scuE 5 (0x400000 * 2 ^ 320 + 1 * 2 ^ 384) [])) = some 0x2150 := by decide +kernel

/-- FILL writes its pattern, and its ready bit counts at the core (04 R88, R101). -/
theorem test_fill : holds (exec (.scuFill 0) (scuS 5 fillF (List.replicate 64 0x5A))) (fun t =>
    pbData (scuRead t 3 0x200040 8) == List.replicate 8 0x5A && (ctr (getCore t 0) 4).toNat == 1 && (getChan t 0).queue == []) = true := by
  decide +kernel

/-- GEMV of 1.0 by a weight of 0: +0. -/
theorem test_gemv : holds (exec (.gemv 0) (scuS 1 gemvF (leBytes 0x3F800000 4))) (fun t => (getChan t 0).queue == []
    && pbData (scuRead t 3 0x200400 4) == leBytes 0 4) = true := by decide +kernel

theorem test_refresh : holds (exec (.refresh 0) (scuS 0x0F 0 [])) (fun t => (getChan t 0).refPauses == 1) = true := by decide +kernel

/-- ATTN of one page on channel 0: one head of width 64, one query of zeros (04 R97). -/
theorem witness_attn : ScuStarts 0 2 (scuE 2 attnF attnData) (scuS 2 attnF attnData)
    ∧ ScuAccepts 0 (attnCheck 0) (scuE 2 attnF attnData) (scuS 2 attnF attnData) := scu_of (by decide +kernel)

/-! ### Steps -/

/-- A model of four tokens without KV, in one image on one core. -/
def model3 : Model := { vocab := 4, images := [{ lcores := 1, code := leBytes (insn 0x2E 0 0 0) 4 }] }

/-- Session 1 of tenant 5 in partition 3, with an open request of two input tokens, and its rings 8 and 9. -/
def sess1 : Sess := { st := .queued, part := 3, tenant := 5, opened := true, compRing := 9, logCap := 64, log := [1, 2], work := { inputs := [1, 2], generate := true } }
def ring8 : Ring := { st := .enabled, tenant := 5, part := 3, pair := 9, base := 0x2000000, doorbell := 1 }
def ring9 : Ring := { st := .enabled, completion := true, tenant := 5, part := 3, base := 0x10000 }

/-- The device serving partition 3. -/
def serving (f : Part → Part) (x : Sess) : State :=
  { kstate id with cores := [], parts := [(3, f { part3 with model := some model3 })], tens := [(5, { rate := 10, burst := 100, bal := 50 })],
                   sess := [(1, x)], rings := [(8, ring8), (9, ring9)] }

theorem witness_step_launch : canLaunch (serving id sess1) 3 = true ∧ candidates (queueDrafts 3 (readForStep 3 (serving id sess1))) 3 = [1]
    ∧ canLaunch (serving (fun p => { p with st := .halted }) sess1) 3 = false
    ∧ candidates (queueDrafts 3 (readForStep 3 (serving id { sess1 with opened := false }))) 3 = []
    ∧ workSick (serving id sess1) 3 = false ∧ imageOf (getPart (serving id sess1) 3) = some { lcores := 1, code := leBytes (insn 0x2E 0 0 0) 4 } := by decide +kernel

/-- One PREFILL entry of two rows is placed, and its kernel runs core 0. -/
theorem test_step_launch : holds (exec (.stepLaunch 3) (serving id sess1)) (fun t =>
    ((getPart t 3).step.map (fun x => x.entries.map (fun e => (e.kind, e.rows, e.last)))) == some [(.prefill, 2, true)] && (getPart t 3).stepNo == 1
    && (getCore t 0).mode == .run && (getTen t 5).bal == 48) = true := by decide +kernel

/-- The device serving partition 3 when every channel has failed: wherever Config.reservePtr puts the working state, it is poisoned (12 R337). -/
def deadS (f : Part → Part) : State := { serving f sess1 with chans := (List.range 256).map (fun c => (c, { failed := true })) }

theorem idx_some (x : Nat) (h : x < 256) : ∃ i, indexOf x (List.range 256) = some i := by
  have : ∀ x, x < 256 → (indexOf x (List.range 256)).isSome = true := by decide +kernel
  exact Option.isSome_iff_exists.mp (this x h)

theorem healthy_all (s : State) (h1 : s.units.chan = []) : healthy s = List.range 256 := by
  unfold healthy; rw [h1]; decide +kernel

theorem range_getD_lt (n k : Nat) (h : 0 < n) : ((List.range n)[k]?).getD 0 < n := by
  rcases Nat.lt_or_ge k n with hk | hk
  · rw [List.getElem?_range hk]; exact hk
  · rw [List.getElem?_eq_none (by simpa using hk)]; exact h

theorem place_lt (n i x : Nat) (h : 0 < n) : (spreadPlace (List.range n) i x).1 < n := range_getD_lt n _ h

theorem lineSick_of (s : State) (h1 : s.units.chan = []) (h2 : ∀ c, c < 256 → (getChan s c).failed = true) (d : Nat)
    (hd : d < 256 * 0x60000000) (hr : rowOf (pageOf d) < 16) : lineSick s (d / 64) = true := by
  have hp : pageOf (d / 64 * 64) = pageOf d := by unfold pageOf; omega
  have hlt : homeOf (pageOf d) < 256 := by unfold homeOf pageOf; omega
  obtain ⟨i, hi⟩ := idx_some _ hlt
  have hm : Machine.mem (homeOf (pageOf d)) (List.range 256) = true := by
    unfold Machine.mem; simp only [List.any_eq_true, beq_iff_eq, List.mem_range]; exact ⟨_, hlt, rfl⟩
  obtain ⟨c, o, hl, hc⟩ : ∃ c o, locate s (d / 64 * 64) = some (c, o) ∧ c < 256 := by
    refine ⟨_, rowOf (pageOf d) * 0x200000 + (spreadPlace (List.range 256) i (d / 64 * 64 % 0x200000)).2, ?_, place_lt 256 i (d / 64 * 64 % 0x200000) (by decide)⟩
    have hs : pagePinned s (pageOf d) = false := by unfold pagePinned rowModeOf; rw [if_pos hr]; rfl
    have hn : ¬ rowModeOf s (rowOf (pageOf d)) = .pinned := by unfold rowModeOf; rw [if_pos hr]; decide
    unfold locate
    simp only [hp, hs, healthy_all s h1, locateIn, hm, if_neg hn, hi, Option.map_some, if_true, Bool.false_eq_true, if_false]
  unfold lineSick
  rw [hl]
  simp only [h2 _ hc, Bool.true_or]

theorem workSick_of (s : State) (p : Nat) (h1 : s.units.chan = []) (h2 : ∀ c, c < 256 → (getChan s c).failed = true) (h3 : allSound s = false) :
    workSick s p = true := by
  unfold workSick reserveSick
  rw [h3]
  have : List.range ((64 + 63) / 64) = [0] := by decide
  rw [this]
  simp only [List.any_cons, List.any_nil, Bool.or_false, Bool.not_false, Bool.true_and]
  apply lineSick_of s h1 h2
  · unfold reserveDpa reserveSize; omega
  · unfold rowOf pageOf reserveDpa reserveSize; omega

/-- What building places there, and the state in which the step would be launched. -/
def deadBuild : State × Build := ([1] : List Nat).foldl (fun acc n => considerOne 3 n acc) (deadS id, {})
def deadGoes : State := modPart 3 (fun pt => { pt with stepNo := 1, step := some { no := 0, entries := withRows 0 (sortBy entryLe deadBuild.2.entries), tLaunch := 0 } })
  (writeTimetable 3 0 (withRows 0 (sortBy entryLe deadBuild.2.entries)) deadBuild.1).1

theorem witness_step_sick : canLaunch (deadS id) 3 = true ∧ candidates (queueDrafts 3 (readForStep 3 (deadS id))) 3 = [1]
    ∧ deadBuild.2.entries ≠ [] ∧ (imageOf (getPart deadGoes 3)).isSome = true ∧ workSick deadGoes 3 = true :=
  ⟨by decide +kernel, by decide +kernel, by decide +kernel, by decide +kernel, workSick_of _ _ (by decide +kernel) (by decide +kernel) (by decide +kernel)⟩

/-- A step whose kernel is over at its core, and one whose kernel has ended. -/
def stepOf (done : Bool) : Step :=
  { no := 0, tLaunch := 0, ended := done, entries := [{ sess := 1, kind := .prefill, rows := 2, ctx := 0, last := true, inputs := [1, 2] }] }
def kernelS (diag : Bool) (st : Option Step) (m : CoreMode) : State :=
  { serving (fun p => { p with step := st, kernel := some { image := {}, cores := [0], chans := [], diag := diag } }) sess1 with
    cores := [(0, { mode := m, part := some 3 })] }

theorem witness_kernel_end : ∀ e ∈ [(true, none), (false, none), (false, some (stepOf false))],
    (∃ k, (getPart (kernelS e.1 e.2 .ended) 3).kernel = some k ∧ k.halting = none ∧ k.cores = [0] ∧ k.diag = e.1)
    ∧ ((getCore (kernelS e.1 e.2 .ended) 0).mode = .ended ∧ enginesIdle (getCore (kernelS e.1 e.2 .ended) 0) = true)
    ∧ scuBusy (kernelS e.1 e.2 .ended) 3 = false ∧ (getPart (kernelS e.1 e.2 .ended) 3).coll = []
    ∧ (nextColl 3 (kernelS e.1 e.2 .ended)).isNone = true ∧ (getPart (kernelS e.1 e.2 .ended) 3).step = e.2 := by
  intro e h
  refine ⟨⟨{ image := {}, cores := [0], chans := [], diag := e.1 }, ?_, rfl, rfl, rfl⟩, ?_⟩
  · fin_cases h <;> decide +kernel
  · fin_cases h <;> decide +kernel

theorem test_kernel_end : holds (exec (.kernelEnd 3) (kernelS false none .run)) (fun t => (getPart t 3).kernel.isSome)
    && holds (exec (.kernelEnd 3) (kernelS false none .ended)) (fun t => (getPart t 3).kernel.isNone && (getCore t 0).mode == .idle)
    && holds (exec (.kernelEnd 3) (kernelS false (some (stepOf false)) .ended)) (fun t => ((getPart t 3).step.map (·.ended)) == some true
      && (getSess t 1).committed == 2) = true := by decide +kernel

/-- The step after its kernel, with its LOGITS area mapped. -/
def endedS (next : Nat) : State := serving (fun p => { p with step := some { stepOf true with next := next } }) sess1

theorem witness_points : ((getPart (endedS 0) 3).step.map (fun st => nextSampled st.entries st.next)) = some (some 0)
    ∧ ((getPart (endedS 1) 3).step.map (fun st => nextSampled st.entries st.next)) = some none
    ∧ readForStep 3 (endedS 0) = endedS 0 ∧ workSick (endedS 0) 3 = false := by decide +kernel

theorem witness_points_sick : ((getPart (deadS (fun p => { p with step := some (stepOf true) })) 3).step.map (·.ended)) = some true
    ∧ workSick (readForStep 3 (deadS (fun p => { p with step := some (stepOf true) }))) 3 = true :=
  ⟨by decide +kernel, workSick_of _ _ (by decide +kernel) (by decide +kernel) (by decide +kernel)⟩

theorem test_points_over : holds (exec (.pointsDecide 3) (endedS 1)) (fun t => (getPart t 3).step.isNone && (getPart t 3).stepRecs.length == 1) = true := by
  decide +kernel

theorem witness_overrun : ((getPart (kernelS false (some (stepOf false)) .run) 3).step.map (·.ended)) = some false
    ∧ ((getCore ({ live with cores := [(0, { mode := .halted, part := some 3, halt := some { haltBase live 0 0x1150 with code := 0x1150 } })] } : State) 0).halt.map
      (·.code)) = some 0x1150 ∧ unitPresent live.units.core 0 = true := by decide +kernel

theorem test_overrun : holds (exec (.stepOverrun 3) (kernelS false (some (stepOf false)) .run)) (fun t => (getPart t 3).st == .halted) = true := by
  decide +kernel

theorem test_isolated : holds (exec (.coreIsolated 0) { live with cores := [(0, { mode := .halted, halt := some (haltBase live 0 0x1150) })] })
    (fun t => unitPresent t.units.core 0 == false && getCore t 0 == darkCore) = true := by
  decide +kernel

/-- 09 R249: 10 × MIN(BAL + RATE, BURST), with a TEN command's values from this boundary on. -/
def tensS : State := { live with tens := [(5, { rate := 10, burst := 100, bal := 95 }), (6, { rate := 10, burst := 100, bal := -50, next := some (7, 20) })] }

theorem witness_epoch : (tensS.tens.map (·.1)).Nodup := by decide

theorem test_epoch : holds (exec .epochRefill tensS) (fun t => (getTen t 5).bal == 100 && (getTen t 6).bal == -43 && (getTen t 6).burst == 20
    && t.epoch == 1 && t.ftime == 1000000) = true := by decide +kernel

/-! ### Rings -/

/-- A TURN entry of session 1: GENERATE, INLINE, two tokens, MAX_NEW 4 (09 R240). -/
def turnV : Nat := 1 + 1 * 2 ^ 8 + 1 * 2 ^ 9 + 1 * 2 ^ 16 + 2 * 2 ^ 32 + 0x77 * 2 ^ 64 + 4 * 2 ^ 192 + 1 * 2 ^ 320 + 3 * 2 ^ 352

/-- Partition 3 with an entry in ring 8. -/
def ringS (v : Nat) (x : Sess) : State := dpaWrite 0x2000000 (pbOf false (leBytes v 64)) (serving id x)

/-- The entry that a ring holds. -/
def entryIs (v : Nat) (s : State) : Bool := match nextEntry 8 s with
  | some (_, w, poison) => w == v && !poison
  | none => false

theorem entry_of {v : Nat} {s : State} (h : entryIs v s = true) : ∃ s1, nextEntry 8 s = some (s1, v, false) := by
  unfold entryIs at h
  split at h
  · next s1 w p e => simp only [Bool.and_eq_true, beq_iff_eq, Bool.not_eq_true'] at h; exact ⟨s1, by rw [e, h.1, h.2]⟩
  · cases h

def idle1 : Sess := { sess1 with st := .idle, opened := false, log := [], work := {} }

theorem witness_turn : (∃ s1, nextEntry 8 (ringS turnV idle1) = some (s1, turnV, false)) ∧ fld turnV 7 0 ≠ 2
    ∧ turnFirst (ringS turnV idle1) 8 turnV false = none ∧ (turnInputs 3 turnV (ringS turnV idle1)).2 = some [1, 3]
    ∧ turnFirst (ringS turnV sess1) 8 turnV false = some 0x4104 ∧ (getSess (ringS turnV { idle1 with logCap := 1 }) 1).logCap < 0 + 2 :=
  ⟨entry_of (by decide +kernel), by decide +kernel⟩

theorem test_turn : holds (exec (.turn 8) (ringS turnV idle1)) (fun t => (getSess t 1).opened && (getSess t 1).st == .queued
      && (getSess t 1).userTag == 0x77 && (getRing t 8).consumed == 1)
    && holds (exec (.turn 8) (ringS turnV { idle1 with logCap := 1 })) (fun t => !(getSess t 1).opened && (getRing t 9).posted == 1)
    && holds (exec (.turn 8) (ringS turnV sess1)) (fun t => (getRing t 9).posted == 1 && (getSess t 1) == sess1) = true := by decide +kernel

/-- A CANCEL entry of session 1. -/
def cancelV : Nat := 2 + 1 * 2 ^ 16 + 0x78 * 2 ^ 64

theorem witness_cancel : (∃ s1, nextEntry 8 (ringS cancelV sess1) = some (s1, cancelV, false)) ∧ fld cancelV 7 0 = 2
    ∧ (fld cancelV 15 10 = 0 ∧ fld cancelV 255 240 = 0 ∧ fld cancelV 319 304 = 0) ∧ (getPart (ringS cancelV sess1) 3).st ≠ .empty
    ∧ (getSess (ringS cancelV sess1) 1).opened = true ∧ (getPart (ringS cancelV sess1) 3).step = none ∧ (getSess (ringS cancelV idle1) 1).opened = false :=
  ⟨entry_of (by decide +kernel), by decide +kernel⟩

theorem test_cancel : holds (exec (.cancel 8) (ringS cancelV sess1)) (fun t => !(getSess t 1).opened && (getRing t 9).posted == 1)
    && holds (exec (.cancel 8) (ringS cancelV idle1)) (fun t => (getRing t 9).posted == 1 && (getSess t 1) == idle1) = true := by decide +kernel

/-- Ring 8 of 16 entries, consumed up to 3, with doorbell 5; ring 9 with 4 entries posted and 1 consumed. -/
def bellS : State := { serving id idle1 with rings := [(8, { ring8 with consumed := 3, doorbell := 5 }), (9, { ring9 with posted := 4, consumed := 1, doorbell := 1 })] }

theorem witness_doorbells : hostUp bellS = true ∧ (getRing bellS 8).fn = 0 ∧ (getRing bellS 8).st = .enabled ∧ (getRing bellS 8).completion = false
    ∧ (getRing bellS 9).completion = true ∧ (getRing bellS 9).st = .enabled := by decide +kernel

/-- Value 19 is 16 ahead of 3, 20 is too far, 4 is behind the doorbell, 2 is behind what was consumed (17 R435). -/
theorem test_doorbells : ([(19, 19, 0, true), (20, 5, 0, false), (4, 5, 1, true), (2, 5, 1, true)] : List (Nat × Nat × Nat × Bool)).all (fun e =>
      holds (exec (.submissionDoorbell 0 8 true (BitVec.ofNat 32 e.1) 0) bellS) (fun t => (getRing t 8).doorbell.toNat == e.2.1
        && (getRing t 8).ignored.toNat == e.2.2.1 && ((getRing t 8).st == .enabled) == e.2.2.2))
    && ([(4, 4, 0, true), (5, 1, 0, false), (0, 1, 1, true)] : List (Nat × Nat × Nat × Bool)).all (fun e =>
      holds (exec (.completionDoorbell 0 9 true (BitVec.ofNat 32 e.1) 0) bellS) (fun t => (getRing t 9).consumed.toNat == e.2.1
        && (getRing t 9).ignored.toNat == e.2.2.1 && ((getRing t 9).st == .enabled) == e.2.2.2)) = true := by decide +kernel

theorem test_dropped_doorbells : holds (exec (.submissionDoorbell 0 8 false 6 0) bellS) (fun t => (getRing t 8).ignored == 1 && (getRing t 8).doorbell == 5)
    && holds (exec (.submissionDoorbell 4 8 true 6 0) bellS) (fun t => (getRing t 8).ignored == 1 && (getFn t 4).herrCode == 0x4170) = true := by
  decide +kernel

/-- Ring 9 with an unsignalled entry and an IRQ_TIME of 10 µs. -/
def irqS : State := { bellS with rings := [(9, { ring9 with posted := 1, sinceIrq := 1, irqTime := 10, vector := 8 })] }

theorem witness_irq_time : (getRing irqS 9).completion = true ∧ (getRing irqS 9).sinceIrq ≠ 0 ∧ (getRing irqS 9).irqTime ≠ 0 := by decide +kernel

theorem test_irq_time : holds (exec (.irqTime 9) irqS) (fun t => (getRing t 9).sinceIrq == 0 && t.ftime == 10000) = true := by decide +kernel

/-! ### The host's window, cache maintenance and registers -/

/-- The PF's SV_CMO over one line of partition 3's Spread page, as it stands in each state. -/
def cmoS (base lines st : Nat) (run : Option (Nat × Nat)) : State :=
  { serving id idle1 with host := { live.host with fns := [(0, { cmo := { base := BitVec.ofNat 64 base, lines := BitVec.ofNat 64 lines, st := st, run := run } })] } }

theorem witness_cmo_starts : hostUp (cmoS 0x2000000 1 0 none) = true ∧ (getFn (cmoS 0x2000000 1 1 none) 0).cmo.st = 1
    ∧ rangeCode (cmoS 0x2000000 1 0 none) 0 false 0x2000000 64 = none ∧ rangeCode (cmoS 0x2200000 1 0 none) 0 false 0x2400000 64 = some 0x2160
    ∧ (getFn (cmoS 0x2000000 0 0 none) 0).cmo.lines.toNat = 0 ∧ (getFn (cmoS 0 0 1 (some (0x2000000, 64))) 0).cmo.run = some (0x2000000, 64) := by
  decide +kernel

theorem test_cmo_starts : holds (exec (.hostFlush 0 7 0) (cmoS 0x2000000 1 0 none)) (fun t => (getFn t 0).cmo.st == 1 && (getFn t 0).cmo.tag == 7)
    && holds (exec (.hostInv 0 7 0) (cmoS 0x2000000 0 0 none)) (fun t => (getFn t 0).cmo.st == 3 && (getFn t 0).cmo.code == 0x2130)
    && holds (exec (.hostFlushInv 0 7 0) (cmoS 0x2400000 1 0 none)) (fun t => (getFn t 0).cmo.st == 3 && (getFn t 0).cmo.code == 0x2160)
    && holds (exec (.hostFlush 0 7 0) (cmoS 0x2000000 1 1 none)) (fun t => (getFn t 0).herrCode == 0x2131 && (getFn t 0).cmo.tag == 0)
    && holds (exec (.cmoDone 0) (cmoS 0x2000000 1 1 (some (0x2000000, 64)))) (fun t => (getFn t 0).cmo.st == 2 && (getFn t 0).status == 4) = true := by
  decide +kernel

theorem witness_window : hostUp (serving id idle1) = true ∧ barSpan (serving id idle1) 0 0x2000000 4 = true ∧ rangeCode (serving id idle1) 0 true 0x2000000 4 = none
    ∧ rangeCode (serving id idle1) 0 true 0x2400000 4 = some 0x2160 ∧ (hostRead 0x2000000 4 (serving id idle1)).2.2 = false
    ∧ (hostRead 0x2000000 4 (poisonLines 0x2000000 4 (serving id idle1))).2.2 = true := by decide +kernel

theorem test_window : holds (exec (.bar4Write 0 0x2000001 [0xAA, 0xBB] false) (serving id idle1)) (fun t =>
      holds (exec (.bar4Read 0 0x2000000 4) t) (fun u => u.out == [.readData 0 [0, 0xAA, 0xBB, 0] false]))
    && holds (exec (.bar4Write 0 0x2000000 [0xAA] true) (serving id idle1)) (fun t => (getFn t 0).herrCode == 0x2162
      && holds (exec (.bar4Read 0 0x2000000 2) t) (fun u => u.out == [.readData 0 [0xFF, 0xFF] true]))
    && holds (exec (.bar4Read 0 0x2400000 2) (serving id idle1)) (fun t => t.out == [.readData 0 [0xFF, 0xFF] false] && (getFn t 0).herrCode == 0x2160)
    = true := by decide +kernel

/-- The rows of R423: beyond the stacks, homed on an absent channel, owned by nobody, of a partition without a ring of the function, and paired. -/
def pageS : State := { serving id idle1 with units := { live.units with chan := [(1, 6)] }, mem := { (serving id idle1).mem with mirrors := [(16, 20)] } }

theorem witness_pages : pageS.boot.domainsOff = false ∧ unitPresent pageS.units.chan (homeOf 16) = true ∧ pageOwner pageS 16 = .part 3
    ∧ unitPresent pageS.units.chan (homeOf (768 + 20)) = false ∧ fnHasRing pageS 4 3 = false ∧ fnHasRing pageS 0 3 = true ∧ pairedPage pageS 16 = true
    ∧ pageOwner pageS 18 = .free := by decide +kernel

theorem test_pages : [pageCode pageS 0 true 196608, pageCode pageS 0 true (768 + 20), pageCode pageS 0 true 18, pageCode pageS 4 false 17,
    pageCode pageS 0 true 16, pageCode pageS 0 false 16, pageCode pageS 0 true 17] = [some 0x2101, some 0x2102, some 0x2160, some 0x2160, some 0x2232, none, none] := by
  decide +kernel

/-- The PF with flags set everywhere. -/
def flagS : State :=
  { live with host := { live.host with fns := [(0, { status := 0xFF, herrValid := true }), (5, { status := 7, imask := 2, herrValid := true, herrCode := 0x2160 })],
                                       pevt := 0xFFFF, thStatus := 0xF, jnEvt := 0x7FFFF },
              sb := { live.sb with host := { live.sb.host with flags := 0xFF } } }

theorem witness_registers : hostUp flagS = true ∧ (3 : Nat) < 2 ^ 4 ∧ (3 &&& rsvBits 0 (regAt 0 0x12010) = 0) ∧ (0x80000000 &&& rsvBits 0 (regAt 0 4) ≠ 0) := by
  decide +kernel

theorem test_registers : holds (exec (.registerWrite 0 0 0x10 4 3) flagS) (fun t => (getFn t 0).status == 0xFC && !(getFn t 0).herrValid)
    && holds (exec (.registerWrite 0 0 0x20 4 1) flagS) (fun t => t.host.pevt == 0xFFFE)
    && holds (exec (.registerWrite 0 0 0x12008 4 0x81) flagS) (fun t => t.sb.host.flags == 0x7E)
    && holds (exec (.registerWrite 0 0 0x20010 4 2) flagS) (fun t => t.host.thStatus == 0xD)
    && holds (exec (.registerWrite 0 0 0x30300 4 0x40000) flagS) (fun t => t.host.jnEvt == 0x3FFFF)
    && holds (exec (.registerWrite 0 0 0x10004 4 0x11223344) flagS) (fun t => spBytes t.sb.reqBuf 0 8 == leBytes (0x11223344 * 2 ^ 32) 8)
    && holds (exec (.registerWrite 0 0 0x12000 4 1) flagS) (fun t => t.sb.host.busy) = true := by decide +kernel

/-- Clearing the mask of a set flag sends the function's message. -/
theorem test_mask : holds (exec (.hiImaskWrite 5 0) flagS) (fun t => (getFn t 5).imask.toNat % 8 == 0 && (t.out != [] || (getFn t 5).msixPend != [])) = true := by
  decide +kernel

theorem witness_mask : (getFn flagS 5).imask &&& ~~~((getFn flagS 5).imask &&& ~~~7) &&& (getFn flagS 5).status &&& 7 ≠ 0 := by decide +kernel

/-- The rings of partition 3 belong to function 5, with a step under way or none. -/
def vfS (st : Option Step) : State :=
  { serving (fun p => { p with step := st }) sess1 with rings := [(8, { ring8 with fn := 5 }), (9, { ring9 with fn := 5, backlog := [{ sess := 1 }] }), (10, {})] }

theorem witness_flr : hostUp (vfS none) = true ∧ (getRing (vfS none) 8).fn = 5 ∧ (getRing (vfS none) 8).st ≠ .absent ∧ (getRing (vfS none) 10).fn ≠ 5
    ∧ (getSess (vfS none) 1).opened = true ∧ (getRing (vfS none) (getSess (vfS none) 1).compRing).fn = 5
    ∧ (getRing (vfS none) (getSess (vfS none) 1).compRing).st ≠ .absent ∧ (getPart (vfS none) (getSess (vfS none) 1).part).step = none
    ∧ (getPart (vfS (some (stepOf false))) (getSess (vfS none) 1).part).step ≠ none ∧ (getSess (vfS none) 1).mirror = false
    ∧ (getSess (vfS none) 1).work.ending = false := by decide +kernel

theorem test_flr_sessions : holds (exec (.flr 5) (vfS none)) (fun t => (getRing t 9).code == 0x4171 && (getRing t 9).backlog == [] && !(getSess t 1).opened
      && t.out == [])
    && holds (exec (.flr 5) (vfS (some (stepOf false)))) (fun t => (getSess t 1).opened && (getSess t 1).work.cancel)
    && holds (exec (.flr 6) (vfS none)) (fun t => (getSess t 1).opened && (getRing t 9).st == .enabled) = true := by decide +kernel

theorem test_flr : holds (exec (.flr 5) flagS) (fun t => (getFn t 5).status == 0 && (getFn t 5).imask == 0xFF && !(getFn t 5).herrValid)
    && holds (exec (.flr 0) flagS) (fun t => decide (t = flagS))
    && holds (exec .vfEnableClear flagS) (fun t => (getFn t 5).herrCode == 0 && (getFn t 0).status == 0xFF) = true := by decide +kernel

/-! ### Mailbox commands -/

/-- A payload of n bytes with fields (offset, bytes, value). -/
def pay (n : Nat) (l : List (Nat × Nat × Nat)) : List Byte :=
  leBytes (l.foldl (fun a e => a + e.2.2 % 2 ^ (8 * e.2.1) * 2 ^ (8 * e.1)) 0) n

/-- The host owns the device, and its request waits: opcode, payload and flags of the header (14 R363). -/
def box (op : Nat) (p : List Byte) (s : State) (flags : Nat := 0) : State :=
  { s with lock := { st := .owned, owner := 1, leaseEnd := 5000000000 },
           sb := { s.sb with host := { s.sb.host with busy := true, owned := 1, req := leBytes (op + 7 * 2 ^ 16 + p.length * 2 ^ 48 + flags * 2 ^ 64) 16 ++ p } } }

/-- The request that waits. -/
def hostReq (s : State) : Req := mkReq 1 s.sb.host.owned none s.sb.host.req

/-- The host's request is served: it reaches the Signal Box, repeats nothing, and passes the common checks. -/
def servedOk (c : Cmd) (s : State) : Bool :=
  !s.sb.restarting && s.sb.host.busy && rowTakes c (rawOpcode s.sb.host.req) && s.sb.host.last.isEmpty && (judge c (hostReq s) s).isNone

/-- A command is served at a state that meets a condition. -/
def W (c : Cmd) (s : State) (h : Prop) : Prop := Served c .host s (hostReq s) s ∧ h

theorem W_of {c : Cmd} {s : State} {h : Prop} [Decidable h] (k : (servedOk c s && decide h) = true) : W c s h := by
  simp only [servedOk, Bool.and_eq_true, Bool.not_eq_true', decide_eq_true_eq, List.isEmpty_iff, Option.isNone_iff_eq_none] at k
  obtain ⟨⟨⟨⟨⟨a, b⟩, d⟩, e⟩, f⟩, g⟩ := k
  refine ⟨⟨⟨⟨a, b, d, rfl, rfl⟩, fun r => ?_⟩, f⟩, g⟩
  exact r.1 e

/-- A command answers with a code. -/
def answers (i : Instr) (s : State) (code : Code) : Bool := holds (exec i s) (fun t => !t.sb.host.busy && t.sb.host.rsp.code == code && t.sb.host.rsp.rstate == 2)

theorem witness_own_status : W cmdOwnStatus (box 0x0101 [] live) True := W_of (by decide +kernel)
theorem witness_renew : W cmdRenew (box 0x0103 [] live) True := W_of (by decide +kernel)

/-- A claim of the host with the Interlocking in a given state. -/
def claimS (l : Interlock) : State := { box 0x0102 [] live with lock := l }

theorem witness_claim : W cmdClaim (claimS {}) (outranked (claimS {}) 1 = false) := W_of (by decide +kernel)
theorem witness_claim_mine : W cmdClaim (claimS { st := .owned, owner := 1, leaseEnd := 9 }) True := W_of (by decide +kernel)
theorem witness_claim_offered : W cmdClaim (claimS { st := .offered, owner := 2, offerTo := 1, leaseEnd := 9 }) True := W_of (by decide +kernel)
theorem witness_claim_refused : W cmdClaim (claimS { st := .owned, owner := 2, leaseEnd := 9 }) True := W_of (by decide +kernel)

/-- The fabric manager's claim is next in the queue of an Unowned device: with POLICY.PRIO as made (host, fabric manager, board management
controller) it does not come before the host's; with the fabric manager first it does (14 R372). -/
def rivalS : State := { claimS {} with pending := [.claim (.fm 7 (leBytes (0x0102 + 7 * 2 ^ 16) 16))],
                                       cfg := { live.cfg with policy := { live.cfg.policy with prio := 0b100111 } } }

theorem witness_claim_outranked : W cmdClaim rivalS (outranked rivalS 1 = true) := W_of (by decide +kernel)

theorem test_claims : answers (.claim .host) (claimS {}) 0 && answers (.claim .host) (claimS { st := .owned, owner := 2, leaseEnd := 9 }) 0x5111
    && answers (.claim .host) rivalS 0x5111 && holds (exec (.claim .host) (claimS { st := .offered, owner := 2, offerTo := 1, leaseEnd := 9 }))
      (fun t => t.lock.owner == 1 && t.lock.st == .owned) = true := by decide +kernel

/-- HANDOVER of one byte, and CLEAR, POLICY and RESET with theirs. -/
def handS (to_ : Nat) (l : LockState) : State := let s := box 0x0104 (pay 1 [(0, 1, to_)]) live
  { s with lock := { s.lock with st := l } }

theorem witness_handover : W cmdHandover (handS 2 .owned) ((hostReq (handS 2 .owned)).f 0 1 = 2 ∧ (handS 2 .owned).lock.owner = 1) := W_of (by decide +kernel)
theorem witness_withdraw : W cmdHandover (handS 0 .offered) ((hostReq (handS 0 .offered)).f 0 1 = 0) := W_of (by decide +kernel)
theorem witness_withdraw_none : W cmdHandover (handS 0 .owned) ((hostReq (handS 0 .owned)).f 0 1 = 0) := W_of (by decide +kernel)
theorem witness_handover_bad : W cmdHandover (handS 4 .owned) (3 < (hostReq (handS 4 .owned)).f 0 1) := W_of (by decide +kernel)
theorem witness_release : W cmdRelease (box 0x0105 [] live) True := W_of (by decide +kernel)
theorem witness_own_clear : W cmdOwnClear (box 0x0106 (pay 4 [(0, 4, 3)]) live) ((hostReq (box 0x0106 (pay 4 [(0, 4, 3)]) live)).f 0 4 < 256) :=
  W_of (by decide +kernel)

def policyS (prio : Nat) : State := box 0x0107 (pay 4 [(0, 1, prio)]) live

theorem witness_policy : W cmdPolicy (policyS 0b111001)
    (sortNat [fld ((hostReq (policyS 0b111001)).f 0 1) 1 0, fld ((hostReq (policyS 0b111001)).f 0 1) 3 2, fld ((hostReq (policyS 0b111001)).f 0 1) 5 4] = [1, 2, 3]) :=
  W_of (by decide +kernel)
theorem witness_policy_bad : W cmdPolicy (policyS 0)
    (sortNat [fld ((hostReq (policyS 0)).f 0 1) 1 0, fld ((hostReq (policyS 0)).f 0 1) 3 2, fld ((hostReq (policyS 0)).f 0 1) 5 4] ≠ [1, 2, 3]) :=
  W_of (by decide +kernel)

theorem witness_own_reset : W cmdOwnReset (box 0x0108 (pay 1 [(0, 1, 1)]) live) (activeParts (box 0x0108 (pay 1 [(0, 1, 1)]) live) = []) := W_of (by decide +kernel)
theorem witness_own_reset_busy : W cmdOwnReset (box 0x0108 (pay 1 []) (kstate id)) (activeParts (box 0x0108 (pay 1 []) (kstate id)) ≠ []) := W_of (by decide +kernel)

theorem test_own : answers (.handover .host) (handS 2 .owned) 0 && answers (.handover .host) (handS 4 .owned) 0x5101
    && answers (.release .host) (box 0x0105 [] live) 0 && answers (.ownClear .host) (box 0x0106 (pay 4 [(0, 4, 3)]) live) 0
    && answers (.policy .host) (policyS 0b111001) 0 && answers (.policy .host) (policyS 0) 0x5101
    && answers (.ownReset .host) (box 0x0108 (pay 1 []) (kstate id)) 0x5123
    && holds (exec (.ownReset .host) (box 0x0108 (pay 1 [(0, 1, 1)]) live)) (fun t => t.boot.resetPending == some (.cold, 5)) = true := by decide +kernel

/-- An owned device, and an offered one. -/
def ownedS (l : LockState) : State := { live with lock := { st := l, owner := 1, offerTo := 2, leaseEnd := 5000000000, offerEnd := 1000000000 } }

theorem witness_lock_events : (ownedS .owned).lock.st ≠ .unowned ∧ (ownedS .owned).lock.warned = false ∧ (ownedS .offered).lock.st = .offered
    ∧ live.cfg.policy.fmAny = true := by decide

theorem test_lock_events : holds (exec .leaseWarn (ownedS .owned)) (fun t => t.ftime == 4000000000 && t.sb.host.flags == 0x20)
    && holds (exec .leaseExpired (ownedS .owned)) (fun t => t.lock.st == .unowned && t.ftime == 5000000000)
    && holds (exec .handoverTimeout (ownedS .offered)) (fun t => t.lock.st == .owned && t.lock.owner == 1)
    && holds (exec (.mgmtRequestDiscard 9) live) (fun t => t.sb.fm.flags == 2) = true := by decide +kernel

/-- The same request again, after its response: the stored response and nothing else (14 R367). -/
def againS : State := match exec (.release .host) (box 0x0105 [] live) with
  | .next t => box 0x0105 [] t
  | _ => live

theorem witness_repeated : Reaches cmdRelease .host againS (hostReq againS) againS ∧ Repeats (hostReq againS) againS := by
  refine ⟨⟨by decide +kernel, by decide +kernel, by decide +kernel, rfl, rfl⟩, by decide +kernel, by decide +kernel, by decide +kernel⟩

theorem test_repeated : holds (exec (.release .host) againS) (fun t => t.lock.st == .owned && !t.sb.host.busy && t.sb.host.rsp.code == 0) = true := by
  decide +kernel

/-- The request arrived while another master owned the device. -/
def foreign (s : State) : State := { s with lock := { st := .owned, owner := 2, leaseEnd := 9 }, sb := { s.sb with host := { s.sb.host with owned := 2 } } }

/-- A request refused by each of the common checks: the starting device, recovery, the fuse fault, a length, a right, degraded mode, a
reserved byte, a partition with a long operation (14 R363, R374) and a port that does not answer (13 R352). -/
def refusedCases : List (Instr × State × Code) :=
  [(.ownStatus .host, box 0x0101 [] State.reset, 0x5252), (.ownStatus .host, box 0x0101 [] { live with boot := { live.boot with phase := .fuseFault } }, 0x5251),
   (.sensors .host, box 0x0602 (pay 8 []) { live with boot := { live.boot with phase := .recovery } }, 0x5250), (.handover .host, box 0x0104 [] live, 0x5100),
   (.renew .host, foreign (box 0x0103 [] live), 0x5110),
   (.share .host, box 0x0205 (pay 3 []) { live with sb := { live.sb with degraded := true } }, 0x5202),
   (.policy .host, box 0x0107 (pay 5 [(0, 1, 0b111001), (4, 1, 1)]) live, 0x5102),
   (.partResume .host, box 0x020D (pay 1 [(0, 1, 3)]) { kstate id with sb := { live.sb with ops := [{ op := 1, part := some 3, master := 1, seq := 0, opcode := 0x020C }] } }, 0x5121),
   (.fabPort .host, box 0x0904 (pay 2 [(0, 1, 4)]) { live with units := { live.units with wedged := [(4, 4)] } }, 0x5230)]

theorem test_refused : refusedCases.all (fun e => answers e.1 e.2.1 e.2.2) = true := by decide +kernel

theorem witness_refused : refusedCases.all (fun e => !e.2.1.sb.restarting && e.2.1.sb.host.busy && e.2.1.sb.host.last.isEmpty) = true := by decide +kernel

/-! ### PART and MODEL -/

/-- Partition 3 in a state, with the pages of its table. -/
def partS (st : PState) (f : Part → Part) : State :=
  { live with parts := [(3, f { part3 with st := st })], mem := { live.mem with owner := [(16, .part 3), (17, .part 3)], rowMode := [(17, .pinned)] } }

/-- Units: core, slice and channel 5, for partition p. -/
def unitPay (p : Nat) : List Byte := pay 72 [(0, 1, p), (8, 18, 2 ^ 5), (32, 8, 2 ^ 5), (40, 32, 2 ^ 5 + 1)]

theorem witness_part_create : W cmdPartCreate (box 0x0201 (unitPay 4) live) ((getPart live 4).st = .absent
    ∧ (hostReq (box 0x0201 (unitPay 4) live)).units 8 18 = [5] ∧ unavailable (box 0x0201 (unitPay 4) live) 4 live.units.core (·.cores) [5] = false
    ∧ unavailable (box 0x0201 (unitPay 4) live) 4 live.units.slice (·.slices) [5] = false
    ∧ unavailable (box 0x0201 (unitPay 4) live) 4 live.units.chan (·.chans) [0, 5] = false) := W_of (by decide +kernel)
theorem witness_part_units : W cmdPartUnits (box 0x0202 (unitPay 3) (partS .drained id)) ((getPart (partS .drained id) 3).st = .drained
    ∧ ∀ g ∈ pinnedOn (partS .drained id) 3 ([0].filter (fun c => !mem c [0, 5])), mem g (getPart (partS .drained id) 3).pool = true) := W_of (by decide +kernel)

def bareS : State := { live with parts := [(3, { st := .empty })] }

theorem witness_part_destroy : W cmdPartDestroy (box 0x0203 (pay 1 [(0, 1, 3)]) bareS) (ownedPages bareS 3 = [] ∧ sessOf bareS 3 = []) := W_of (by decide +kernel)
theorem witness_param : W cmdParam (box 0x0204 (pay 16 [(0, 1, 3), (1, 1, 2), (8, 8, 64)]) bareS) (paramRange bareS 3 2 64 = true
    ∧ featureBlocks bareS 3 2 64 = false) := W_of (by decide +kernel)
theorem witness_share : W cmdShare (box 0x0205 (pay 3 [(0, 1, 3), (2, 1, 5)]) (partS .empty id)) (mem 0 (getPart (partS .empty id) 3).chans = true) :=
  W_of (by decide +kernel)
theorem witness_row_mode : W cmdRowMode (box 0x0206 (pay 3 [(0, 2, 20), (2, 1, 1)]) live) (rowOwned (box 0x0206 (pay 3 [(0, 2, 20), (2, 1, 1)]) live) 20 = false) :=
  W_of (by decide +kernel)

def pagesS (mode g : Nat) : State :=
  let s := partS .empty id
  box 0x0207 (pay 8 [(0, 1, 3), (1, 1, mode), (2, 2, 1), (4, 4, g)]) { s with mem := { s.mem with owner := s.mem.owner ++ [(19, .part 3)], filling := [20, 21] } }

/-- The same while the Signal Box restarts. -/
def restarting (s : State) : State := { s with sb := { s.sb with restarting := true } }

theorem witness_pages_take : W cmdPages (pagesS 0 18) (cannotTake (pagesS 0 18) 3 18 = false ∧ hasRepeat [18] = false) := W_of (by decide +kernel)
theorem witness_pages_return : W cmdPages (pagesS 1 19) (pageOwner (pagesS 1 19) 19 = .part 3 ∧ pageInUse (getPart (pagesS 1 19) 3) 19 = false) :=
  W_of (by decide +kernel)
theorem witness_page_freed : nextFill (pagesS 1 19) 20 = true ∧ nextFill (pagesS 1 19) 21 = false ∧ (pagesS 1 19).sb.restarting = false := by decide +kernel

theorem test_part : answers (.partCreate .host) (box 0x0201 (unitPay 4) live) 0 && answers (.partUnits .host) (box 0x0202 (unitPay 3) (partS .drained id)) 0
    && answers (.partDestroy .host) (box 0x0203 (pay 1 [(0, 1, 3)]) bareS) 0
    && holds (exec (.param .host) (box 0x0204 (pay 16 [(0, 1, 3), (1, 1, 2), (8, 8, 64)]) bareS)) (fun t => (getPart t 3).params.chunk == 64)
    && holds (exec (.share .host) (box 0x0205 (pay 3 [(0, 1, 3), (2, 1, 5)]) (partS .empty id))) (fun t => (getChan t 0).sigma == 5)
    && holds (exec (.rowMode .host) (box 0x0206 (pay 3 [(0, 2, 20), (2, 1, 1)]) live)) (fun t => rowModeOf t 20 == .pinned)
    && holds (exec (.pages .host) (pagesS 0 18)) (fun t => pageOwner t 18 == .part 3)
    && holds (exec (.pages .host) (pagesS 1 19)) (fun t => pageOwner t 19 == .free && mem 19 t.mem.filling)
    && holds (exec (.pageFreed 20) (pagesS 1 19)) (fun t => t.mem.filling == [21])
    && holds (exec (.pageFreed 20) (restarting (pagesS 1 19))) (fun t => t.mem.filling == [20, 21]) = true := by decide +kernel

/-- MAP of VA 0x400000 or of VA 0, which is mapped already; UNMAP of VA 0. -/
def mapS (va : Nat) : State := box 0x0208 (pay 32 [(0, 1, 3), (2, 2, 1), (16, 8, va), (24, 8, 0x2000005)]) (partS .empty id)
def unmapS : State := box 0x0209 (pay 16 [(0, 1, 3), (2, 2, 1)]) (partS .drained id)

theorem witness_map : W cmdMap (mapS 0x400000) ((mapAll (mapS 0x400000) 3 [(0x400000, 0x2000005)] part3.ptab).isSome = true) := W_of (by decide +kernel)
theorem witness_map_refused : W cmdMap (mapS 0) (mapAll (mapS 0) 3 [(0, 0x2000005)] part3.ptab = none) := W_of (by decide +kernel)
theorem witness_unmap : W cmdUnmap unmapS (unmapS.sb.ops.length < 16 ∧ poolEntry (getPart unmapS 3) 0 = false) := W_of (by decide +kernel)

/-- An unmap in progress, with and without a kernel. -/
def unmappingS (k : Option Kernel) : State := partS .drained (fun p => { p with unmapping := true, unmapVas := [0], kernel := k })

theorem witness_unmap_done : (getPart (unmappingS none) 3).unmapping = true ∧ (getPart (unmappingS none) 3).kernel = none ∧ scuBusy (unmappingS none) 3 = false
    ∧ (getPart (unmappingS (some { image := {}, cores := [], chans := [] })) 3).kernel ≠ none := by decide +kernel

/-- The KV pool: page 17 in 64 KiB entries. -/
def poolTab : List Pte := (List.range 32).map (fun i => { va := 0x200000 + 0x10000 * i, bits := BitVec.ofNat 64 (0x2200000 + 0x10000 * i + 0x1F) })
def poolS (mode : Nat) : State :=
  box 0x020A (pay 8 [(0, 1, 3), (1, 1, mode), (2, 2, 1), (4, 4, 17)]) (partS .drained (fun p => { p with ptab := poolTab, pool := if mode = 0 then [] else [17] }))

theorem witness_kv_add : W cmdKvPool (poolS 0) (pageOwner (poolS 0) 17 = .part 3 ∧ mem 17 (getPart (poolS 0) 3).pool = false ∧ pagePinned (poolS 0) 17 = true
    ∧ poolMapped (getPart (poolS 0) 3).ptab 17 = true) := W_of (by decide +kernel)
theorem witness_kv_remove : W cmdKvPool (poolS 1) (mem 17 (getPart (poolS 1) 3).pool = true ∧ poolFree (getPart (poolS 1) 3) 17 = true) := W_of (by decide +kernel)

theorem test_maps : holds (exec (.map .host) (mapS 0x400000)) (fun t => (getPart t 3).ptab.length == 3) && answers (.map .host) (mapS 0) 0x5140
    && holds (exec (.unmap .host) unmapS) (fun t => t.sb.host.rsp.code == 0x0510 && (getPart t 3).unmapping)
    && holds (exec (.unmapDone 3) (unmappingS none)) (fun t => (getPart t 3).ptab.map (·.va) == [0x200000] && !(getPart t 3).unmapping)
    && holds (exec (.kvPool .host) (poolS 0)) (fun t => (getPart t 3).pool == [17])
    && holds (exec (.kvPool .host) (poolS 1)) (fun t => (getPart t 3).pool == []) = true := by decide +kernel

/-- A Drained partition that can start: its model, areas and LOGITS are set. -/
def startS : State := partS .drained (fun p => { p with
  model := some model3, params := { p.params with logits := some 0, lpitch := some 64, kvArea := some { va := 0, units := 1 }, ttArea := some { va := 0, units := 1 },
                                                  collArea := some { va := 0, units := 1 } } })

theorem witness_part_start : W cmdPartStart (box 0x020B (pay 1 [(0, 1, 3)]) startS) (startable (box 0x020B (pay 1 [(0, 1, 3)]) startS) (getPart startS 3) = true
    ∧ chooseImage (box 0x020B (pay 1 [(0, 1, 3)]) startS) (getPart startS 3) = some 0 ∧ (placeDirs 3 (box 0x020B (pay 1 [(0, 1, 3)]) startS)).isSome = true) :=
  W_of (by decide +kernel)
theorem witness_part_drain : W cmdPartDrain (box 0x020C (pay 2 [(0, 1, 3), (1, 1, 1)]) (partS .serving id)) True := W_of (by decide +kernel)
theorem witness_part_drain_halted : W cmdPartDrain (box 0x020C (pay 2 [(0, 1, 3)]) (partS .halted id)) True := W_of (by decide +kernel)
theorem witness_drain_done : drainOver (partS .draining id) 3 = true := by decide +kernel
theorem witness_part_resume : W cmdPartResume (box 0x020D (pay 1 [(0, 1, 3)]) (partS .halted id)) True := W_of (by decide +kernel)
theorem witness_part_abort : W cmdPartAbort (box 0x020E (pay 1 [(0, 1, 3)]) (partS .serving id)) ((getPart (partS .serving id) 3).st ≠ .empty) := W_of (by decide +kernel)
theorem witness_part_status : ∀ k ∈ [0, 1, 2], W cmdPartStatus (box 0x020F (pay 8 [(0, 1, 3), (1, 1, k), (6, 2, 63)]) (partS .serving id)) True := by
  intro k h
  fin_cases h <;> exact W_of (by decide +kernel)
theorem witness_abort : spWf ({} : Chan) (scuS 0x0F 0 []).chans = true := by decide +kernel

theorem test_part_states : holds (exec (.partStart .host) (box 0x020B (pay 1 [(0, 1, 3)]) startS)) (fun t => (getPart t 3).st == .serving && t.sb.host.rsp.payload == [0])
    && holds (exec (.partDrain .host) (box 0x020C (pay 2 [(0, 1, 3), (1, 1, 1)]) (partS .serving id))) (fun t => (getPart t 3).st == .draining && (getPart t 3).drainCut)
    && holds (exec (.partDrain .host) (box 0x020C (pay 2 [(0, 1, 3)]) (partS .halted id))) (fun t => (getPart t 3).st == .drained)
    && holds (exec (.drainDone 3) (partS .draining id)) (fun t => (getPart t 3).st == .drained)
    && holds (exec (.partResume .host) (box 0x020D (pay 1 [(0, 1, 3)]) (partS .halted id))) (fun t => (getPart t 3).st == .serving)
    && holds (exec (.partAbort .host) (box 0x020E (pay 1 [(0, 1, 3)]) (scuS 0x0F 0 []))) (fun t => (getPart t 3).st == .halted && (getChan t 0).queue == [])
    && answers (.partStatus .host) (box 0x020F (pay 8 [(0, 1, 3), (6, 2, 1)]) (partS .serving id)) 0 = true := by decide +kernel

/-- LOAD of one image without KV geometry, and with a D that only a geometry may give. -/
def loadS (d : Nat) : State := box 0x0301 (pay 48 [(0, 1, 3), (1, 1, 1), (3, 1, 0xFF), (4, 2, d), (16, 4, 4), (40, 4, 256)]) (partS .empty id)

theorem witness_model_load : W cmdModelLoad (loadS 0) (loadGeomBad (hostReq (loadS 0)) = false ∧ (hostReq (loadS 0)).f 3 1 = 0xFF) := W_of (by decide +kernel)
theorem witness_model_load_bad : W cmdModelLoad (loadS 5) (loadGeomBad (hostReq (loadS 5)) = true) := W_of (by decide +kernel)

/-- A load whose image page nothing maps, and one whose image is all zeros. -/
def loadingS (va : Nat) : State := partS .empty (fun p => { p with loading := some (pay 96 [(0, 1, 3), (1, 1, 1), (16, 4, 4), (32, 8, va), (40, 4, 256)]) })

theorem witness_load_done : (getPart (loadingS 0x800000) 3).loading.isSome = true
    ∧ (readImages 3 (pay 96 [(0, 1, 3), (1, 1, 1), (16, 4, 4), (32, 8, 0x800000), (40, 4, 256)]) (loadingS 0x800000)).2 = none
    ∧ (readImages 3 (pay 96 [(0, 1, 3), (1, 1, 1), (16, 4, 4), (32, 8, 0), (40, 4, 256)]) (loadingS 0)).2 = some [List.replicate 256 0]
    ∧ lowest (([List.replicate 256 0] : List (List Byte)).filterMap imageCode) = some 0x1170 := by decide +kernel

theorem witness_model_unload : W cmdModelUnload (box 0x0302 (pay 1 [(0, 1, 3)]) (partS .drained id)) (sessOf (partS .drained id) 3 = []) := W_of (by decide +kernel)
theorem witness_retain : ∀ k ∈ [0, 1], W cmdRetain (box 0x0303 (pay 8 [(0, 1, 3), (1, 1, k), (2, 2, 1), (4, 4, 16)]) (partS .empty id)) (pageOwner (partS .empty id) 16 = .part 3) := by
  intro k h
  fin_cases h <;> exact W_of (by decide +kernel)
theorem witness_model_info : W cmdModelInfo (box 0x0306 (pay 1 [(0, 1, 3)]) (partS .empty id)) True := W_of (by decide +kernel)

/-- MIRROR of weight page 16, mapped without W, into page 18 of the same kind, and into page 17, which is Pinned. -/
def mirrorS (mode m : Nat) : State :=
  let s := partS .drained (fun p => { p with weights := [16], ptab := [{ va := 0, bits := 0x2000025 }, { va := 0x200000, bits := 0x220001D }] })
  box 0x0304 (pay 16 [(0, 1, 3), (1, 1, mode), (2, 2, 1), (8, 4, 16), (12, 4, m)]) { s with mem := { s.mem with owner := s.mem.owner ++ [(18, .part 3)] } }

theorem witness_model_mirror : W cmdModelMirror (mirrorS 0 18) (pairOk (mirrorS 0 18) 3 (16, 18) = true ∧ hasRepeat [16, 18] = false) := W_of (by decide +kernel)
theorem witness_model_unmirror : W cmdModelMirror (mirrorS 1 18) True := W_of (by decide +kernel)
theorem witness_model_mirror_bad : W cmdModelMirror (mirrorS 0 17) (pairOk (mirrorS 0 17) 3 (16, 17) = false) := W_of (by decide +kernel)

def mirroringS (b : Bool) : State := let s := mirrorS 0 18
  { s with parts := [(3, { part3 with st := .drained, weights := [16], mirroring := some (b, [(16, 18)]) })], mem := { s.mem with mirrors := if b then [] else [(16, 18)] } }

theorem witness_mirror_done : (getPart (mirroringS true) 3).mirroring = some (true, [(16, 18)]) ∧ (getPart (mirroringS false) 3).mirroring = some (false, [(16, 18)]) := by
  decide +kernel

def reloadS : State := box 0x0305 (pay 8 [(0, 1, 3), (4, 4, 16)]) (partS .drained (fun p => { p with reload := [16] }))

theorem witness_reloaded : W cmdReloaded reloadS (mem 16 (getPart reloadS 3).reload = true) := W_of (by decide +kernel)

/-- While the Signal Box restarts, no unmapping, load or mirror ends (01 R19). -/
theorem test_restarting : holds (exec (.unmapDone 3) (restarting (unmappingS none))) (fun t => (getPart t 3).unmapping)
    && holds (exec (.modelLoadDone 3 []) (restarting (loadingS 0))) (fun t => (getPart t 3).loading.isSome)
    && holds (exec (.mirrorDone 3) (restarting (mirroringS true))) (fun t => (getPart t 3).mirroring.isSome) = true := by decide +kernel

theorem test_model : holds (exec (.modelLoad .host) (loadS 0)) (fun t => t.sb.host.rsp.code == 0x0510 && (getPart t 3).loading.isSome)
    && answers (.modelLoad .host) (loadS 5) 0x4201
    && holds (exec (.modelLoadDone 3 []) (loadingS 0)) (fun t => (getPart t 3).st == .empty && (getPart t 3).loading.isNone)
    && holds (exec (.modelUnload .host) (box 0x0302 (pay 1 [(0, 1, 3)]) (partS .drained id))) (fun t => (getPart t 3).st == .empty)
    && holds (exec (.retain .host) (box 0x0303 (pay 8 [(0, 1, 3), (1, 1, 1), (2, 2, 1), (4, 4, 16)]) (partS .empty id))) (fun t => t.mem.retained == [16])
    && answers (.modelInfo .host) (box 0x0306 (pay 1 [(0, 1, 3)]) (partS .empty id)) 0
    && answers (.modelMirror .host) (mirrorS 0 17) 0x2232
    && holds (exec (.mirrorDone 3) (mirroringS false)) (fun t => t.mem.mirrors == [])
    && holds (exec (.reloaded .host) reloadS) (fun t => (getPart t 3).reload == []) = true := by decide +kernel


/-! ### TEN and SESS -/

def tenS (rate burst : Nat) (wasSet : Bool) : State :=
  box 0x0401 (pay 32 [(0, 2, 9), (8, 8, rate), (16, 8, burst), (24, 4, 77), (28, 4, 5)]) { live with tens := [(9, { rate := 1, burst := 2, bal := -3, wasSet := wasSet })] }

theorem witness_ten_set : W cmdTenSet (tenS 100 50 false) ((hostReq (tenS 100 50 false)).f 8 8 < 2 ^ 63) ∧ W cmdTenSet (tenS 100 50 true) True :=
  ⟨W_of (by decide +kernel), W_of (by decide +kernel)⟩

/-- STATUS of tenant 9 or of ring 9. -/
def tenQ (k : Nat) : State := box 0x0406 (pay 4 [(0, 1, k), (2, 2, 9)]) (tenS 100 50 true)

theorem witness_ten_status : ∀ k ∈ [0, 1], W cmdTenStatus (tenQ k) ((hostReq (tenQ k)).f 2 2 < 4096) := by
  intro k h
  fin_cases h <;> exact W_of (by decide +kernel)

/-- 09 R249: the first SET acts at once, a later one at the boundary. -/
theorem test_ten : holds (exec (.tenSet .host) (tenS 100 50 false)) (fun t => (getTen t 9).bal == 50 && (getTen t 9).rate == 100)
    && holds (exec (.tenSet .host) (tenS 100 50 true)) (fun t => (getTen t 9).bal == -3 && (getTen t 9).rate == 1 && (getTen t 9).next == some (100, 50))
    && answers (.tenSet .host) (tenS (2 ^ 63) 0 true) 0x5101
    && holds (exec (.tenStatus .host) (tenQ 0)) (fun t => t.sb.host.rsp.payload.take 16 == leBytes 9 8 ++ leBytes 1 8) = true := by decide +kernel

/-- The rings: completion ring 8 and submission ring 9 of tenant 4 and partition 3, in states. -/
def ringsS (a b : RState) (s : State) : State :=
  { s with rings := [(8, { st := a, completion := true, tenant := 4, part := 3, log2 := 4, irqCount := 1 }),
                     (9, { st := b, tenant := 4, part := 3, log2 := 4, pair := 8, base := 0x2000000 })] }

/-- RING_CREATE of a ring of entries of 64 bytes at a line of partition 3's Spread page, or of a completion ring with vector 2. -/
def ringNew (cpl : Nat) (a b : RState) : State :=
  box 0x0402 (pay 24 [(0, 2, 9 - cpl), (2, 1, cpl), (4, 2, 4), (6, 1, 3), (7, 1, 4), (8, 8, 0x2000040), (16, 2, 8), (18, 2, 2), (20, 2, 1), (22, 2, 10)])
    (ringsS a b (partS .drained id))

theorem witness_ring_create : W cmdRingCreate (ringNew 0 .enabled .absent) (let q := hostReq (ringNew 0 .enabled .absent)
    let t := ringNew 0 .enabled .absent
    ringFieldBad t q (ringOf q (getRing t 9)) = false ∧ ∀ g ∈ ringPages (ringOf q (getRing t 9)), pageOwner t g = .part 3 ∧ pagePinned t g = false) :=
  W_of (by decide +kernel)
theorem witness_ring_create_completion : W cmdRingCreate (ringNew 1 .disabled .absent) (let q := hostReq (ringNew 1 .disabled .absent)
    ringFieldBad (ringNew 1 .disabled .absent) q (ringOf q (getRing (ringNew 1 .disabled .absent) 8)) = false) := W_of (by decide +kernel)

/-- RING_ENABLE, RING_DISABLE and RING_DESTROY of ring r. -/
def ringDo (op r : Nat) (a b : RState) : State := box op (pay 2 [(0, 2, r)]) (ringsS a b (partS .drained id))

theorem witness_ring_enable : W cmdRingEnable (ringDo 0x0403 9 .enabled .disabled) True ∧ W cmdRingEnable (ringDo 0x0403 9 .disabled .error) True :=
  ⟨W_of (by decide +kernel), W_of (by decide +kernel)⟩
theorem witness_ring_disable : W cmdRingDisable (ringDo 0x0404 9 .enabled .enabled) True
    ∧ W cmdRingDisable (ringDo 0x0404 8 .enabled .enabled) (ringInUse (ringDo 0x0404 8 .enabled .enabled) 8 = true) :=
  ⟨W_of (by decide +kernel), W_of (by decide +kernel)⟩
theorem witness_ring_destroy : W cmdRingDestroy (ringDo 0x0405 9 .enabled .disabled) True := W_of (by decide +kernel)

theorem test_ring : holds (exec (.ringCreate .host) (ringNew 0 .enabled .absent)) (fun t => (getRing t 9).st == .disabled && (getRing t 9).base == 0x2000040)
    && holds (exec (.ringCreate .host) (ringNew 1 .disabled .absent)) (fun t => (getRing t 8).irqTime == 10)
    && answers (.ringCreate .host) (ringNew 0 .enabled .enabled) 0x5131
    && holds (exec (.ringEnable .host) (ringDo 0x0403 9 .enabled .disabled)) (fun t => (getRing t 9).st == .enabled)
    && answers (.ringEnable .host) (ringDo 0x0403 9 .disabled .error) 0x5132
    && holds (exec (.ringDisable .host) (ringDo 0x0404 9 .enabled .enabled)) (fun t => (getRing t 9).st == .disabled)
    && answers (.ringDisable .host) (ringDo 0x0404 8 .enabled .enabled) 0x5132
    && holds (exec (.ringDestroy .host) (ringDo 0x0405 9 .enabled .disabled)) (fun t => (getRing t 9).st == .absent) = true := by decide +kernel

/-- Session 21 of partition 3 in some state. -/
def sessS (op : Nat) (p : List Byte) (x : Sess) : State := box op p { partS .drained id with sess := [(21, x)] }

/-- OPEN of session 20. -/
def openS (fl : Nat) : State := sessS 0x0501 (pay 12 [(0, 2, 20), (2, 1, 3), (3, 1, fl), (4, 2, 9), (6, 2, 21), (8, 4, 64)]) {}

theorem witness_sess_open : W cmdSessOpen (openS 1) (reserveFits (openS 1) 64 = true ∧ dirDue (openS 1) 3 = false) := W_of (by decide +kernel)

/-- A session at rest, one with an open request. -/
def idleX : Sess := { st := .idle, part := 3, tenant := 9, log := [11, 12, 13], committed := 3, rep := 0x3F800000, topP := 0x3F800000 }

theorem witness_sess_close : W cmdSessClose (sessS 0x0503 (pay 2 [(0, 2, 21)]) idleX) True
    ∧ W cmdSessClose (sessS 0x0503 (pay 2 [(0, 2, 21)]) { idleX with opened := true }) True := ⟨W_of (by decide +kernel), W_of (by decide +kernel)⟩

/-- SETTINGS with TOP_P and REP 1.0, and a TEMP. -/
def setS (temp : Nat) (x : Sess) : State :=
  sessS 0x0502 (pay 272 [(0, 2, 21), (16 + 76, 4, temp), (16 + 80, 4, 0x3F800000), (16 + 88, 4, 0x3F800000)]) x

theorem witness_settings : W cmdSettings (setS 0x3F000000 idleX) (let q := hostReq (setS 0x3F000000 idleX)
    otherBits (q.f 16 256) = false ∧ settingsBad (setS 0x3F000000 idleX) (withSettings (q.f 16 256) idleX) = false) := W_of (by decide +kernel)
theorem witness_settings_bad : W cmdSettings (setS 0xBF000000 idleX) (let q := hostReq (setS 0xBF000000 idleX)
    otherBits (q.f 16 256) = false ∧ settingsBad (setS 0xBF000000 idleX) (withSettings (q.f 16 256) idleX) = true) := W_of (by decide +kernel)
theorem witness_sess_read : W cmdSessRead (sessS 0x0504 (pay 2 [(0, 2, 21)]) idleX) True := W_of (by decide +kernel)
theorem witness_sess_log : W cmdSessLog (sessS 0x0505 (pay 10 [(0, 2, 21), (4, 4, 1), (8, 2, 9)]) idleX) True := W_of (by decide +kernel)

theorem test_sess : holds (exec (.sessOpen .host) (openS 1)) (fun t => (getSess t 20).st == .idle && (getSess t 20).draft && (getSess t 20).link == 21)
    && answers (.sessOpen .host) (openS 4) 0x5102
    && holds (exec (.sessClose .host) (sessS 0x0503 (pay 2 [(0, 2, 21)]) idleX)) (fun t => (getSess t 21).st == .free)
    && answers (.sessClose .host) (sessS 0x0503 (pay 2 [(0, 2, 21)]) { idleX with opened := true }) 0x4104
    && holds (exec (.settings .host) (setS 0x3F000000 idleX)) (fun t => (getSess t 21).temp == 0x3F000000)
    && answers (.settings .host) (setS 0xBF000000 idleX) 0x4140
    && holds (exec (.sessRead .host) (sessS 0x0504 (pay 2 [(0, 2, 21)]) idleX)) (fun t => t.sb.host.rsp.payload.length == 264)
    && holds (exec (.sessLog .host) (sessS 0x0505 (pay 10 [(0, 2, 21), (4, 4, 1), (8, 2, 9)]) idleX))
        (fun t => t.sb.host.rsp.payload == leBytes 2 16 ++ leBytes 12 4 ++ leBytes 13 4) = true := by decide +kernel

/-- ADOPT of one pair, and of none; then the buddy's copy. -/
def adoptS (n : Nat) : State := box 0x0506 (pay 40 [(0, 2, 77), (2, 1, n), (16, 2, 20), (18, 2, 5), (20, 1, 3), (22, 2, 9)])
  { live with parts := [(3, { part3 with st := .drained, model := some model3 })], fab := linked }

/-- No route leads to the buddy. -/
def lonelyS : State := { adoptS 1 with fab := live.fab }

theorem witness_adopt : W cmdAdopt (adoptS 1) (let q := hostReq (adoptS 1)
    q.f 2 1 = 1 ∧ (∀ a ∈ adoptPairs q.pay, a.part < 16 ∧ a.tenant < 4096) ∧ (adoptS 1).sb.ops.length < 16 ∧ canSend (adoptS 1) (q.f 0 2) = true) := W_of (by decide +kernel)
theorem witness_adopt_alone : W cmdAdopt lonelyS (let q := hostReq lonelyS
    (∀ a ∈ adoptPairs q.pay, a.part < 16 ∧ a.tenant < 4096) ∧ canSend lonelyS (q.f 0 2) = false) := W_of (by decide +kernel)

def adoptingS : State := match exec (.adopt .host) (adoptS 1) with
  | .next t => t
  | _ => live

def copies (m : BitVec 64) : List AdoptCopy := [{ held := true, model := m, entry := pay 256 [(56, 4, 2), (60, 4, 64), (64, 4, 8)], log := [7, 8, 9] }]

theorem witness_adopt_done : adoptingS.sb.ops.find? (fun o => o.op == (adoptingS.sb.ops.head?.map (·.op)).getD 0 && o.opcode == 0x0506) ≠ none := by
  decide +kernel

theorem test_adopt : holds (exec (.adoptDone ((adoptingS.sb.ops.head?.map (·.op)).getD 0) (copies model3.modelId)) adoptingS)
      (fun t => (getSess t 20).st == .sided && (getSess t 20).log == [7, 8] && (getSess t 20).pend == some 8 && t.sb.ops == [])
    && holds (exec (.adoptDone ((adoptingS.sb.ops.head?.map (·.op)).getD 0) (copies (model3.modelId + 1))) adoptingS) (fun t => (getSess t 20).st == .free)
    && answers (.adopt .host) lonelyS 0x3110 = true := by decide +kernel

/-! ### TEL, INT and FW -/

theorem witness_floorplan : W cmdFloorplan (box 0x0601 (pay 4 []) { live with report := leBytes 0x1234 2 }) True := W_of (by decide +kernel)
theorem witness_sensors : ∀ k ∈ [0, 1, 2, 3, 4], W cmdSensors (box 0x0602 (pay 8 [(0, 1, k)]) live) ((hostReq (box 0x0602 (pay 8 [(0, 1, k)]) live)).f 0 1 ≤ 4) := by
  intro k h
  fin_cases h <;> exact W_of (by decide +kernel)

/-- A host with two event records. -/
def evS (op : Nat) : State := box op (pay 9 [(0, 8, 2), (8, 1, 5)])
  { live with sb := { live.sb with host := { live.sb.host with events := [{ code := 0x2220, evtSeq := 1 }, { code := 0x0301, evtSeq := 2, unit := 6 }], evtSeq := 2 } } }

theorem witness_events : W cmdTelEvents (evS 0x0603) True ∧ W cmdFabEvents (evS 0x090A) True := ⟨W_of (by decide +kernel), W_of (by decide +kernel)⟩

def wattS (w : Nat) : State := box 0x0604 (pay 2 [(0, 2, w)]) live

theorem witness_power_limit : W cmdPowerLimit (wattS 500) (500 ≤ fusedWatts (wattS 500)) ∧ W cmdPowerLimit (wattS 499) True :=
  ⟨W_of (by decide +kernel), W_of (by decide +kernel)⟩

theorem test_tel : holds (exec (.floorplan .host) (box 0x0601 (pay 4 []) { live with report := leBytes 0x1234 2 }))
      (fun t => t.sb.host.rsp.payload == leBytes 2 4 ++ leBytes 2 4 ++ leBytes 0 8 ++ [0x34, 0x12])
    && holds (exec (.sensors .host) (box 0x0602 (pay 8 [(0, 1, 3)]) live)) (fun t => t.sb.host.rsp.payload.length == 48)
    && holds (exec (.telEvents .host) (evS 0x0603)) (fun t => t.sb.host.rsp.payload.take 9 == leBytes 1 8 ++ [1] && t.sb.host.rsp.payload.length == 80)
    && holds (exec (.fabEvents .host) (evS 0x090A)) (fun t => t.sb.host.rsp.payload.take 10 == leBytes 2 8 ++ [1, 0])
    && holds (exec (.powerLimit .host) (wattS 500)) (fun t => t.cfg.powerLimit == some 500) && answers (.powerLimit .host) (wattS 499) 0x5101
    = true := by decide +kernel

def intRecS : State := box 0x0701 (pay 5 [(0, 4, 2), (4, 1, 9)]) { live with sb := { live.sb with errRecs := [{ code := 0x2220, kind := 3, foundBy := 1, seq := 2 }] } }

theorem witness_int : W cmdIntRecords intRecS True ∧ W cmdChkMode (box 0x0702 (pay 1 [(0, 1, 2)]) live) True ∧ W cmdSpares (box 0x0704 (pay 1 [(0, 1, 7)]) live) True :=
  ⟨W_of (by decide +kernel), W_of (by decide +kernel), W_of (by decide +kernel)⟩

def outS (k n : Nat) : State := box 0x0703 (pay 3 [(0, 1, k), (2, 1, n)]) live

theorem witness_mapout : ∀ k ∈ [1, 2, 3], W cmdMapout (outS k 5) ((outS k 5).sb.ops.length < 16 ∧ unitPresent (outS k 5).units.core 5 = true
    ∧ unitPresent (outS k 5).units.slice 5 = true ∧ unitPresent (outS k 5).units.chan 5 = true) := by
  intro k h
  fin_cases h <;> exact W_of (by decide +kernel)

/-- A channel whose map-out is pending, without a free row to move to and with one. -/
def pendOut : State := { live with cfg := { live.cfg with pendChannels := [5] } }

theorem test_int : holds (exec (.intRecords .host) intRecS) (fun t => t.sb.host.rsp.payload.take 16 == leBytes 1 16)
    && holds (exec (.chkMode .host) (box 0x0702 (pay 1 [(0, 1, 2)]) live)) (fun t => t.cfg.chkMode == 2)
    && holds (exec (.spares .host) (box 0x0704 (pay 1 [(0, 1, 7)]) live)) (fun t => t.sb.host.rsp.payload.length == 48)
    && holds (exec (.mapout .host) (outS 1 5)) (fun t => !unitPresent t.units.core 5 && t.cfg.pendCores == [])
    && holds (exec (.mapout .host) (outS 2 5)) (fun t => !unitPresent t.units.slice 5)
    && holds (exec (.mapout .host) (outS 3 5)) (fun t => t.cfg.pendChannels == [5]) = true := by decide +kernel

/-- A staged image of no body, which its signature does not cover; LENGTH 320. -/
def fwS (op : Nat) (p : List Byte) (v : Bool) (levels flags : Nat) : State :=
  box op p { live with fw := { live.fw with staged := spWrite [] 0 (leBytes 0x4E574649 4 ++ leBytes 1 4 ++ leBytes 9 4 ++ leBytes levels 4), stagedLen := 320, verified := v,
                                            running := { version := 8, levels := 6 } } } flags

theorem witness_fw : W cmdFwInfo (fwS 0x0801 [] false 2 0) True ∧ W cmdStageWrite (fwS 0x0802 (pay 12 [(0, 4, 64), (8, 4, 0x11223344)]) true 2 0) True
    ∧ W cmdStageVerify (fwS 0x0803 (pay 4 [(0, 4, 320)]) false 2 0) ((fwS 0x0803 (pay 4 [(0, 4, 320)]) false 2 0).sb.ops.length < 16) :=
  ⟨W_of (by decide +kernel), W_of (by decide +kernel), W_of (by decide +kernel)⟩
theorem witness_activate : W cmdActivate (fwS 0x0804 [] true 6 0) (activeParts (fwS 0x0804 [] true 6 0) = []) ∧ W cmdActivate (fwS 0x0804 [] false 6 0) True
    ∧ W cmdActivate (fwS 0x0804 [] true 2 0) (let t := fwS 0x0804 [] true 2 0; levelCount (stagedNum t 12 4) < levelCount (runningImage t).levels.toNat) :=
  ⟨W_of (by decide +kernel), W_of (by decide +kernel), W_of (by decide +kernel)⟩

def verifyingS : State := match exec (.stageVerify .host) (fwS 0x0803 (pay 4 [(0, 4, 319)]) false 2 0) with
  | .next t => t
  | _ => live

theorem witness_verify_done : verifyingS.sb.ops.find? (fun o => o.opcode == 0x0803) ≠ none := by decide +kernel

theorem test_fw : holds (exec (.fwInfo .host) (fwS 0x0801 [] false 2 0)) (fun t =>
      t.sb.host.rsp.payload.take 20 == leBytes 8 4 ++ leBytes 9 4 ++ leBytes 0 4 ++ leBytes 6 4 ++ leBytes 2 4)
    && holds (exec (.stageWrite .host) (fwS 0x0802 (pay 12 [(0, 4, 64), (8, 4, 0x11223344)]) true 2 0)) (fun t =>
      spBytes t.fw.staged 64 4 == leBytes 0x11223344 4 && !t.fw.verified)
    && holds (exec (.stageVerify .host) (fwS 0x0803 (pay 4 [(0, 4, 320)]) false 2 0)) (fun t => t.sb.host.rsp.code == 0x0510 && t.sb.ops.length == 1)
    && holds (exec .stageVerifyDone verifyingS) (fun t => t.sb.ops == [] && !t.fw.verified && t.sb.host.events.any (fun e => e.code == 0x5212))
    && holds (exec (.activate .host) (fwS 0x0804 [] true 6 0)) (fun t => t.boot.activating && t.boot.resetPending == some (.warm, 3))
    && answers (.activate .host) (fwS 0x0804 [] false 6 0) 0x5210 && answers (.activate .host) (fwS 0x0804 [] true 2 0) 0x5211
    && answers (.activate .host) (fwS 0x0804 [] true 2 2) 0 = true := by decide +kernel

/-- A channel whose map-out waits, with Spread rows free, and with 752 rows Pinned, which is all above the reserve. -/
def pendS (n : Nat) : State :=
  { ownedS .owned with cfg := { live.cfg with pendChannels := [5] },
                       mem := { live.mem with rowMode := (List.range n).map (fun i => (i + 16, .pinned)) } }

theorem spGet_same {α : Type} {d x : α} {k : Nat} : ∀ {l : Sp α}, (∀ e ∈ l, e.2 = x) → (∃ e ∈ l, e.1 = k) → spGet d l k = x
  | [], _, ⟨_, h, _⟩ => nomatch h
  | (a, v) :: t, h, ⟨e, he, hk⟩ => by
    unfold spGet spGet?
    by_cases g : a = k
    · simpa [g] using h (a, v) (List.mem_cons_self ..)
    · simp only [g, if_false]
      rcases List.mem_cons.mp he with rfl | he
      · exact absurd hk g
      · exact spGet_same (fun e he => h e (List.mem_cons_of_mem _ he)) ⟨e, he, hk⟩

theorem spGet_rows {d x : RowMode} {n f : Nat} (h : 16 ≤ f) (k : f < n + 16) : spGet d ((List.range n).map (fun i => (i + 16, x))) f = x := by
  refine spGet_same (fun e he => ?_) ⟨(f, x), List.mem_map.mpr ⟨f - 16, List.mem_range.mpr (by omega), by congr 1; omega⟩, rfl⟩
  obtain ⟨i, _, rfl⟩ := List.mem_map.mp he
  rfl

theorem no_free_row {n : Nat} (hn : 752 ≤ n) : freeRow (pendS n) = false := by
  unfold freeRow
  rw [List.any_eq_false]
  intro f h
  rw [List.mem_range] at h
  by_cases g : f < 16
  · simp; omega
  · have k : rowModeOf (pendS n) f = .pinned := by
      unfold rowModeOf
      rw [if_neg g]
      exact spGet_rows (by omega) (by omega)
    simp [k]

theorem witness_no_free_row : freeRow (pendS 752) = false := no_free_row le_rfl

theorem witness_mapout_proceeds : (5 : Nat) < 256 ∧ mem 5 (pendS 0).cfg.pendChannels = true ∧ (pendS 0).boot.domainsOff = false ∧ (pendS 0).sb.restarting = false
    ∧ homeOwned (pendS 0) 5 = false ∧ freeRow (pendS 0) = true ∧ homeOwned (pendS 752) 5 = false := by decide +kernel

theorem test_mapout_proceeds : holds (exec (.mapoutProceed 5) (pendS 0)) (fun t => !unitPresent t.units.chan 5 && t.cfg.pendChannels == []) = true := by
  decide +kernel

/-! ### FAB -/

theorem witness_identity : W cmdFabIdentity (box 0x0901 (pay 2 [(0, 2, 300)]) live) True := W_of (by decide +kernel)

/-- ROUTE of one entry: valid, ports 0 and 2; or with a reserved bit. -/
def routeS (e : Nat) : State := box 0x0902 (pay 12 [(0, 4, 40), (4, 2, 1), (8, 4, e)]) live

theorem witness_route : W cmdRoute (routeS 0x1000005) (routeBad (routeS 0x1000005) 40 0x1000005 = false)
    ∧ W cmdRoute (routeS 0x40000000) (routeBad (routeS 0x40000000) 40 0x40000000 = true) := ⟨W_of (by decide +kernel), W_of (by decide +kernel)⟩

def timeS (role set : Nat) (done : Bool) : State :=
  box 0x0903 (pay 16 [(0, 1, role), (1, 1, set), (8, 8, 5000)]) { live with fab := { live.fab with timeSet := done } }

theorem witness_time : W cmdFabTime (timeS 1 0 false) True ∧ W cmdFabTime (timeS 2 1 false) ((timeS 2 1 false).fab.timeState = 0) ∧ W cmdFabTime (timeS 2 1 true) True :=
  ⟨W_of (by decide +kernel), W_of (by decide +kernel), W_of (by decide +kernel)⟩

def portS (on : Nat) (st : PortState) : State := box 0x0904 (pay 2 [(0, 1, 4), (1, 1, on)]) { live with fab := { live.fab with ports := [(4, { st := st, enabled := on == 0 })] } }

theorem witness_fab_port : W cmdFabPort (portS 0 .up8) (unitPresent (portS 0 .up8).units.port 4 = true)
    ∧ W cmdFabPort (portS 1 .disabled) (unitOn (portS 1 .disabled) (portS 1 .disabled).units.port 4 = true) ∧ W cmdFabPort (portS 1 .up8) True :=
  ⟨W_of (by decide +kernel), W_of (by decide +kernel), W_of (by decide +kernel)⟩

theorem test_fab : holds (exec (.fabIdentity .host) (box 0x0901 (pay 2 [(0, 2, 300)]) live)) (fun t => t.fab.assigned && t.fab.ident == 300)
    && holds (exec (.route .host) (routeS 0x1000005)) (fun t => routeOf t 40 == 0x1000005) && answers (.route .host) (routeS 0x40000000) 0x3111
    && holds (exec (.fabTime .host) (timeS 1 0 false)) (fun t => t.fab.role == 1 && t.fab.timeState == 1 && t.fab.stratum == 0)
    && holds (exec (.fabTime .host) (timeS 2 1 false)) (fun t => t.fab.role == 2 && t.ftime == 5000) && answers (.fabTime .host) (timeS 2 1 true) 0x5131
    && holds (exec (.fabPort .host) (portS 0 .down)) (fun t => (getPort t 4).st == .disabled && !(getPort t 4).enabled)
    && holds (exec (.fabPort .host) (portS 1 .disabled)) (fun t => (getPort t 4).st == .down && (getPort t 4).enabled) = true := by decide +kernel

def buddyS (set : Nat) : State := box 0x0905 (pay 4 [(0, 1, 3), (1, 1, set), (2, 2, 77)]) (partS .serving (fun p => { p with buddy := if set = 1 then none else some 5 }))

theorem witness_buddy : W cmdBuddy (buddyS 1) ((watchedSoon (modPart 3 (fun x => { x with buddy := some 77 }) (buddyS 1))).length ≤ 4096) ∧ W cmdBuddy (buddyS 0) True :=
  ⟨W_of (by decide +kernel), W_of (by decide +kernel)⟩

def grantS (mode : Nat) : State := box 0x0906 (pay 12 [(0, 1, mode), (2, 2, 77), (4, 1, 2), (8, 4, if mode = 0 then 1 else 0)])
  { live with mem := { live.mem with owner := [(16, .reserve)], grants := if mode = 0 then [] else [{ src := 77, spart := 2, pages := [16] }] } }

theorem witness_grant : W cmdGrant (grantS 0) (grantOf (grantS 0) 77 2 = none ∧ (grantS 0).mem.grants.length < 64) := W_of (by decide +kernel)
theorem witness_grant_pages : 1 ≤ (freeSpread (grantS 0)).length :=
  List.length_pos_of_mem (List.mem_filter.mpr ⟨List.mem_range.mpr (show 17 < _ by decide), by decide +kernel⟩)
theorem witness_grant_released : W cmdGrant (grantS 1) (grantOf (grantS 1) 77 2 = some { src := 77, spart := 2, pages := [16] }) := W_of (by decide +kernel)

/-- GROUP_FORM of two members of which this device, identity 300, is the second: the first part, the second, or both in one. -/
def formS (at_ n : Nat) (x : Option Group) : State :=
  box 0x0907 (pay (32 + 4 * n) ([(0, 2, 6), (2, 1, 3), (4, 4, 2), (8, 4, at_), (12, 2, n), (16, 8, 99), (24, 4, 1000)]
      ++ (List.range n).map (fun i => (32 + 4 * i, 4, ([77 + 1 * 65536, 300 + 3 * 65536] : List Nat)[i + at_]?.getD 0))))
    { partS .serving id with fab := { linked with groups := (x.map (fun g => (6, g))).toList } }

/-- The list after its first part. -/
def half : Group := { part := 3, key := 99, total := 2, timeout := 1000, members := [(77, 1)] }

theorem witness_group_form : W cmdGroupForm (formS 0 1 none) (formRefused (hostReq (formS 0 1 none)) (formS 0 1 none) = false)
    ∧ W cmdGroupForm (formS 1 1 (some half)) (formRefused (hostReq (formS 1 1 (some half))) (formS 1 1 (some half)) = false
      ∧ ownRank (formS 1 1 (some half)) 3 [(77, 1), (300, 3)] = some 1
      ∧ (watchedSoon (putGroup 6 { half with members := [(77, 1), (300, 3)], complete := true, rank := 1 } (formS 1 1 (some half)))).length ≤ 4096)
    ∧ W cmdGroupForm (formS 1 1 none) (formRefused (hostReq (formS 1 1 none)) (formS 1 1 none) = true) :=
  ⟨W_of (by decide +kernel), W_of (by decide +kernel), W_of (by decide +kernel)⟩

theorem mem_dedup {x : Nat} : ∀ {l : List Nat}, x ∈ dedup l ↔ x ∈ l
  | [] => Iff.rfl
  | y :: t => by
    by_cases e : x = y
    · simp [dedup, e]
    · simp [dedup, List.mem_filter, mem_dedup (l := t), e]

theorem length_insertBy {α : Type} (le : α → α → Bool) (x : α) : ∀ l : List α, (insertBy le x l).length = l.length + 1
  | [] => rfl
  | y :: t => by
    unfold insertBy
    split <;> simp [length_insertBy le x t]

theorem length_sortBy {α : Type} (le : α → α → Bool) (l : List α) : (sortBy le l).length = l.length := by
  have k : ∀ (l a : List α), (l.foldl (fun acc x => insertBy le x acc) a).length = a.length + l.length := fun l => by
    induction l with
    | nil => simp
    | cons x t ih => intro a; simp [ih, length_insertBy]; omega
  simpa [sortBy] using k l []

/-- A list with the numbers from 1000 up to 1000 + k has at least k of them. -/
theorem distinct_length {k : Nat} {l : List Nat} (h : ∀ d < k, d + 1000 ∈ l) : k ≤ (sortNat (dedup l)).length := by
  rw [sortNat, length_sortBy]
  have e : ((Finset.range k).image (· + 1000)).card = k := by
    rw [Finset.card_image_of_injective _ (fun a b c => by simpa using c), Finset.card_range]
  have f : (Finset.range k).image (· + 1000) ⊆ (dedup l).toFinset := fun x hx => by
    obtain ⟨d, hd, rfl⟩ := Finset.mem_image.mp hx
    exact List.mem_toFinset.mpr (mem_dedup.mpr (h d (Finset.mem_range.mp hd)))
  calc k = _ := e.symm
    _ ≤ (dedup l).toFinset.card := Finset.card_le_card f
    _ ≤ (dedup l).length := List.toFinset_card_le _

/-- The second part of the list comes to a device that 4,097 groups give 4,097 watched neighbours. -/
def pairOf (d : Nat) : Group := { st := .formed, complete := true, total := 2, members := [(300, 0), (d + 1000, 0)] }
def crowd : List (Nat × Group) := (List.range 4097).map (fun d => (d + 7, pairOf d))
def amid (l : List (Nat × Group)) : State := let s := formS 1 1 (some half)
  { s with fab := { s.fab with groups := s.fab.groups ++ l } }
def crowdS : State := amid crowd

theorem pairOf_watches (s : State) (h : s.fab.ident = 300) (d : Nat) : d + 1000 ∈ groupPeers s (pairOf d) := by
  refine List.mem_filter.mpr ⟨List.mem_map.mpr ⟨1, ?_, rfl⟩, ?_⟩
  · exact List.mem_flatMap.mpr ⟨0, by decide, by simp [pairOf]⟩
  · simp [h]

theorem amid_ident (y : Group) (l : List (Nat × Group)) : (putGroup 6 y (amid l)).fab.ident = 300 := rfl
theorem amid_groups (y : Group) (l : List (Nat × Group)) : (putGroup 6 y (amid l)).fab.groups = l.filter (fun x => x.1 != 6) ++ [(6, y)] := rfl

theorem crowd_watches (y : Group) : 4096 < (watchedSoon (putGroup 6 y crowdS)).length := by
  unfold watchedSoon peersOf
  refine distinct_length (k := 4096 + 1) fun d hd => List.mem_append_right _ (List.mem_flatMap.mpr ⟨(d + 7, pairOf d), ?_, ?_⟩)
  · rw [crowdS, amid_groups]
    refine List.mem_filter.mpr ⟨List.mem_append_left _ (List.mem_filter.mpr ⟨List.mem_map.mpr ⟨d, List.mem_range.mpr hd, rfl⟩, ?_⟩), rfl⟩
    simp
  · exact pairOf_watches _ (amid_ident y crowd) d

theorem witness_group_crowd : W cmdGroupForm crowdS (formRefused (hostReq crowdS) crowdS = false ∧ ownRank crowdS 3 [(77, 1), (300, 3)] = some 1) :=
  W_of (by decide +kernel)

/-- RELEASE and STATUS of group 6. -/
def groupS (op : Nat) (p : List Byte) (x : Group) : State := box op p { partS .serving id with fab := { linked with groups := [(6, x)] } }
def formed : Group := { half with st := .formed, complete := true, members := [(77, 1), (300, 3)], rank := 1 }

theorem witness_group_release : W cmdGroupRelease (groupS 0x0908 (pay 2 [(0, 2, 6)]) formed) True
    ∧ W cmdGroupRelease (groupS 0x0908 (pay 2 [(0, 2, 6)]) { formed with st := .forming }) True := ⟨W_of (by decide +kernel), W_of (by decide +kernel)⟩
theorem witness_fab_status : ∀ k ∈ [0, 1, 2], W cmdFabStatus (groupS 0x0909 (pay 4 [(0, 1, k), (2, 2, 6)]) formed) True := by
  intro k h
  fin_cases h <;> exact W_of (by decide +kernel)

theorem test_groups : holds (exec (.buddy .host) (buddyS 1)) (fun t => (getPart t 3).buddy == some 77) && holds (exec (.buddy .host) (buddyS 0)) (fun t => (getPart t 3).buddy == none)
    && holds (exec (.grant .host) (grantS 0)) (fun t => t.mem.grants.map (·.pages) == [[17]] && pageOwner t 17 == .reserve)
    && holds (exec (.grant .host) (grantS 1)) (fun t => t.mem.grants == [] && pageOwner t 16 == .free)
    && holds (exec (.groupForm .host) (formS 0 1 none)) (fun t => (groupOf t 6) == some half)
    && holds (exec (.groupForm .host) (formS 1 1 (some half))) (fun t => t.sb.host.rsp.code == 0x0510 && t.out != [] && (groupOf t 6).map (·.rank) == some 1)
    && answers (.groupForm .host) (formS 1 1 none) 0x3121
    && holds (exec (.groupRelease .host) (groupS 0x0908 (pay 2 [(0, 2, 6)]) formed)) (fun t => t.fab.groups == [])
    && answers (.groupRelease .host) (groupS 0x0908 (pay 2 [(0, 2, 6)]) { formed with st := .forming }) 0x5131
    && holds (exec (.fabStatus .host) (groupS 0x0909 (pay 4 [(0, 1, 1), (2, 2, 6)]) formed)) (fun t => t.sb.host.rsp.payload == [1, 1] ++ leBytes 1 4 ++ leBytes 2 4)
    = true := by decide +kernel

/-! ### DIAG -/

/-- A Drained partition 3 of a model with one image, and core 0 of it. -/
def diagS (op : Nat) (p : List Byte) (st : PState) (f : Core → Core) : State :=
  box op p { kstate f with parts := [(3, { part3 with st := st, model := some model3 })], cfg := { live.cfg with chkMode := 2 } }

theorem witness_diag_launch : W cmdDiagLaunch (diagS 0x0A01 (pay 32 [(0, 1, 3), (8, 8, 5)]) .drained id) (let t := diagS 0x0A01 (pay 32 [(0, 1, 3), (8, 8, 5)]) .drained id
    t.sb.ops.length < 16 ∧ ∃ img, model3.images[0]? = some img ∧ imageFits t (getPart t 3) img = true ∧ 0 < img.lcores) := by
  refine ⟨(W_of (h := True) (by decide +kernel)).1, by decide +kernel, _, rfl, by decide +kernel, by decide +kernel⟩

theorem witness_reads : W cmdReadStore (diagS 0x0A02 (pay 10 [(4, 4, 8), (8, 2, 2)]) .halted (fun c => { c with store := [(8, 0xEE)] }))
      (storeCode (getCore (diagS 0x0A02 (pay 10 [(4, 4, 8), (8, 2, 2)]) .halted (fun c => { c with store := [(8, 0xEE)] })) 0) 8 2 = none)
    ∧ W cmdReadScoreboard (diagS 0x0A03 (pay 1 []) .drained id) (coreOwner (diagS 0x0A03 (pay 1 []) .drained id) 0 = some 3) :=
  ⟨W_of (by decide +kernel), W_of (by decide +kernel)⟩

/-- INJECT and RAW_READ: a line at DPA 0x2000000, a slice's way, a core-store byte. -/
def rawV (k : Nat) : Nat := ([0x2000000, 3 * 2 ^ 56 + 7 * 2 ^ 40, 8] : List Nat)[k]?.getD 0
def injS (k : Nat) (st : PState) : State := diagS 0x0A04 (pay 88 [(0, 1, k), (8, 8, rawV k), (16, 1, 0xAA), (80, 1, 0x1F)]) st id
def rawS (k : Nat) (st : PState) : State := diagS 0x0A05 (pay 16 [(0, 1, k), (8, 8, rawV k)]) st (fun c => { c with store := [(8, 0xEE)] })

/-- The request names a place, and whether it may be touched. -/
def placed (may : Bool) (s : State) : Bool := match rawPlace s (hostReq s) with
  | .ok pl => s.cfg.chkMode != 0 && unitDrained s (placeOwner s pl) == may
  | .error _ => false

theorem witness_inject : ∀ k ∈ [0, 1, 2], W cmdInject (injS k .drained) (placed true (injS k .drained) = true) ∧ W cmdRawRead (rawS k .drained) (placed true (rawS k .drained) = true) := by
  intro k h
  fin_cases h <;> exact ⟨W_of (by decide +kernel), W_of (by decide +kernel)⟩
theorem witness_inject_refused : ∀ k ∈ [0, 2], W cmdInject (injS k .serving) (placed false (injS k .serving) = true) ∧ W cmdRawRead (rawS k .serving) (placed false (rawS k .serving) = true) := by
  intro k h
  fin_cases h <;> exact ⟨W_of (by decide +kernel), W_of (by decide +kernel)⟩

/-- DOMAIN of a core that is nobody's, and of a quadrant over cores that are On. -/
def domS (k n on : Nat) : State := diagS 0x0A06 (pay 5 [(0, 1, k), (2, 2, n), (4, 1, on)]) .drained id

theorem witness_domain : W cmdDiagDomain (domS 0 50 0) (domainByte (domS 0 50 0) 0 50 ≤ 1 ∧ domainOwned (domS 0 50 0) 0 50 = false ∧ breaksOrder (domS 0 50 0) 0 50 0 = false)
    ∧ W cmdDiagDomain (domS 5 1 0) (domainByte (domS 5 1 0) 5 1 ≤ 1 ∧ domainOwned (domS 5 1 0) 5 1 = false ∧ breaksOrder (domS 5 1 0) 5 1 0 = true) :=
  ⟨W_of (by decide +kernel), W_of (by decide +kernel)⟩

theorem test_diag : holds (exec (.diagLaunch .host) (diagS 0x0A01 (pay 32 [(0, 1, 3), (8, 8, 5)]) .drained id)) (fun t => t.sb.host.rsp.code == 0x0510 && (getPart t 3).kernel.isSome)
    && holds (exec (.readStore .host) (diagS 0x0A02 (pay 10 [(4, 4, 8), (8, 2, 2)]) .halted (fun c => { c with store := [(8, 0xEE)] }))) (fun t => t.sb.host.rsp.payload == [0xEE, 0])
    && holds (exec (.readScoreboard .host) (diagS 0x0A03 (pay 1 []) .drained id)) (fun t => t.sb.host.rsp.payload.length == 64 * 4 + 4 * 64 * 4)
    && holds (exec (.inject .host) (injS 2 .drained)) (fun t => spGet 0 (getCore t 0).store 8 == 0xAA && (getCore t 0).injected == [8])
    && answers (.inject .host) (injS 2 .serving) 0x2260
    && holds (exec (.rawRead .host) (rawS 2 .drained)) (fun t => t.sb.host.rsp.payload.take 1 == [0xEE] && t.sb.host.rsp.payload.length == 73)
    && holds (exec (.diagDomain .host) (domS 0 50 0)) (fun t => spGet 0 t.units.core 50 == 1) && answers (.diagDomain .host) (domS 5 1 0) 0x5133 = true := by
  decide +kernel

/-! ### Management transports -/

/-- The sideband with SPDM at a stage: 1 after GET_VERSION, 2 with capabilities, 3 with algorithms; a chain of three bytes in the fuses. -/
def spdmS (k : Nat) : State :=
  { live with fuse := { live.fuse with certChain := [7, 8, 9] },
              side := { transcript := if 1 ≤ k then [0x10] else [], spdmVersion := if 2 ≤ k then 0x12 else 0, spdmCaps := decide (2 ≤ k), spdmAlgs := decide (3 ≤ k) } }

theorem witness_transports : heard live (.mctp .smbus 9) = true ∧ heard live (.mctp .pcie 9) = true ∧ (spdmS 1).sb.restarting = false ∧ (spdmS 1).side.transcript ≠ []
    ∧ (spdmS 2).side.spdmCaps = true ∧ (spdmS 3).side.spdmAlgs = true ∧ (2 : Nat) < (spdmS 3).fuse.certChain.length
    ∧ ({ live with sb := { live.sb with restarting := true } } : State).sb.restarting = true := by decide +kernel

/-- What was sent last begins with these bytes. -/
def saysFirst (l : List Byte) (t : State) : Bool := match t.out with
  | [.mctp _ m] => m.take l.length == l
  | _ => false

theorem test_transports : holds (exec (.setEndpointId (.mctp .smbus 9) 0 30) live) (fun t => t.side.eid == 30 && saysFirst [0, 0, 30, 0] t)
    && holds (exec (.setEndpointId (.mctp .smbus 9) 0 255) live) (fun t => t.side.eid == 0 && saysFirst [2] t)
    && holds (exec (.getEndpointId (.mctp .smbus 9)) live) (saysFirst [0, 0, 0, 0]) && holds (exec (.getEndpointUuid (.mctp .i3c 9)) live) (saysFirst [0])
    && holds (exec (.getMctpVersionSupport (.mctp .smbus 9) 0) live) (saysFirst [0, 1, 0xF1, 0xF3, 0xFF, 0])
    && holds (exec (.getMessageTypeSupport (.mctp .smbus 9)) live) (saysFirst [0, 2, 5, 0x7E])
    && holds (exec (.getVendorDefinedMessageSupport (.mctp .smbus 9) 0) live) (saysFirst [0, 0xFF, 0, 0x1C, 0xB7])
    && holds (exec (.i3cDynamicAddress false 0x6A 8) live) (fun t => t.side.i3c == some 8) && holds (exec (.i3cDynamicAddress false 0x6B 8) live) (fun t => t.side.i3c == none)
    && holds (exec .smbusLineTimeout { live with side := { i3c := some 8 } }) (fun t => t.side.i3c == none) = true := by decide +kernel

theorem test_spdm : holds (exec (.getVersion .doe) (spdmS 3)) (fun t => !t.side.spdmAlgs && saysFirst [0x10, 4, 0, 0, 0, 2, 0, 0x12, 0, 0x13] t)
    && holds (exec (.getCapabilities .doe 0x13) (spdmS 1)) (fun t => t.side.spdmVersion == 0x13 && saysFirst [0x13, 0x61] t)
    && holds (exec (.getCapabilities .doe 0x13) (spdmS 0)) (saysFirst [0x10, 0x7F, 4, 0])
    && holds (exec (.negotiateAlgorithms .doe 0x80 2) (spdmS 2)) (fun t => t.side.spdmAlgs && saysFirst [0x12, 0x63] t)
    && holds (exec (.getDigests .doe) (spdmS 3)) (saysFirst [0x12, 1, 0, 1])
    && holds (exec (.getCertificate .doe 0 1 9) (spdmS 3)) (saysFirst [0x12, 2, 0, 0, 2, 0, 0, 0, 8, 9])
    && holds (exec (.getMeasurements .doe 9 []) (spdmS 3)) (saysFirst [0x12, 0x7F, 1, 0])
    && holds (exec (.challenge .doe 0 []) { spdmS 3 with sb := { live.sb with restarting := true } }) (saysFirst [0x12, 0x7F, 3, 0]) = true := by decide +kernel

/-! ### Ports, peers, time and groups -/

/-- Port 4 in a state; the device has identity 300, and routes by it to 77. -/
def jnS (x : Port) : State :=
  { live with fab := { live.fab with ident := 300, assigned := true, routes := [(77, 0x1000010)], ports := [(4, x)] }, fw := { live.fw with running := { levels := 6 } } }

/-- A partner's record: identity, whether it has one, and its levels (11 R287). -/
def prec (ident levels : Nat) : BitVec 256 := BitVec.ofNat 256 (ident + 2 ^ 25 + levels * 2 ^ 32)

theorem witness_ports : portLive (jnS { st := .down }) 4 = true ∧ laneCount 0x0F = 4 ∧ laneCount 0x07 < 4 ∧ portLive (jnS { st := .training }) 4 = true
    ∧ ownClaimed (jnS { st := .training }) (prec 300 6) = true ∧ ownClaimed (jnS { st := .training }) (prec 77 6) = false
    ∧ topLevel (ownLevels (jnS { st := .training }) &&& fld (prec 77 1).toNat 47 32) = 0
    ∧ topLevel (ownLevels (jnS { st := .training }) &&& fld (prec 77 6).toNat 47 32) = 3
    ∧ (getPort (jnS { st := .up6, good := 0x3F }) 4).good.getLsbD 0 = true ∧ portUp (getPort (jnS { st := .up6, good := 0x3F }) 4) = true
    ∧ widthOf ((0x3F : BitVec 8) ||| 0x40) = .up6 ∧ widthOf ((0x3F : BitVec 8) ||| 0xC0) ≠ .up6
    ∧ (getPort (jnS { st := .up8, good := 0xFF, sameReplay := 63, lastSeq := 9 }) 4).good &&& 1 ≠ 0 ∧ (getPort (jnS { st := .incompatible }) 4).st = .incompatible := by
  decide +kernel

/-- Port 4 Up with two codewords held, and the 63rd replay of number 9 behind it. -/
def heldPort : Port := { st := .up8, good := 0xFF, txSeq := 10, tx := [{ seq := 8, slots := [] }, { seq := 9, slots := [] }], sameReplay := 63, lastSeq := 9 }

theorem test_replays : holds (exec (.codewordReplay 4 9 (.partner 1)) (jnS heldPort)) (fun t => (getPort t 4).st == .up6 && (getPort t 4).replays == 1)
    && holds (exec (.codewordReplay 4 9 (.partner 0)) (jnS heldPort)) (fun t => (getPort t 4).sameReplay == 0 && t.out == [.codeword 4 { seq := 9, slots := [] }])
    && holds (exec (.codewordReplay 4 8 (.partner 1)) (jnS heldPort)) (fun t => (getPort t 4).sameReplay == 1 && (getPort t 4).replays == 2)
    && holds (exec (.codewordReplay 4 8 .own) (jnS heldPort)) (fun t => t.out == [.link 4 "replay request" (leBytes 8 8)] && (getPort t 4).txSeq == 11) = true := by
  decide +kernel

theorem test_ports : holds (exec (.portSignalDetect 4 0x0F) (jnS { st := .down })) (fun t => (getPort t 4).st == .training)
    && holds (exec (.portSignalDetect 4 0x07) (jnS { st := .down })) (fun t => (getPort t 4).st == .down)
    && holds (exec (.laneRetrain 4 0x40) (jnS { st := .up6, good := 0x3F })) (fun t => (getPort t 4).good == 0x7F && (getPort t 4).st == .up6)
    && holds (exec (.linkKeepalive 4) (jnS { st := .up4, partner := prec 77 6 })) (fun t => t.out == [.link 4 "keepalive" []]) = true := by decide +kernel

/-- A port comes up, and restripes (11 R286, R289). -/
theorem test_port_up : holds (exec (.neighbourArrived 4 0x7F (prec 77 6)) (jnS { st := .training })) (fun t => (getPort t 4).st == .up6 && (getPort t 4).level == 3) = true := by
  decide +kernel
theorem test_port_restripes : holds (exec (.laneBad 4 0) (jnS { st := .up8, good := 0xFF })) (fun t => (getPort t 4).st == .up6 && (getPort t 4).restripes == 1) = true := by
  decide +kernel

/-- Group 6 of partition 3 with device 77, formed; a peer watched. -/
def peerS : State := { jnS { st := .up8 } with parts := [(3, part3)], fab := { (jnS { st := .up8 }).fab with groups := [(6, formed)], peers := [{ ident := 77, last := 100 }] } }

/-- A packet from 77 to 77, ordered or not, or to a device without a route. -/
def pkt (vc dst : Nat) : Packet := { vc := vc, dst := dst, src := 77, flow := 9 }

/-- Such a packet comes in on port 4. -/
def forward (k : Packet) : Instr := .packetForward { port := 4, packet := k }

/-- The packets that went out: port, channel, destination and what they carry. -/
def packetsOut (t : State) : List (Option Nat × Nat × Nat × String) := t.out.filterMap (fun o => match o with
  | .packet p k => some (p, k.vc, k.dst, k.what)
  | _ => none)

theorem witness_peers : peerS.fab.peers.find? (fun x => x.ident == 77 && !x.dead) = some { ident := 77, last := 100 } ∧ portUp (getPort peerS 4) = true
    ∧ peerS.fab.assigned = true ∧ (77 : Nat) ≠ peerS.fab.ident.toNat ∧ reachable peerS 77 = true ∧ reachable peerS 78 = false
    ∧ inOrder (pkt 2 77) = true ∧ inOrder (pkt 1 77) = false ∧ (sharedGroups peerS 77).map (·.1) = [6] := by decide +kernel

theorem test_forward : holds (exec (forward (pkt 1 78)) peerS) (fun t => packetsOut t == [(some 4, 2, 77, "nack")])
    && holds (exec (forward (pkt 2 77)) peerS) (fun t => packetsOut t == [(some 4, 2, 77, "")] && (getPort t 4).txSeq == 1)
    && holds (exec (forward (pkt 1 77)) peerS) (fun t => packetsOut t == [(some 4, 1, 77, "")] && t.free == 1) = true := by decide +kernel

theorem test_peers : holds (exec .peerKeepalive peerS) (fun t => packetsOut t == [(some 4, 0, 77, "keepalive")])
    && holds (exec (.keepaliveReceived 77) { peerS with ftime := 900 }) (fun t => t.fab.peers == [{ ident := 77, last := 900 }])
    && holds (exec (.peerDead 77) peerS) (fun t => t.ftime == 6400100 && (groupOf t 6).map (·.st) == some .broken)
    && holds (exec (.departureNotice 77) peerS) (fun t => (groupOf t 6).map (·.st) == some .broken)
    && holds (exec (.abandonNotice 77 [99]) peerS) (fun t => (groupOf t 6).map (·.st) == some .broken)
    && holds (exec (.abandonNotice 77 [98]) peerS) (fun t => (groupOf t 6).map (·.st) == some .formed) = true := by decide +kernel

theorem test_peer_dead_notice : holds (exec (.peerDeadNotice 77 8) peerS) (fun t => (groupOf t 6).map (·.st) == some .broken) = true := by decide +kernel

/-- The time of the fabric: synced at stratum 5, role 0 or 2; port 4 at stratum 3. -/
def syncS (role timeState : Nat) : State :=
  { jnS { st := .up8, partner := prec 77 6 } with fab := { (jnS { st := .up8, partner := prec 77 6 }).fab with role := role, timeState := timeState, stratum := 5, lastLower := 100 } }

/-- The partner's stratum is noted in its record. -/
def heardS (role timeState stratum : Nat) : State :=
  modPort 4 (fun x => { x with partner := BitVec.ofNat 256 ((prec 77 6).toNat - put (fld (prec 77 6).toNat 163 160) 160 + put (stratum % 16) 160) })
    (syncS role timeState)

theorem witness_fabric_time : followed (heardS 0 1 3) = some 4 ∧ (3 : Nat) < (syncS 0 1).fab.stratum ∧ ¬((6 : Nat) < (syncS 0 1).fab.stratum)
    ∧ (syncS 2 1).fab.timeState = 1 ∧ (syncS 2 1).fab.stratum ≠ 0 ∧ portUp (getPort (syncS 0 1) 4) = true := by decide +kernel

theorem test_fabric_time : holds (exec (.timeExchange 4 3 77 50 0) (syncS 0 0)) (fun t => t.fab.stratum == 4 && t.fab.timeState == 1 && t.ftime == 50)
    && holds (exec (.timeExchange 4 6 77 50 0) (syncS 0 1)) (fun t => t.fab.stratum == 5 && t.ftime == 0)
    && holds (exec .holdover (syncS 2 1)) (fun t => t.fab.stratum == 0 && t.fab.masterId == 300 && t.ftime == 10000100) = true := by decide +kernel

/-- Without a backup it is a free value who takes over (log entry 95). -/
theorem test_holdover : (∃ t, exec .holdover (syncS 0 1) = .next t ∧ t.fab.stratum = 0 ∧ t.fab.masterId = 300)
    ∨ ∃ t, exec .holdover (syncS 0 1) = .next t ∧ t.fab.timeState = 2 := by
  by_cases h : (Config.freeWord (syncS 0 1).free).getLsbD 0 = true
  · refine .inl ⟨becomeMaster { timeTo 10000100 (syncS 0 1) with free := 1 }, ?_, by decide +kernel, by decide +kernel⟩
    show Host.Outcome.next (holdover (syncS 0 1)) = _
    unfold holdover
    rw [if_neg (by decide +kernel), if_neg (by decide +kernel), if_pos h]
    rfl
  · refine .inr ⟨setTime 2 { timeTo 10000100 (syncS 0 1) with free := 1 }, ?_, by decide +kernel⟩
    show Host.Outcome.next (holdover (syncS 0 1)) = _
    unfold holdover
    rw [if_neg (by decide +kernel), if_neg (by decide +kernel), if_neg h]
    rfl

/-- The group while it forms. -/
def formingS : State := { peerS with fab := { peerS.fab with groups := [(6, { formed with st := .forming, answered := [1], level := 3, dueAt := 7000 })] } }

theorem witness_formation : groupOf formingS 6 = some { formed with st := .forming, answered := [1], level := 3, dueAt := 7000 } ∧ groupOf peerS 6 = some formed
    ∧ (0 : Nat) < formed.members.length ∧ (0 : Nat) ≠ formed.rank ∧ formed.complete = true ∧ true ≠ (getPart formingS 3).params.ordered
    ∧ ([] : List (Nat × Nat)) ≠ formed.members := by decide +kernel

theorem test_formation :
    holds (exec (.groupFormationRecord 6 0 99 [(77, 1), (300, 3)] false 2 .record) formingS) (fun t =>
      (groupOf t 6).map (fun g => (g.st, g.level)) == some (.formed, 2) && packetsOut t == [(some 4, 0, 77, "formation")])
    && holds (exec (.groupFormationRecord 6 0 99 [(77, 1), (300, 3)] false 2 .answer) formingS) (fun t => packetsOut t == [])
    && holds (exec (.groupFormationRecord 6 0 99 [] false 2 .refusal) formingS) (fun t => t.fab.groups == [])
    && holds (exec (.groupFormationRecord 6 0 99 [] false 2 .record) formingS) (fun t => decide (t = formingS))
    && holds (exec (.groupFormationRecord 6 0 99 [(77, 1), (300, 3)] false 2 .refusal) peerS) (fun t => (groupOf t 6).map (·.st) == some .broken)
    && holds (exec (.groupTimeout 6) formingS) (fun t => t.fab.groups == [] && t.ftime == 7000) = true := by decide +kernel

/-! ### Collectives, remote atomics and mirroring -/

/-- Bytes written at a virtual address of partition 3. -/
def poke (va : Nat) (l : List Byte) (s : State) : State := match vaWrite 3 va (pbOf false l) s with
  | .ok t _ => t
  | .err t _ _ => t

/-- A request record of group g: operation, root, count (11 R302). Input at 0x10000 where this member has one,
output at 0x20000 unless it is a BARRIER. -/
def creq (op g root count : Nat) : Nat :=
  op + g * 2 ^ 8 + root * 2 ^ 32 + (if op = 6 ∨ (op = 5 ∧ root = 0) then 0 else 0x10000) * 2 ^ 64 + (if op = 6 then 0 else 0x20000) * 2 ^ 128 + count * 2 ^ 192

/-- Partition 3, ordered, with a kernel, its area at VA 0 and one request that the device has not read: its input is FP32 1.0 twice, or
for REMOTE_ATOMIC a record that adds 5 to the word at VA 8. -/
def collS (x : Nat) : State :=
  let s := { kstate id with fab := peerS.fab, parts := [(3, { part3 with
    params := { part3.params with ordered := true, collArea := some { va := 0, units := 1 } }, kernel := some { image := {}, cores := [0], chans := [0] } })] }
  poke 0x10000 (if cOp x = 7 then leBytes (8 + 5 * 2 ^ 64) 32 else leBytes 0x3F800000 4 ++ leBytes 0x3F800000 4) (poke 0x1000 (leBytes x 64) (poke 0 (leBytes 1 4) s))

/-- The count of each operation's request below: 2 elements, 8 or no bytes, 1 atomic. -/
def ccount (op : Nat) : Nat := ([0, 2, 1, 64, 4, 64, 0, 1] : List Nat)[op]?.getD 0

/-- The request at hand: number 0, its operation, whether its line is poisoned, and the code that its checks find. -/
def nextIs (op : Nat) (poison : Bool) (c : Option Code) (s : State) : Bool := match nextColl 3 s with
  | some (_, q, x, b) => q == 0 && (q + 2 ^ 32 - (getPart s 3).collDone) % 2 ^ 32 == 0 && cOp x == op && b == poison && collCheck s 3 x == c
  | none => false

theorem witness_requests : ∀ op ∈ [1, 2, 3, 4, 5, 6, 7], nextIs op false none (collS (creq op 6 (if op = 5 then 1 else 0) (ccount op))) = true := by decide +kernel
theorem witness_requests_refused : nextIs 6 false (some 0x3123) (collS (creq 6 7 0 0)) = true
    ∧ nextIs 6 true none (poisonLines 0x2001000 64 (collS (creq 6 6 0 0))) = true := by decide +kernel

/-- A request read by its row. -/
def begun (op root : Nat) (i : Instr) : State := match exec i (collS (creq op 6 root (ccount op))) with
  | .next t => t
  | _ => live

def reduceS : State := begun 1 0 (.allReduce 3)
def scatterS : State := begun 2 0 (.reduceScatter 3)
def exchangeS : State := begun 4 0 (.allToAll 3)
def castS : State := begun 5 0 (.broadcast 3)
def barrierS : State := begun 6 0 (.barrier 3)
def atomicS : State := begun 7 0 (.remoteAtomic 3)

/-- A packet of rank 0 for such a request. -/
def cpkt (kind : CollKind) (op chunk : Nat) (data : List Byte) : CollPkt :=
  { kind := kind, hdr := BitVec.ofNat 256 (creq op 6 0 (ccount op) % 2 ^ 256), chunk := chunk, data := data }

/-- It comes for the request that group 6 counts 0, and what it leaves. -/
def arrival (c : CollPkt) : Instr := .collectivePacketArrival 6 0 0 c.toCollHead c.data c.poison

def gets (c : CollPkt) (s : State) : State := match exec (arrival c) s with
  | .next t => t
  | _ => live

/-- Number 0 is there but has not started; no request is there, and one or none has been made of the group. -/
def notYet : State := modPart 3 (fun pt => { pt with coll := pt.coll.map (fun r => { r with started := false }) }) barrierS
def noneYet (n : Nat) : State := modGroup 6 (fun g => { g with count := n }) peerS

theorem witness_group : (groupOf reduceS 6).map (fun g => (g.members.length, g.rank)) = some (2, 1) ∧ (groupOf reduceS 6).map (·.st) = some .formed
    ∧ reduceS.fab.assigned = true := by decide +kernel

theorem witness_started : ((collReq reduceS 3 0).map (fun r => (cOp r.req.toNat, collMatch r.req.toNat (cpkt .final 1 0 []).hdr.toNat)) = some (1, true))
    ∧ ((collReq reduceS 3 0).map (fun r => collMatch r.req.toNat (cpkt .data 2 0 []).hdr.toNat) = some false)
    ∧ ((collReq exchangeS 3 0).map (fun r => (cOp r.req.toNat, r.ring, cBlock r.req.toNat)) = some (4, false, 4))
    ∧ ((collReq exchangeS 3 0).map (·.got) = some [])
    ∧ ((collReq atomicS 3 0).map (fun r => (cOp r.req.toNat, cCount r.req.toNat, mem 0 r.back)) = some (7, 1, false))
    ∧ ((collReq atomicS 3 0).map (fun r => (cDst r.req.toNat, r.sent.map (·.1))) = some (0x20000, [0])) := by decide +kernel

theorem witness_turns : ((getPart notYet 3).coll.map (fun r => (cGroup r.req.toNat, cOp r.req.toNat, r.k, r.started))) = [(6, 6, 0, false)]
    ∧ (getPart (noneYet 0) 3).coll = [] ∧ (groupOf (noneYet 0) 6).map (·.count) = some 0 ∧ (groupOf (noneYet 1) 6).map (·.count) = some 1 := by decide +kernel

theorem test_turns : holds (exec (arrival (cpkt .enter 6 0 [])) notYet) (fun t => (groupOf t 6).map (·.early.length) == some 1)
    && holds (exec (arrival (cpkt .enter 6 0 [])) (noneYet 0)) (fun t => (groupOf t 6).map (·.early.length) == some 1)
    && holds (exec (arrival (cpkt .enter 6 0 [])) (noneYet 1)) (fun t => decide (t = noneYet 1)) = true := by decide +kernel

def ready (s : State) : Option Bool := (reqGroup s 3 0).map (fun e => collReady e.1 e.2)

theorem witness_ready : ready barrierS = some false ∧ ready (gets (cpkt .enter 6 0 []) barrierS) = some true := by decide +kernel

/-- Bytes at a virtual address of partition 3. -/
def peek (va n : Nat) (s : State) : List Byte := match vaRead 3 va n s with
  | .ok _ l => pbData l
  | .err _ _ _ => []

/-- A result of ALL_REDUCE arrives and is acknowledged; 1.0 + 2.0 is made here, for rank 1's block of REDUCE_SCATTER; a packet that does not match. -/
theorem test_reductions : holds (exec (.collectiveComplete 3 0) (gets (cpkt .final 1 0 (leBytes 0x40400000 4 ++ leBytes 0x40800000 4)) (gets (cpkt .enter 1 0 []) reduceS)))
      (fun t => (getPart t 3).collDone == 1 && (getPart t 3).coll == [] && peek 0x20000 8 t == leBytes 0x40400000 4 ++ leBytes 0x40800000 4
        && packetsOut t == packetsOut reduceS ++ [(some 4, 2, 77, "collective")])
    && (ready (gets (cpkt .part 2 1 (leBytes 0x40000000 4)) (gets (cpkt .enter 2 0 []) scatterS)) == some true
      && peek 0x20000 4 (gets (cpkt .part 2 1 (leBytes 0x40000000 4)) scatterS) == leBytes 0x40400000 4)
    && ((getPart (gets (cpkt .data 2 0 []) reduceS) 3).collDone == 1 && (getCore (gets (cpkt .data 2 0 []) reduceS) 0).halt.map (·.code) == some 0x3133) = true := by
  decide +kernel

/-- Data is written and acknowledged, and what this member sent waits for its acknowledgement (10 R277). -/
theorem test_copies_between : peek 0x20000 1 (gets (cpkt .data 5 0 (List.replicate 64 0xAB)) castS) == [0xAB]
    && peek 0x20000 4 (gets (cpkt .data 4 0 [1, 2, 3, 4]) exchangeS) == [1, 2, 3, 4]
    && ready (gets (cpkt .data 4 0 [1, 2, 3, 4]) (gets (cpkt .enter 4 0 []) exchangeS)) == some false
    && ready (gets (cpkt .ack 4 0 []) (gets (cpkt .data 4 0 [1, 2, 3, 4]) (gets (cpkt .enter 4 0 []) exchangeS))) == some true
    && holds (exec (.collectiveComplete 3 0) exchangeS) (fun t => (getPart t 3).collDone == 0 && (getPart t 3).coll.length == 1) = true := by decide +kernel

theorem test_requests : holds (exec (.barrier 3) (collS (creq 6 7 0 0))) (fun t => (getPart t 3).collHead == 1 && (getPart t 3).collDone == 1 && (getCore t 0).halt.map (·.code) == some 0x3123)
    && holds (exec (.barrier 3) (collS (creq 6 6 0 0))) (fun t => (getPart t 3).collHead == 1 && (getPart t 3).coll.length == 1)
    && holds (exec (.allGather 3) (collS (creq 6 6 0 0))) (fun t => (getPart t 3).collHead == 0)
    && holds (exec (.remoteAtomicResult 3 0 0 0x2112 { old := 0 }) atomicS) (fun t => (getCore t 0).halt.map (·.code) == some 0x2112)
    && holds (exec (.remoteAtomicResult 3 0 0 0 { old := 77 }) atomicS) (fun t => (getPart t 3).coll.map (·.back) == [[0]] && peek 0x20000 8 t == leBytes 77 8)
    && (getPart (begun 7 1 (.remoteAtomic 3)) 3).coll.map (·.back) == [[0]]
    && holds (exec (.nack 3 0) atomicS) (fun t => (getCore t 0).halt.map (·.code) == some 0x3110) = true := by decide +kernel

theorem test_requests_begin : [(Instr.reduceScatter 3, 2, 0), (.allGather 3, 3, 0), (.allToAll 3, 4, 0), (.broadcast 3, 5, 1), (.allReduce 3, 1, 0)].all (fun e =>
    holds (exec e.1 (collS (creq e.2.1 6 e.2.2 (ccount e.2.1)))) (fun t => (getPart t 3).coll.map (·.started) == [true])) = true := by decide +kernel

/-- A record of a remote atomic: ADD (0) of 5 to the 32-bit word (0) at an address (06 R161, 11 R306). -/
def arec (va : Nat) : BitVec 256 := BitVec.ofNat 256 (va + 5 * 2 ^ 64)

/-- The place that a virtual address of partition 3 names for an atomic, or its code. -/
def atomPlace (va : Nat) : Option Nat × Option Code := match atomWhere (kstate id) 3 va with
  | .ok d => (some d, none)
  | .error c => (none, some c)

theorem witness_atomic_arrival : fld (arec 8).toNat 47 0 % atomBytes (fld (arec 8).toNat 54 52) = 0 ∧ fld (arec 9).toNat 47 0 % atomBytes (fld (arec 9).toNat 54 52) ≠ 0
    ∧ atomPlace 8 = (some 0x2000008, none) ∧ (atomPlace 0x400000).2 ≠ none := by decide +kernel

/-- What an atomic of device 77 gives a device with an identity, and one without. -/
def atomicFrom (va : Nat) (f : Fabric) : Host.Outcome State Fault Refusal := exec (.remoteAtomicArrival 77 9 3 { tag := 3, record := arec va }) { kstate id with fab := f }

theorem test_atomic_arrival : holds (atomicFrom 8 linked) (fun t => packetsOut t == [(some 0, 2, 77, "atomic result")] && peek 8 4 t == leBytes 5 4)
    && holds (atomicFrom 9 linked) (fun t => t.out == [.packet (some 0)
      { vc := 2, dst := 77, src := 300, flow := 9, what := "atomic result", args := [3, 0x2112], data := padTo 8 [] }])
    && holds (atomicFrom 8 live.fab) (fun t => t.out == []) = true := by decide +kernel

/-- The buddy's side: a granted region of one page, with a copy of two tokens. -/
def copyS : State :=
  { live with mem := { live.mem with grants := [{ src := 77, spart := 2, pages := [16] }] },
              fab := { linked with copies := [{ src := 77, spart := 2, session := 4, model := 1, settings := [], log := [7, 8] }] } }

theorem chunks_of_many {n : Nat} (h : 2000000 ≤ n) : 32 < copyChunks (List.replicate n 0) := by
  unfold copyChunks cdiv
  rw [List.length_replicate]
  omega

theorem witness_copies : grantOf copyS 77 2 = some { src := 77, spart := 2, pages := [16] } ∧ copyChunks ([7, 8] : List Nat) ≤ 32 := by decide +kernel

theorem test_copies : holds (exec (.mirrorEntriesArrival 77 2 4 1 [] 2 [9] false) copyS) (fun t => t.fab.copies.map (·.log) == [[7, 8, 9]]
      && packetsOut t == [(some 0, 2, 77, "mirror ack")])
    && holds (exec (.mirrorEntriesArrival 77 2 4 1 [] 0 [] true) copyS) (fun t => t.fab.copies == []) = true := by decide +kernel

/-- A mirrored session of three log entries, of which the buddy has acknowledged one; one row waits. -/
def mirS (syncing unprot live_ : Bool) : State :=
  let s := partS .serving (fun p => { p with buddy := some 77, syncing := syncing, unprotected := unprot })
  { s with sess := [(4, { idleX with mirror := true, mirLive := live_, mirSent := 3, mirAcked := 1 })] }

theorem witness_mirror : (getSess (mirS false false true) 4).part = 3 ∧ (getSess (mirS false false true) 4).mirror = true ∧ (getPart (mirS false false true) 3).buddy ≠ none
    ∧ mirrored (mirS false false true) 3 = [4] ∧ waitsAck (mirS false false true) 4 = true ∧ waitsAck (mirS true true false) 4 = false
    ∧ (getPart (mirS true true true) 3).syncing = true ∧ (getSess (mirS true true true) 4).mirLive = true ∧ (getSess (mirS true true false) 4).log.length = 3 := by decide +kernel

theorem test_mirror : holds (exec (.buddyAck 3 4 2) (mirS false false true)) (fun t => (getSess t 4).mirAcked == 2)
    && holds (exec (.buddyAck 3 4 3) (mirS true true false)) (fun t => (getSess t 4).mirAcked == 3 && (getSess t 4).mirLive)
    && holds (exec (.mirrorAckTimeout 3) (mirS false false true)) (fun t => (getPart t 3).unprotected && !(getSess t 4).mirLive)
    && holds (exec (.mirrorAckTimeout 3) (mirS true true false)) (fun t => decide (t = mirS true true false))
    && holds (exec (.buddySynced 3) (mirS true true true)) (fun t => !(getPart t 3).syncing && !(getPart t 3).unprotected) = true := by decide +kernel

/-! ### Repair and heat -/

/-- Channel 5 with a wrong byte at offset 64 (data 1, check bits of zeros), or a line that no correction fits. -/
def wrongByte : BitVec 64 :=
  BitVec.ofNat 64 (ofLe (rsCheck (padTo 64 [1]) (lineLA 5 64))) ^^^ BitVec.ofNat 64 (ofLe (rsCheck (padTo 64 []) (lineLA 5 64)))
def sickS (d : BitVec 64) : State :=
  let s := setChk 5 64 d { live with chans := [(5, { scrubPos := 1, wbQ := [64] })] }
  { s with mem := { s.mem with bytes := if d = wrongByte then [(placeKey 5 64, 1)] else [] } }

def correctable (d : BitVec 64) : Bool := match lineDecode d with
  | .corrected _ => true
  | _ => false

theorem witness_scrub : chanLive (sickS wrongByte) 5 = true ∧ (getChan (sickS wrongByte) 5).wbQ = [64] ∧ correctable (rawChk (sickS wrongByte) 5 64) = true
    ∧ rawChk (sickS linePoison) 5 64 = linePoison ∧ correctable linePoison = false := by decide +kernel

theorem test_scrub : holds (exec (.patrolScrub 5) (sickS wrongByte)) (fun t => (getChan t 5).scrubPos == 2 && t.sb.errRecs.length == 1)
    && holds (exec (.correctiveWriteBack 5) (sickS wrongByte)) (fun t => t.mem.bytes == [] && t.mem.chk == [] && (getChan t 5).wbQ == [])
    && holds (exec (.correctiveWriteBack 5) (sickS linePoison)) (fun t => (getChan t 5).wbQ == [] && t.mem.chk.length == 1)
    && holds (exec (.backgroundTest 5 []) live) (fun t => spGet 0 t.cache.testPos 5 == 1) = true := by decide +kernel

theorem test_channel_failure : holds (exec (.channelFailure 5) live) (fun t => (getChan t 5).failed && t.cfg.pendChannels == [5]) = true := by decide +kernel

/-- Points lanes: none lost, and one lost already. -/
def pointsS (l : List Nat) : State := { live with units := { live.units with pointsOff := l } }

theorem witness_points_lane : (pointsS []).boot.domainsOff = false ∧ mem 3 (pointsS []).units.pointsOff = false ∧ mem 3 (pointsS [2]).units.pointsOff = false
    ∧ unitOn live live.units.slice 5 = true := by decide +kernel

theorem test_points_lane : holds (exec (.targetedTest 3 3 true) (pointsS [])) (fun t => t.units.pointsOff == [3] && t.boot.phase == .ready)
    && holds (exec (.targetedTest 3 3 false) (pointsS [])) (fun t => t.units.pointsOff == []) = true := by decide +kernel

/-- Weight page 16 waits for repair, without a mirror, with a sound one, and where every channel has failed. -/
def repairS (mirrors : List (Nat × Nat)) (failed : Bool) : State :=
  let s := partS .serving (fun p => { p with repair := [16], weights := [16] })
  { s with mem := { s.mem with mirrors := mirrors }, chans := if failed then (List.range 256).map (fun c => (c, { failed := true })) else [] }

theorem rawChk_clean {s : State} (h : s.mem.chk = []) (c off : Nat) : rawChk s c off = 0 := by
  unfold rawChk
  split
  · rfl
  · simp [h, spGet, spGet?]

theorem foldl_id {α β : Type} {f : β → α → β} {b : β} (h : ∀ x, f b x = b) : ∀ l : List α, l.foldl f b = b
  | [] => rfl
  | x :: t => by rw [List.foldl_cons, h x, foldl_id h t]

/-- Without a held line and with every check bit valid, a repair begins at the state itself. -/
theorem readyRepair_clean {s : State} (g m : Nat) (h : s.mem.chk = []) (k : s.cache.lines = []) : readyRepair g m s = s := by
  have e : ∀ q, (cmoWhere 1 q s).1 = s := fun q => by simp [cmoWhere, k]
  rw [readyRepair, e, e, readPage]
  refine foldl_id (fun i => ?_) _
  split
  · rw [if_pos (rawChk_clean h _ _)]
  · rfl

theorem not_sick {s : State} (h : s.mem.chk = []) (k : s.chans = []) (L : Nat) : lineSick s L = false := by
  unfold lineSick
  split
  · rfl
  · rw [rawChk_clean h]
    simp only [getChan, k, spGet, spGet?]
    decide

theorem witness_repair : (getPart (repairS [] false) 3).repair = [16] ∧ (getPart (repairS [] false) 3).kernel = none
    ∧ (getPart (repairS [] false) 3).step = none ∧ (repairS [] false).sb.restarting = false
    ∧ (repairS [] false).mem.mirrors.find? (fun e => e.1 == 16) = none
    ∧ (repairS [(16, 18)] true).mem.mirrors.find? (fun e => e.1 == 16) = some (16, 18) := by decide +kernel

/-- The state in which the mirror is read. -/
def repairing (failed : Bool) : State := modPart 3 (fun x => { x with repair := [] }) (repairS [(16, 18)] failed)

theorem witness_both_sick : bothSick (readyRepair 16 18 (repairing true)) 16 18 = true := by
  rw [readyRepair_clean 16 18 rfl rfl, bothSick, List.any_eq_true]
  exact ⟨0, List.mem_range.mpr (by decide), by decide +kernel⟩

theorem witness_sound_mirror : bothSick (readyRepair 16 18 (repairing false)) 16 18 = false := by
  rw [readyRepair_clean 16 18 rfl rfl, bothSick, List.any_eq_false]
  intro i _
  rw [not_sick rfl rfl]
  simp

theorem test_repair : holds (exec (.weightRepair 3) (repairS [] false)) (fun t => (getPart t 3).reload == [16] && (getPart t 3).repair == []) = true := by
  decide +kernel

/-- While the Signal Box restarts, the page goes on waiting (01 R19). -/
theorem test_repair_restarting : holds (exec (.weightRepair 3) (restarting (repairS [] false))) (fun t => (getPart t 3).repair == [16]) = true := by decide +kernel

/-- A page of the KV pool that is being cleared. -/
def clearS : State := partS .serving (fun p => { p with kvFill := [17 * 32] })

theorem witness_kv_freed : mem (17 * 32) (getPart clearS 3).kvFill = true := by decide +kernel
theorem test_kv_freed : holds (exec (.kvPageFreed 3 (17 * 32)) clearS) (fun t => (getPart t 3).kvFill == []) = true := by decide +kernel

/-- The bridge with every spare lane used, and, if it has spares, with none used. -/
theorem witness_bridge : Config.bridgeSpares ≤ spGet 0 ({ live with units := { live.units with bridgeSpares := [(1, Config.bridgeSpares)] } } : State).units.bridgeSpares 1
    ∧ (0 < Config.bridgeSpares → spGet 0 live.units.bridgeSpares 1 < Config.bridgeSpares) := ⟨by simp [spGet, spGet?], fun h => h⟩

/-- The clamp on; a group at its floor; a diode's comparators above its trip. -/
def heatS : State :=
  { live with heat := { clamp := some 800, clampOkSince := some 500, groups := [(2, { duty := 10, floorSince := some 700 })] } }

theorem witness_heat : heatS.heat.clamp = some 800 ∧ heatS.heat.clampOkSince = some 500 ∧ State.reset.boot.domainsOff = true ∧ (dutyOf heatS 2).floorSince = some 700
    ∧ (dutyOf heatS 2).floorTold = false ∧ heatS.heat.brake = false ∧ (List.replicate 96 (400 : Int)).length = 96
    ∧ (∀ g, g < 12 → 10 ≤ (dutyOf heatS g).duty ∧ (dutyOf heatS g).duty ≤ 50) ∧ live.host.thermDrive = false ∧ trips live 0 1840 1840 = true := by decide +kernel

/-- Ten samples of equal powers of the 498 domains, while the limit is 400 W. -/
def wattsS (mw : Nat) : State := { live with heat := { limit := some 400, samples := List.replicate 10 (List.replicate 498 mw) } }

theorem witness_clamp : (wattsS 1000).heat.clamp = none ∧ 1000 * pkgLimit (wattsS 1000) < pkgPower10 (wattsS 1000)
    ∧ pkgPower10 (wattsS 7) ≤ 1000 * pkgLimit (wattsS 7) := by decide +kernel

/-- Quadrant 0 is suspect, and its first diode reads 187.5 degrees: its nodes are at their stop threshold whatever the model says. -/
def hotS : State := { live with heat := { suspect := [0], diodes := [(0, { reading := 3000 })] } }

theorem hottest_ge {x : Int} : ∀ {l : List Int} {d : Int}, x ≤ d ∨ x ∈ l → x ≤ hottest d l
  | [], d, h => by simpa [hottest] using h
  | y :: t, d, h => by
    refine hottest_ge (l := t) (d := max d y) ?_
    rcases h with h | h
    · exact .inl (le_max_of_le_left h)
    · rcases List.mem_cons.mp h with rfl | h
      · exact .inl (le_max_right ..)
      · exact .inr h

theorem mustStop_of {s : State} (h : s.heat.suspect = hotS.heat.suspect) (k : s.heat.diodes = hotS.heat.diodes) : mustStop s = true := by
  have e : ∀ d, diode s d = diode hotS d := fun d => by rw [diode, diode, k]
  have f : healthyDiodes s 0 = healthyDiodes hotS 0 := List.filter_congr fun d _ => by rw [e]
  refine List.any_eq_true.mpr ⟨0, List.mem_range.mpr (by decide), decide_eq_true ?_⟩
  show (1680 : Int) ≤ nodeTemp s 0
  have g : nodeTemp s 0 = hottest (modelTemp s 0) ((healthyDiodes hotS 0).map (fun d => (diode hotS d).reading + 48)) := by
    simp only [nodeTemp, show nodeRegion 0 = some 0 from rfl, f, e, h]
    rw [if_neg (by decide +kernel), if_pos (by decide +kernel)]
  rw [g]
  exact le_trans (by decide) (hottest_ge (x := 3048) (.inr (by decide +kernel)))

theorem refresh_keeps (s : State) (k : Nat) : (refreshStep k s).heat.suspect = s.heat.suspect ∧ (refreshStep k s).heat.diodes = s.heat.diodes := by
  have h : (refreshStep k s).heat = s.heat ∨ ∃ l, (refreshStep k s).heat = { s.heat with hotStacks := l } := by
    unfold refreshStep
    dsimp only
    split
    · exact .inl rfl
    · split <;> exact .inr ⟨_, (post_reported ..).heat⟩
  rcases h with h | ⟨l, h⟩ <;> rw [h] <;> exact ⟨rfl, rfl⟩

theorem refreshes_keep : ∀ (l : List Nat) (s : State), (l.foldl (fun t k => refreshStep k t) s).heat.suspect = s.heat.suspect
    ∧ (l.foldl (fun t k => refreshStep k t) s).heat.diodes = s.heat.diodes
  | [], s => ⟨rfl, rfl⟩
  | k :: l, s => by
    have h := refreshes_keep l (refreshStep k s)
    have e := refresh_keeps s k
    exact ⟨h.1.trans e.1, h.2.trans e.2⟩

/-- Whatever the nodes are after the model's step, the device stops. -/
theorem witness_must_stop (nodes : Sp Int) (tick now : Nat) : hotS.boot.domainsOff = false ∧ hotS.heat.stopping = false
    ∧ mustStop ((List.range 8).foldl (fun t k => refreshStep k t)
      { hotS with ftime := now, heat := { hotS.heat with nodes := nodes, modelTick := tick } }) = true :=
  ⟨rfl, rfl, mustStop_of (refreshes_keep _ _).1 (refreshes_keep _ _).2⟩

theorem witness_stopping : ({ hotS with heat := { hotS.heat with stopping := true } } : State).heat.stopping = true ∧ State.reset.boot.domainsOff = true := by decide

/-- Nine samples of 498 W and one of 3.486 W: 448.548 W in the mean, so that 0.92 of the limit asks for a factor of 0.820 (16 R411). -/
theorem test_clamp : holds (exec (.powerSample (List.replicate 498 7)) (wattsS 1000)) (fun t => t.heat.clamp == some 820) = true := by decide +kernel

theorem test_heat : holds (exec (.powerSample (List.replicate 498 7)) live) (fun t => t.ftime == 10000 && t.heat.samples.length == 1)
    && holds (exec .clampRelease heatS) (fun t => t.heat.clamp == none && t.ftime == 1000500)
    && holds (exec (.groupAtFloor 2) heatS) (fun t => (dutyOf t 2).floorTold && t.ftime == 100000700)
    && holds (exec .powerBrake heatS) (fun t => t.heat.brake && (dutyOf t 7).duty == 10)
    && holds (exec .powerBrakeRelease { heatS with heat := { heatS.heat with brake := true } }) (fun t => !t.heat.brake && t.host.pwrbrkHigh)
    && holds (exec (.thermtrip 0 1840 1840) live) (fun t => t.host.thermDrive && t.boot.domainsOff && t.boot.lastStop == 3)
    && holds (exec (.thermtrip 0 1840 1839) live) (fun t => !t.host.thermDrive) = true := by decide +kernel

theorem test_duty : holds (exec .dutyTick live) (fun t => t.ftime == 1000000 && (dutyOf t 0).duty == 50) = true := by decide +kernel

/-! ### Resets, starts and pins -/

/-- A device waiting for its start, its fuses good or not, its images good or not. -/
def bootS (bad good : Bool) : State :=
  { State.reset with fuse := { State.reset.fuse with copyFault := bad }, fw := { running := { good := good }, fallback := { good := good } },
                     host := { State.reset.host with perstHigh := true } }

/-- A start that finds nothing wrong. -/
def clean : StartFindings :=
  { checkerFailed := [], testFailed := [], retrained := [], ms := 900, comparatorOk := true, watchdogsOk := true, poweredStacks := true }

/-- A ready device with a reset asked for. -/
def resetS : State := { live with boot := { live.boot with resetPending := some (.cold, 5) } }

/-- The Signal Box while it restarts. -/
def restS : State := { live with sb := { live.sb with restarting := true } }

theorem witness_starts : live.host.perstHigh = true ∧ live.boot.suppliesGood = true ∧ live.sb.wdogBroken = false ∧ live.boot.phase = .ready
    ∧ (bootS false true).boot.phase = .starting ∧ (bootS false true).boot.suppliesGood = true ∧ tooHot (bootS false true) = false ∧ (bootS true true).fuse.copyFault = true
    ∧ bootImage (takeStaged (bootS false false)) = none ∧ (bootImage (takeStaged (bootS false true))).isSome = true ∧ (bootS false true).fuse.copyFault = false
    ∧ resetS.boot.resetPending = some (.cold, 5) ∧ activeParts resetS = [] ∧ live.sb.restarting = false ∧ restS.sb.restarting = true ∧ live.boot.pcieOff = false := by
  decide +kernel

theorem test_resets : holds (exec .perstNAssert live) (fun t => t.boot.phase == .starting && t.boot.cause == 1 && !t.host.linkUp)
    && holds (exec (.supplyLoss false) live) (fun t => !t.boot.suppliesGood && t.boot.cause == 0)
    && holds (exec (.deviceWatchdogExpiry true) (bootS false true)) (fun t => t.boot.failedStarts == 1 && t.boot.nextStart == .warm)
    && holds (exec (.start clean) (bootS true true)) (fun t => t.boot.phase == .fuseFault && t.host.alertAon)
    && holds (exec (.start clean) (bootS false false)) (fun t => t.boot.phase == .recovery)
    && holds (exec (.start clean) resetS) (fun t => t.boot.phase == .starting && t.boot.cause == 5)
    && holds (exec .sbWatchdogExpiry live) (fun t => t.sb.restarting) && holds (exec .lockstepMismatch live) (fun t => t.sb.restarting)
    && holds (exec (.sbSelfCheck true true) live) (fun t => t.sb.checkGroup == 1 && !t.sb.wdogBroken)
    && holds (exec .sbRestarted restS) (fun t => !t.sb.restarting)
    && holds (exec .pcieLinkDown live) (fun t => !t.host.linkUp) && holds (exec .pcieLinkL0 { live with host := { live.host with linkUp := false } }) (fun t => t.host.linkUp)
    = true := by decide +kernel

/-- A start that stops after step 3: Ifewin runs, and a command of class A is no longer refused (15 R390). -/
theorem test_start_boot : holds (exec (.start { clean with bootOnly := true }) (bootS false true)) (fun t => t.boot.phase == .starting && t.boot.ifewin
    && t.boot.domainsOff && startCode t 0x0102 true == none && startCode t 0x0201 false == some 0x5252) = true := by
  decide +kernel

/-- A start from the state after reset, with nothing found wrong, ends Ready with its report. -/
theorem test_start : holds (exec (.start clean) (bootS false true)) (fun t => t.boot.phase == .ready && !t.boot.domainsOff && t.report != []) = true := by
  decide +kernel

end Sys2Proof.Tests
end

section
/-!
PROOF. 00_scope.md: a step runs the front command (R4); what decides a command's outcome; register writes (R9, 17 R427 to R433).
-/

namespace Sys2Proof.Machine

/-! ### Units and the queue -/

/-- A unit that exists lets its row run. -/
theorem onUnit_of_lt {what : String} {n bound : Nat} {k : Host.Outcome State Fault Refusal} (h : n < bound) : onUnit what n bound k = k :=
  if_pos h

theorem onFn_of_lt {fn : Nat} {k : Host.Outcome State Fault Refusal} (h : fn < 64) : onFn fn k = k := onUnit_of_lt h

@[simp] theorem State.withPending_pending (s : State) (l : List Instr) : (s.withPending l).pending = l := rfl

@[simp] theorem State.withPending_withPending (s : State) (l r : List Instr) : (s.withPending l).withPending r = s.withPending r := rfl

theorem step_of_pending_cons {s : State} {c : Instr} {rest : List Instr} (h : s.pending = c :: rest) : step s = exec c (s.withPending rest) := by
  simp [step, h]

theorem step_of_pending_nil {s : State} (h : s.pending = []) : step s = .next s := by
  simp [step, h]

/-- Settles O1: the two cases of the queue. -/
theorem stepRunsFrontCommand : Obligations.StepRunsFrontCommand := by
  unfold Obligations.StepRunsFrontCommand
  refine ⟨fun c rest s => ?_, fun s hidle => step_of_pending_nil hidle⟩
  rw [step_of_pending_cons (s.withPending_pending (c :: rest)), s.withPending_withPending]

/-! ### What decides a command's outcome -/

/-- PACKET_FORWARD looks at two unit numbers only: the port's and the virtual channel's. -/
theorem exec_packetForward {a : Arrived} (s : State) (hport : a.port < 18) (hvc : a.packet.vc < 4) :
    exec (.packetForward a) s = .next (packetForward a.port a.packet s) :=
  (onUnit_of_lt hport).trans (onUnit_of_lt hvc)

/-- A packet on an existing port and virtual channel, addressed beyond the 16 bits of a fabric identity. -/
def beyondIdentities : Arrived := { port := 0, packet := { vc := 0, dst := 65536, src := 0, flow := 0 } }

theorem beyondIdentities_not_unitsExist : (Instr.packetForward beyondIdentities).unitsExist = false := by decide

/-- Refutes O2: `unitsExist` also bounds what is no unit number, a packet's header fields and the length of its data, which no row checks:
PACKET_FORWARD of a packet to destination 65536 on port 0 answers a next state instead of the fault. -/
theorem not_unitsDecideTheOutcome : ¬ Obligations.UnitsDecideTheOutcome := by
  unfold Obligations.UnitsDecideTheOutcome
  intro h
  obtain ⟨what, n, hfault⟩ := (h (.packetForward beyondIdentities) State.reset).2 beyondIdentities_not_unitsExist
  rw [exec_packetForward State.reset (by decide) (by decide)] at hfault
  cases hfault

/-! ### The bits of a written word -/

/-- A value below bit lo has no bit of the field [hi:lo]. -/
theorem and_bits_of_lt {v lo : Nat} (hi : Nat) (h : v < 2 ^ lo) : v &&& bits hi lo = 0 := by
  refine Nat.eq_of_testBit_eq fun i => ?_
  rw [Nat.testBit_and, bits, Nat.testBit_mul_two_pow, Nat.zero_testBit]
  by_cases hle : lo ≤ i
  · simp [Nat.testBit_lt_two_pow (h.trans_le (Nat.pow_le_pow_right (by decide) hle))]
  · simp [hle]

theorem and_allBits {v : Nat} (h : v < 2 ^ 32) : v &&& allBits = v := Nat.and_two_pow_sub_one_of_lt_two_pow h

/-- A whole word written replaces what stood there. -/
theorem merge_allBits {v : Nat} (old : Nat) (h : v < 2 ^ 32) : merge old v allBits = v := by
  simp [merge, and_allBits h]

theorem wordsOf_aligned {off v : Nat} (ho : off % 4 = 0) (hv : v < 2 ^ 32) : wordsOf off 4 v = [(off, v, allBits)] := by
  have hoff : off / 4 * 4 = off := Nat.div_mul_cancel (Nat.dvd_of_mod_eq_zero ho)
  have hmod : v % 4294967296 = v := Nat.mod_eq_of_lt hv
  simp [wordsOf, ho, hoff, hmod, fld, List.range_succ, allBits, List.filter]

/-! ### Writes of whole words (00 R9) -/

/-- An aligned word written to BAR0: its bits take effect, and ones in reserved bits set RSV_WRITE. -/
theorem bar0Write_word {off v : Nat} (f : Nat) (s : State) (ho : off % 4 = 0) (hv : v < 2 ^ 32) :
    bar0Write f off 4 v s =
      if v &&& rsvBits f (regAt f off) = 0 then regWrite f (regAt f off) v allBits s
      else rsvWrite f (regWrite f (regAt f off) v allBits s) := by
  simp [bar0Write, wordsOf_aligned ho hv, and_allBits hv]

section
variable {off v n : Nat} {s t : State}

/-- A word of the PF's BAR0 written while its link is up. -/
theorem exec_registerWrite_word (hup : hostUp s = true) (ho : off % 4 = 0 ∧ off < 0x4000000) (hv : v < 2 ^ 32) :
    exec (.registerWrite 0 0 off 4 (BitVec.ofNat 64 v)) s = .next (bar0Write 0 off 4 v s) := by
  have hsize : off + 4 ≤ bar0Size 0 := by simp only [bar0Size, if_true]; omega
  have hnat : (BitVec.ofNat 64 v).toNat = v := by rw [BitVec.toNat_ofNat]; omega
  calc exec (.registerWrite 0 0 off 4 (BitVec.ofNat 64 v)) s
      = onFn 0 (.next (registerWrite 0 0 off 4 (BitVec.ofNat 64 v) s)) := rfl
    _ = .next (registerWrite 0 0 off 4 (BitVec.ofNat 64 v) s) := onFn_of_lt (by decide)
    _ = .next (bar0Write 0 off 4 v s) := by simp [registerWrite, hup, hsize, hnat]

/-- It does what the access code of the word says, when its reserved bits are 0. -/
theorem exec_registerWrite_of_rsv_zero (hup : hostUp s = true) (ho : off % 4 = 0 ∧ off < 0x4000000) (hv : v < 2 ^ 32)
    (hr : v &&& rsvBits 0 (regAt 0 off) = 0) (hw : regWrite 0 (regAt 0 off) v allBits s = t) :
    exec (.registerWrite 0 0 off 4 (BitVec.ofNat 64 v)) s = .next t := by
  rw [exec_registerWrite_word hup ho hv, bar0Write_word 0 s ho.1 hv, if_pos hr, hw]

/-- A value that fits in the n bits below the reserved ones. -/
theorem exec_registerWrite_of_fits (hup : hostUp s = true) (ho : off % 4 = 0 ∧ off < 0x4000000) (hn : n ≤ 32) (hv : v < 2 ^ n)
    (hr : rsvBits 0 (regAt 0 off) = bits 31 n) (hw : regWrite 0 (regAt 0 off) v allBits s = t) :
    exec (.registerWrite 0 0 off 4 (BitVec.ofNat 64 v)) s = .next t :=
  exec_registerWrite_of_rsv_zero hup ho (hv.trans_le (Nat.pow_le_pow_right (by decide) hn)) (hr ▸ and_bits_of_lt 31 hv) hw

/-! ### The W1C registers (17 R429, R432, R433, 14 R369) -/

theorem regWrite_status (s : State) (hv : v < 2 ^ 32) :
    regWrite 0 (regAt 0 0x10) v allBits s =
      modFn 0 (fun h => { h with status := h.status &&& ~~~BitVec.ofNat 8 v, herrValid := h.herrValid && !v.testBit 1 }) s := by
  simp only [regWrite, regAt, pfReg, if_pos, and_allBits hv, clearStatus, w1c, BitVec.getLsbD_ofNat]
  rfl

theorem regWrite_pevt (s : State) (hv : v < 2 ^ 32) :
    regWrite 0 (regAt 0 0x20) v allBits s = { s with host := { s.host with pevt := s.host.pevt &&& ~~~BitVec.ofNat 16 v } } := by
  simp [regWrite, regAt, pfReg, w1c, and_allBits hv]

theorem regWrite_mailFlags (s : State) (hv : v < 2 ^ 32) :
    regWrite 0 (regAt 0 0x12008) v allBits s = modBox 1 (fun b => { b with flags := b.flags &&& ~~~BitVec.ofNat 8 v }) s := by
  simp [regWrite, regAt, pfReg, w1c, and_allBits hv]

theorem regWrite_thStatus (s : State) (hv : v < 2 ^ 32) :
    regWrite 0 (regAt 0 0x20010) v allBits s = { s with host := { s.host with thStatus := s.host.thStatus &&& ~~~BitVec.ofNat 4 v } } := by
  simp [regWrite, regAt, pfReg, w1c, and_allBits hv]

theorem regWrite_jnEvt (s : State) (hv : v < 2 ^ 32) :
    regWrite 0 (regAt 0 0x30300) v allBits s = { s with host := { s.host with jnEvt := s.host.jnEvt &&& ~~~BitVec.ofNat 19 v } } := by
  simp [regWrite, regAt, pfReg, w1c, and_allBits hv]

/-! ### Read-only words -/

/-- The read-only words of the PF that the statement names: HI_ID, HI_START, HI_HERR, HI_HERR_ADDR, HI_FTIME and HI_EVCNT0, and the low words
of SB_OWNER, TH_PKG and JN_STATE of port 0. -/
def readOnlyWords : List Nat := [0, 4, 8, 0x28, 0x2C, 0x30, 0x34, 0x38, 0x3C, 0x100, 0x12010, 0x20000, 0x30000]

theorem readOnlyWords_placed : ∀ o ∈ readOnlyWords, o % 4 = 0 ∧ o < 0x4000000 := by decide

theorem regWrite_readOnly (v m : Nat) (s : State) (h : off ∈ readOnlyWords) : regWrite 0 (regAt 0 off) v m s = s := by
  fin_cases h <;> rfl

theorem exec_registerWrite_readOnly (hup : hostUp s = true) (hv : v < 2 ^ 32) (h : off ∈ readOnlyWords) :
    exec (.registerWrite 0 0 off 4 (BitVec.ofNat 64 v)) s = .next (if v &&& rsvBits 0 (regAt 0 off) = 0 then s else rsvWrite 0 s) := by
  have ho := readOnlyWords_placed off h
  rw [exec_registerWrite_word hup ho hv, bar0Write_word 0 s ho.1 hv, regWrite_readOnly v allBits s h]

/-! ### The host's mailbox (14 R361, R369) -/

/-- The words of SB_REQ. -/
theorem regAt_request {i : Nat} (hi : i < 1024) : regAt 0 (0x10000 + 4 * i) = .sb (4 * i) := by
  have h1 : ¬ 0x10000 + 4 * i < 0x10000 := by omega
  have h2 : 0x10000 + 4 * i < 0x13000 := by omega
  simp only [regAt, pfReg, if_true, if_neg h1, if_pos h2, Nat.add_sub_cancel_left]

theorem exec_registerWrite_request {i : Nat} (hup : hostUp s = true) (hv : v < 2 ^ 32) (hi : i < 1024) :
    exec (.registerWrite 0 0 (0x10000 + 4 * i) 4 (BitVec.ofNat 64 v)) s
      = .next { s with sb := { s.sb with reqBuf := spWrite s.sb.reqBuf (4 * i) (leBytes v 4) } } := by
  have hrsv : rsvBits 0 (.sb (4 * i)) = 0 := if_pos (by omega)
  have hreq : 4 * i < 0x1000 := by omega
  refine exec_registerWrite_of_rsv_zero hup (by omega) hv (by rw [regAt_request hi, hrsv, Nat.and_zero]) ?_
  simp only [regAt_request hi, regWrite, if_pos hreq, writeReq, merge_allBits _ hv]

/-- SB_DOORBELL written with GO. -/
theorem exec_registerWrite_go (hup : hostUp s = true) :
    exec (.registerWrite 0 0 0x12000 4 (BitVec.ofNat 64 1)) s = .next (goHost s) :=
  exec_registerWrite_of_fits (n := 1) hup (by decide) (by decide) (by decide) rfl rfl

end

/-! ### HI_IMASK (17 R427) -/

/-- A write of the bits of a mask only, as bytes. -/
theorem ofNat_merge {v own : Nat} (old : BitVec 8) (hv : v &&& own = v) :
    BitVec.ofNat 8 (merge old.toNat v (allBits &&& own)) = (old &&& ~~~BitVec.ofNat 8 own) ||| BitVec.ofNat 8 v := by
  have hall : BitVec.ofNat 8 allBits = BitVec.allOnes 8 := by decide
  have hown : BitVec.ofNat 8 v &&& BitVec.ofNat 8 own = BitVec.ofNat 8 v := by rw [← BitVec.ofNat_and, hv]
  simp only [merge, BitVec.ofNat_or, BitVec.ofNat_and, BitVec.ofNat_xor, BitVec.ofNat_toNat, BitVec.setWidth_eq, hall, BitVec.allOnes_and,
    BitVec.allOnes_xor, hown]

/-- HI_IMASK written whole: a function has its own flags only. -/
theorem writeImask_whole {fn v : Nat} (s : State) (hv : v < if fn = 0 then 256 else 8) :
    let h := getFn s fn
    let own : BitVec 8 := if fn = 0 then 0xFF else 7
    let new := (h.imask &&& ~~~own) ||| BitVec.ofNat 8 v
    let t := modFn fn (fun h => { h with imask := new }) s
    writeImask fn v allBits s = if h.imask &&& ~~~new &&& h.status &&& own = 0 then t else msix fn (hiVector fn) t := by
  have hown : BitVec.ofNat 8 (if fn = 0 then 0xFF else 7) = if fn = 0 then 0xFF else 7 := by split <;> rfl
  have hfits : v &&& (if fn = 0 then 0xFF else 7) = v := by
    split at hv
    case isTrue h0 => rw [if_pos h0]; exact Nat.and_two_pow_sub_one_of_lt_two_pow (n := 8) hv
    case isFalse h0 => rw [if_neg h0]; exact Nat.and_two_pow_sub_one_of_lt_two_pow (n := 3) hv
  simp only [writeImask, ofNat_merge _ hfits, hown]

theorem exec_hiImaskWrite {fn : Nat} {v : BitVec 32} {s : State} (hfn : fn < 64) (hup : hostUp s = true) (hv : v.toNat < 2 ^ 8) :
    exec (.hiImaskWrite fn v) s = .next (writeImask fn v.toNat allBits s) := by
  have hreg : regAt fn 0x18 = .hi 0x18 := by unfold regAt; split <;> rfl
  have hrsv : v.toNat &&& rsvBits fn (.hi 0x18) = 0 := and_bits_of_lt 31 hv
  calc exec (.hiImaskWrite fn v) s
      = .next (bar0Write fn 0x18 4 v.toNat s) := by rw [← if_pos (t := bar0Write fn 0x18 4 v.toNat s) (e := s) hup]; exact onFn_of_lt hfn
    _ = .next (writeImask fn v.toNat allBits s) := by rw [bar0Write_word fn s (by decide) v.isLt, hreg, if_pos hrsv]; rfl

/-- Settles O35: each word written is one step of `regWrite`, its reserved bits aside. -/
theorem registerWrites : Obligations.RegisterWrites := by
  unfold Obligations.RegisterWrites
  refine ⟨fun v s hup hv => ⟨fun h => ?_, fun h => ?_, fun h => ?_, fun h => ?_, fun h => ?_, fun off ho hr => ?_, fun off ho hr => ?_,
    fun i hi => exec_registerWrite_request hup hv hi, ?_⟩, fun fn v s hfn hup hv => ?_⟩
  · exact exec_registerWrite_of_fits hup (by decide) (by decide) h rfl (regWrite_status s hv)
  · exact exec_registerWrite_of_fits hup (by decide) (by decide) h rfl (regWrite_pevt s hv)
  · exact exec_registerWrite_of_fits hup (by decide) (by decide) h rfl (regWrite_mailFlags s hv)
  · exact exec_registerWrite_of_fits hup (by decide) (by decide) h rfl (regWrite_thStatus s hv)
  · exact exec_registerWrite_of_fits hup (by decide) (by decide) h rfl (regWrite_jnEvt s hv)
  · exact (exec_registerWrite_readOnly hup hv ho).trans (congrArg _ (if_pos hr))
  · have hro : off ∈ readOnlyWords := (by decide : ([4, 8, 0x28, 0x12010, 0x30000] : List Nat) ⊆ readOnlyWords) ho
    exact (exec_registerWrite_readOnly hup hv hro).trans (congrArg _ (if_neg hr))
  · rintro rfl
    exact exec_registerWrite_go hup
  · have hlow : v.toNat < 2 ^ 8 := by split at hv <;> omega
    exact (exec_hiImaskWrite hfn hup hlow).trans (congrArg _ (writeImask_whole s hv))

end Sys2Proof.Machine
end

section
/-!
PROOF. The mailbox frame (14 R363 to R367): what a command that is carried out answers, in terms of its handler's reply.
-/

namespace Sys2Proof.Machine

/-! ### What a served command answers -/

/-- The state after a handler's reply to request q in state t: its response, or the long operation that it starts (R365, R366). -/
def replied (q : Req) (t : State) : Reply → State
  | .ok u p => respond q 0 p u
  | .no k => respond q k [] t
  | .cut u k => respond q k [] u
  | .op u part arg => if 16 ≤ t.sb.ops.length then respond q 0x5120 [] t else startOp q part arg u

section
variable {c : Cmd} {h : Req → State → Reply} {sub : Submission} {s t u : State} {q : Req}

/-- A request that is no repetition and passes the checks of every command is its handler's to answer. -/
theorem serve_eq_replied (hnew : ¬Repeats q t) (hjudge : judge c q t = none) : serve c h q t = replied q t (h q t) := by
  refine (if_neg hnew).trans ?_
  rw [hjudge]
  cases h q t <;> rfl

/-- The request of a row that reaches the Signal Box is served there, whichever master sent it. -/
theorem mailRow_eq_serve (hreach : Reaches c sub s q t) : mailRow c h sub s = serve c h q t := by
  obtain ⟨hup, hsub⟩ := hreach
  cases sub with
  | host =>
    obtain ⟨hbusy, htakes, rfl, rfl⟩ := hsub
    simp [mailRow, hbusy, htakes, hup]
  | bmc med eid msg =>
    obtain ⟨hfree, htakes, rfl, rfl⟩ := hsub
    simp [mailRow, htakes, arrive, getBox, hfree, hup]
  | fm ident msg =>
    obtain ⟨hfree, htakes, hfrom, rfl, rfl⟩ := hsub
    simp [mailRow, htakes, hfrom, arrive, getBox, hfree, hup]

theorem mail_of_served (hs : Served c sub s q t) : mail c h sub s = .next (replied q t (h q t)) := by
  obtain ⟨⟨hreach, hnew⟩, hjudge⟩ := hs
  rw [mail, mailRow_eq_serve hreach, serve_eq_replied hnew hjudge]

theorem mail_of_ok {p : List Byte} (hs : Served c sub s q t) (hr : h q t = .ok u p) : mail c h sub s = .next (respond q 0 p u) := by
  rw [mail_of_served hs, hr, replied]

theorem mail_of_no {k : Code} (hs : Served c sub s q t) (hr : h q t = .no k) : mail c h sub s = .next (respond q k [] t) := by
  rw [mail_of_served hs, hr, replied]

theorem mail_of_op {part : Option Nat} {arg : List Byte} (hs : Served c sub s q t) (hroom : t.sb.ops.length < 16)
    (hr : h q t = .op u part arg) : mail c h sub s = .next (startOp q part arg u) := by
  rw [mail_of_served hs, hr, replied, if_neg (by omega)]

end

/-! ### A handler's own checks -/

@[simp] theorem checked_nil (r : Reply) : checked [] r = r := rfl

/-- A check that finds nothing leaves the rest to decide. -/
theorem checked_pass {b : Bool} {k : Code} {l : List (Bool × Code)} {r : Reply} (h : b = false) : checked ((b, k) :: l) r = checked l r := by
  simp [checked, firstFail, h]

/-- The first check that finds something names the code. -/
theorem checked_fail {b : Bool} {k : Code} {l : List (Bool × Code)} {r : Reply} (h : b = true) : checked ((b, k) :: l) r = .no k := by
  simp [checked, firstFail, h]

/-- Checks that find nothing leave the reply, or the checks behind them, to decide. -/
theorem checked_of_pass {l : List (Bool × Code)} {r : Reply} (h : firstFail l = none) : checked l r = r := by
  simp [checked, h]

theorem checked_append {l m : List (Bool × Code)} {r : Reply} (h : firstFail l = none) : checked (l ++ m) r = checked m r := by
  induction l with
  | nil => rfl
  | cons e l ih =>
    obtain ⟨b, k⟩ := e
    cases b with
    | true => simp [firstFail] at h
    | false => exact (checked_pass rfl).trans (ih h)

/-- The first checks of a command of partition PART find nothing when its number and its state are in order. -/
theorem partChecks_pass {s : State} {q : Req} {states : List PState} (hp : q.f 0 1 < 16)
    (hst : inState (getPart s (q.f 0 1)) states = true) : firstFail (partChecks s q states) = none := by
  have hnum : ¬15 < q.f 0 1 := by omega
  simp [partChecks, firstFail, hnum, hst]

/-! ### States of a partition -/

theorem inState_existing {pt : Part} (h : pt.st ≠ .absent) : inState pt existing = true := by
  cases hst : pt.st with
  | absent => exact absurd hst h
  | _ => simp [inState, existing, hst]

/-- Every command of an existing partition passes its first checks. -/
theorem partChecks_existing {s : State} {q : Req} (hp : q.f 0 1 < 16) (hst : (getPart s (q.f 0 1)).st ≠ .absent) :
    firstFail (partChecks s q existing) = none :=
  partChecks_pass hp (inState_existing hst)

theorem inState_of_mem {pt : Part} {l : List PState} (h : pt.st ∈ l) : inState pt l = true := by
  simpa [inState] using h

theorem not_inState {pt : Part} {l : List PState} (h : pt.st ∉ l) : inState pt l = false := by
  simpa [inState] using fun x hx (hne : x = pt.st) => h (hne ▸ hx)

end Sys2Proof.Machine
end

section
/-!
PROOF. 14_signal_box_mailboxes.md: the make-up of a partition (R377, R378), its mappings (07 R194, R195, R198) and its KV pool (08 R211).
-/

namespace Sys2Proof.Machine

section
variable {q : Req} {s : State}

/-! ### Units (R377) -/

/-- The units that CREATE and UNITS name: some cores and slices, and each unit to be had. -/
theorem unitChecks_pass (hcores : q.units 8 18 ≠ []) (hslices : q.units 32 8 ≠ [])
    (hc : unavailable s (q.f 0 1) s.units.core (·.cores) (q.units 8 18) = false)
    (hs : unavailable s (q.f 0 1) s.units.slice (·.slices) (q.units 32 8) = false)
    (hh : unavailable s (q.f 0 1) s.units.chan (·.chans) (q.units 40 32) = false) : firstFail (unitChecks s q) = none := by
  simp [unitChecks, firstFail, hcores, hslices, hc, hs, hh]

theorem partCreateH_ok (hp : q.f 0 1 < 16) (hst : (getPart s (q.f 0 1)).st = .absent) (hunits : firstFail (unitChecks s q) = none) :
    partCreateH q s = .ok (setUnits (q.f 0 1) (q.units 8 18) (q.units 32 8) (q.units 40 32)
      (modPart (q.f 0 1) (fun _ => { st := .empty }) s)) [] := by
  rw [partCreateH, checked_append (partChecks_pass hp (inState_of_mem (by simp [hst]))), checked_of_pass hunits]

theorem partUnitsH_ok (hp : q.f 0 1 < 16) (hst : (getPart s (q.f 0 1)).st = .empty ∨ (getPart s (q.f 0 1)).st = .drained)
    (hunits : firstFail (unitChecks s q) = none)
    (hpool : ∀ g ∈ pinnedOn s (q.f 0 1) ((getPart s (q.f 0 1)).chans.filter (fun c => !mem c (q.units 40 32))),
      mem g (getPart s (q.f 0 1)).pool = true) :
    partUnitsH q s = .ok (setUnits (q.f 0 1) (q.units 8 18) (q.units 32 8) (q.units 40 32) s) [] := by
  rw [partUnitsH, List.append_assoc, checked_append (partChecks_pass hp (inState_of_mem (by simpa using hst))), checked_append hunits,
    checked_pass (by simpa using hpool), checked_nil]

theorem partDestroyH_ok (hp : q.f 0 1 < 16) (hst : (getPart s (q.f 0 1)).st = .empty) (hpages : ownedPages s (q.f 0 1) = [])
    (hsess : sessOf s (q.f 0 1) = []) :
    partDestroyH q s = .ok (scuDomains (getPart s (q.f 0 1)).chans (freeShares (getPart s (q.f 0 1)).chans
      (modPart (q.f 0 1) (fun _ => {}) (breakGroupsOf (q.f 0 1) s)))) [] := by
  rw [partDestroyH, checked_append (partChecks_pass hp (inState_of_mem (by simp [hst]))), checked_pass (by simp [hpages, hsess]), checked_nil]

/-! ### Parameters and shares (R378, 04 R105) -/

theorem paramH_ok (hp : q.f 0 1 < 16) (hst : (getPart s (q.f 0 1)).st = .empty ∨ (getPart s (q.f 0 1)).st = .drained)
    (hrange : paramRange s (q.f 0 1) (q.f 1 1) (q.f 8 8) = true) (hblocks : featureBlocks s (q.f 0 1) (q.f 1 1) (q.f 8 8) = false) :
    paramH q s = .ok (paramEffect (q.f 0 1) (q.f 1 1) (q.f 8 8) s) [] := by
  rw [paramH, checked_append (partChecks_pass hp (inState_of_mem (by simpa using hst))), checked_pass (by rw [hrange]; rfl),
    checked_pass hblocks, checked_nil]

theorem shareH_ok (hpart : firstFail (partChecks s q existing) = none) (hlow : 2 ≤ q.f 2 1) (hhigh : q.f 2 1 ≤ 12)
    (hchan : mem (q.f 1 1) (getPart s (q.f 0 1)).chans = true) :
    shareH q s = .ok (modChan (q.f 1 1) (fun x => { x with sigma := q.f 2 1 }) s) [] := by
  rw [shareH, checked_append hpart, checked_pass (decide_eq_false (by omega)),
    checked_pass (by rw [hchan]; rfl), checked_nil]

/-! ### Rows and pages (03 R64, R66, R462) -/

theorem rowModeH_ok (hlow : 16 ≤ q.f 0 2) (hhigh : q.f 0 2 ≤ 767) (hmode : q.f 2 1 ≤ 1) (hfree : rowOwned s (q.f 0 2) = false) :
    rowModeH q s = .ok (fillRow (q.f 0 2) { s with mem := { s.mem with
      rowMode := spSet .spread s.mem.rowMode (q.f 0 2) (if q.f 2 1 = 0 then .spread else .pinned) } }) [] := by
  rw [rowModeH, checked_pass (decide_eq_false (by omega)), checked_pass hfree, checked_nil]

/-- PAGES takes pages that the partition can take. -/
theorem pagesH_take (hpart : firstFail (partChecks s q existing) = none) (hn : 1 ≤ q.f 2 2) (hmax : q.f 2 2 ≤ 1019)
    (hop : q.f 1 1 = 0) (htake : ∀ g ∈ dedup (q.list 4 4 (q.f 2 2)), cannotTake s (q.f 0 1) g = false) :
    pagesH q s = .ok ((dedup (q.list 4 4 (q.f 2 2))).foldl (fun u g => setOwner g (.part (q.f 0 1)) u) s) [] := by
  rw [pagesH, checked_append hpart, checked_pass (decide_eq_false (by omega)),
    checked_pass (by simpa [hop] using htake), checked_pass (by simp [hop]), checked_nil, if_pos (by simp [hop])]

/-- PAGES returns pages that the partition owns and does not use. -/
theorem pagesH_return (hpart : firstFail (partChecks s q existing) = none) (hn : 1 ≤ q.f 2 2) (hmax : q.f 2 2 ≤ 1019)
    (hop : q.f 1 1 = 1)
    (hown : ∀ g ∈ dedup (q.list 4 4 (q.f 2 2)), pageOwner s g = .part (q.f 0 1) ∧ pageInUse (getPart s (q.f 0 1)) g = false) :
    pagesH q s = .ok (returnPages (dedup (q.list 4 4 (q.f 2 2)))
      (modPart (q.f 0 1) (fun x => { x with weights := x.weights.filter (fun g => !mem g (dedup (q.list 4 4 (q.f 2 2)))) }) s)) [] := by
  rw [pagesH, checked_append hpart, checked_pass (decide_eq_false (by omega)),
    checked_pass (by simpa [hop] using fun g hg => (hown g hg).1), checked_pass (by simpa [hop] using fun g hg => (hown g hg).2), checked_nil,
    if_neg (by simp [hop])]

/-- The fill that ends next frees its page, while the Signal Box runs. -/
theorem pageFreed_next {page : Nat} (hnext : nextFill s page = true) (hup : s.sb.restarting = false) :
    pageFreed page s = fillPage page { s with mem := { s.mem with filling := s.mem.filling.filter (· != page) } } := by
  simp [pageFreed, hnext, hup]

theorem pageFreed_waits {page : Nat} (hwait : nextFill s page = false ∨ s.sb.restarting = true) : pageFreed page s = s := by
  rcases hwait with hnext | hdown
  · simp [pageFreed, hnext]
  · simp [pageFreed, hdown]

theorem exec_pageFreed {page : Nat} (hpage : page < 196608) : exec (.pageFreed page) s = .next (pageFreed page s) :=
  onUnit_of_lt (by simpa [stackEnd] using hpage)

/-! ### Mappings (07 R194, R195, R198) -/

/-- The entries that MAP names: each a VA and its page-table entry. -/
def mapEntries (q : Req) : List (Nat × BitVec 64) :=
  (List.range (q.f 2 2)).map (fun i => (q.f (16 + 16 * i) 8, BitVec.ofNat 64 (q.f (24 + 16 * i) 8)))

/-- MAP installs all its entries. -/
theorem mapH_ok {tab : List Pte} (hpart : firstFail (partChecks s q existing) = none) (hn : 1 ≤ q.f 2 2) (hmax : q.f 2 2 ≤ 254)
    (hall : mapAll s (q.f 0 1) (mapEntries q) (getPart s (q.f 0 1)).ptab = some tab) :
    mapH q s = .ok (modPart (q.f 0 1) (fun x => { x with ptab := tab }) s) [] := by
  rw [mapEntries] at hall
  rw [mapH, checked_append hpart, checked_pass (decide_eq_false (by omega)), checked_nil, hall]

/-- MAP installs none when one cannot be. -/
theorem mapH_no (hpart : firstFail (partChecks s q existing) = none) (hn : 1 ≤ q.f 2 2) (hmax : q.f 2 2 ≤ 254)
    (hall : mapAll s (q.f 0 1) (mapEntries q) (getPart s (q.f 0 1)).ptab = none) : mapH q s = .no 0x5140 := by
  rw [mapEntries] at hall
  rw [mapH, checked_append hpart, checked_pass (decide_eq_false (by omega)), checked_nil, hall]

/-- UNMAP starts when its VAs are starts of 64 KiB pages outside the pool, and outside the areas that a loaded partition keeps mapped. -/
theorem unmapH_op (hpart : firstFail (partChecks s q existing) = none) (hn : 1 ≤ q.f 2 2) (hmax : q.f 2 2 ≤ 509)
    (hvas : ∀ v ∈ q.list 8 8 (q.f 2 2), v % 0x10000 = 0 ∧ v < 2 ^ 40 ∧ poolEntry (getPart s (q.f 0 1)) v = false
      ∧ ((getPart s (q.f 0 1)).st = .empty ∨ (getPart s (q.f 0 1)).st = .drained ∨ inAreas (getPart s (q.f 0 1)).params v = false)) :
    unmapH q s = .op (modPart (q.f 0 1) (fun x => { x with unmapping := true, unmapVas := q.list 8 8 (q.f 2 2) }) s) (some (q.f 0 1)) [] := by
  have haligned : (q.list 8 8 (q.f 2 2)).any (fun v => decide (v % 0x10000 ≠ 0 ∨ vaEnd ≤ v)) = false := by
    refine List.any_eq_false.mpr fun v hv => ?_
    obtain ⟨halign, hend, -, -⟩ := hvas v hv
    simpa [halign, vaEnd] using hend
  have hpool : (q.list 8 8 (q.f 2 2)).any (poolEntry (getPart s (q.f 0 1))) = false :=
    List.any_eq_false.mpr fun v hv => by obtain ⟨-, -, hpool, -⟩ := hvas v hv; simp [hpool]
  have hareas : (inState (getPart s (q.f 0 1)) [.serving, .draining, .halted]
      && (q.list 8 8 (q.f 2 2)).any (inAreas (getPart s (q.f 0 1)).params)) = false := by
    by_cases hrest : (getPart s (q.f 0 1)).st = .empty ∨ (getPart s (q.f 0 1)).st = .drained
    · rw [not_inState (by rcases hrest with h | h <;> simp [h]), Bool.false_and]
    · obtain ⟨hne, hnd⟩ := not_or.mp hrest
      rw [List.any_eq_false.mpr fun v hv => by obtain ⟨-, -, -, harea⟩ := hvas v hv; simpa [hne, hnd] using harea, Bool.and_false]
  rw [unmapH, checked_append hpart,
    checked_pass (by rw [haligned, Bool.or_false]; exact decide_eq_false (by omega)), checked_pass (by rw [hpool, hareas]; rfl), checked_nil]

/-- UNMAP_DONE takes the entries away once neither the kernel nor an SCU needs them. -/
theorem unmapDone_ends {p : Nat} (hun : (getPart s p).unmapping = true) (hk : (getPart s p).kernel = none) (hscu : scuBusy s p = false)
    (hup : s.sb.restarting = false) : unmapDone p s = endOps p 0x0209 0 (modPart p unmapPart s) := by
  simp [unmapDone, hun, hk, hscu, hup]

theorem unmapDone_waits {p : Nat} (hwait : (getPart s p).kernel ≠ none ∨ scuBusy s p = true ∨ s.sb.restarting = true) : unmapDone p s = s := by
  refine if_neg ?_
  rcases hwait with hk | hscu | hdown
  · simp [Option.isNone_eq_false_iff.mpr (Option.isSome_iff_ne_none.mpr hk)]
  · simp [hscu]
  · simp [hdown]

/-! ### The KV pool (08 R211) -/

theorem kvPoolH_add (hpart : firstFail (partChecks s q existing) = none) (hn : 1 ≤ q.f 2 2) (hmax : q.f 2 2 ≤ 1019) (hop : q.f 1 1 = 0)
    (hgs : ∀ g ∈ dedup (q.list 4 4 (q.f 2 2)), pageOwner s g = .part (q.f 0 1) ∧ mem g (getPart s (q.f 0 1)).pool = false
      ∧ pagePinned s g = true ∧ poolMapped (getPart s (q.f 0 1)).ptab g = true) :
    kvPoolH q s = .ok (modPart (q.f 0 1) (fun x => { x with pool := x.pool ++ dedup (q.list 4 4 (q.f 2 2)) }) s) [] := by
  rw [kvPoolH, checked_append hpart, checked_pass (decide_eq_false (by omega)),
    checked_pass (by simpa [hop] using fun g hg => (hgs g hg).1),
    checked_pass (List.any_eq_false.mpr fun g hg => by obtain ⟨-, hpool, hpin, hmap⟩ := hgs g hg; simp [hop, hpool, hpin, hmap]), checked_nil]
  simp [hop]

theorem kvPoolH_remove (hpart : firstFail (partChecks s q existing) = none) (hn : 1 ≤ q.f 2 2) (hmax : q.f 2 2 ≤ 1019) (hop : q.f 1 1 = 1)
    (hgs : ∀ g ∈ dedup (q.list 4 4 (q.f 2 2)), mem g (getPart s (q.f 0 1)).pool = true ∧ poolFree (getPart s (q.f 0 1)) g = true) :
    kvPoolH q s = .ok (modPart (q.f 0 1) (fun x => { x with pool := x.pool.filter (fun g => !mem g (dedup (q.list 4 4 (q.f 2 2)))) }) s) [] := by
  rw [kvPoolH, checked_append hpart, checked_pass (decide_eq_false (by omega)),
    checked_pass (by simp [hop]),
    checked_pass (List.any_eq_false.mpr fun g hg => by obtain ⟨hpool, hfree⟩ := hgs g hg; simp [hop, hpool, hfree]), checked_nil]
  simp [hop]

end

/-- A row of an existing partition runs. -/
theorem onPart_of_lt {p : Nat} {k : Host.Outcome State Fault Refusal} (h : p < 16) : onPart p k = k := onUnit_of_lt h

/-- Settles O41: each command's reply past its checks, and the two rows that end what PAGES and UNMAP begin. -/
theorem partitionMakeUp : Obligations.PartitionMakeUp := by
  unfold Obligations.PartitionMakeUp
  refine ⟨fun sub s q t => ⟨fun hs hp hst ⟨hcores, hslices, hc, hsl, hh⟩ => ?_, fun hs hp hst ⟨hcores, hslices, hc, hsl, hh⟩ hpool => ?_,
      fun hs hp hst hpages hsess => ?_, fun hs hp hst hrange hblocks => ?_, fun hs hp hst hlow hhigh hchan => ?_,
      fun hs hlow hhigh hmode hfree => ?_, fun hs hp hst hn hmax => ⟨fun hop htake => ?_, fun hop hown => ?_⟩,
      fun page hpage => ⟨fun hnext hup => ?_, fun hwait => ?_⟩⟩,
    fun sub s q t => ⟨fun hs hp hst hn hmax => ⟨fun tab htab => ?_, fun hnone => ?_⟩, fun hs hp hst hn hmax hroom hvas => ?_,
      fun p hp hun => ⟨fun hk hscu hup => ?_, fun hwait => ?_⟩,
      fun hs hp hst hn hmax => ⟨fun hop hgs => ?_, fun hop hgs => ?_⟩⟩⟩
  · exact mail_of_ok hs (partCreateH_ok hp hst (unitChecks_pass hcores hslices hc hsl hh))
  · exact mail_of_ok hs (partUnitsH_ok hp hst (unitChecks_pass hcores hslices hc hsl hh) hpool)
  · exact mail_of_ok hs (partDestroyH_ok hp hst hpages hsess)
  · exact mail_of_ok hs (paramH_ok hp hst hrange hblocks)
  · exact mail_of_ok hs (shareH_ok (partChecks_existing hp hst) hlow hhigh hchan)
  · exact mail_of_ok hs (rowModeH_ok hlow hhigh hmode hfree)
  · exact mail_of_ok hs (pagesH_take (partChecks_existing hp hst) hn hmax hop htake)
  · exact mail_of_ok hs (pagesH_return (partChecks_existing hp hst) hn hmax hop hown)
  · exact (exec_pageFreed hpage).trans (congrArg _ (pageFreed_next hnext hup))
  · exact (exec_pageFreed hpage).trans (congrArg _ (pageFreed_waits hwait))
  · exact mail_of_ok hs (mapH_ok (partChecks_existing hp hst) hn hmax htab)
  · exact mail_of_no hs (mapH_no (partChecks_existing hp hst) hn hmax hnone)
  · exact mail_of_op hs hroom (unmapH_op (partChecks_existing hp hst) hn hmax hvas)
  · exact (onPart_of_lt hp).trans (congrArg _ (unmapDone_ends hun hk hscu hup))
  · exact (onPart_of_lt hp).trans (congrArg _ (unmapDone_waits hwait))
  · exact mail_of_ok hs (kvPoolH_add (partChecks_existing hp hst) hn hmax hop hgs)
  · exact mail_of_ok hs (kvPoolH_remove (partChecks_existing hp hst) hn hmax hop hgs)

end Sys2Proof.Machine
end

section
/-!
PROOF. 14_signal_box_mailboxes.md: the DIAG commands (R386): diagnostic kernels (06 R179), reads of a core, injection and raw reads (12 R326),
and the power domains (01 R27 to R29).
-/

namespace Sys2Proof.Machine

section
variable {q : Req} {s : State} {p : Nat}

/-! ### LAUNCH, READ_STORE, READ_SCOREBOARD -/

/-- LAUNCH starts an image that its partition holds and fits, with a stop count that names one of its cores or all. -/
theorem diagLaunchH_op {m : Model} {img : Image} (hp : q.f 0 1 < 16) (hst : (getPart s (q.f 0 1)).st = .drained)
    (hon : s.boot.domainsOff = false) (hlen : q.f 16 2 ≤ 4048) (hindex : q.f 1 1 ≤ 3) (hstop : q.f 8 8 < 2 ^ 48)
    (hmodel : (getPart s (q.f 0 1)).model = some m) (himg : m.images[q.f 1 1]? = some img) (hfits : imageFits s (getPart s (q.f 0 1)) img = true)
    (hcore : q.f 8 8 = 0 ∨ q.f 2 1 = 0xFF ∨ q.f 2 1 < img.lcores) :
    diagLaunchH q s = .op (launchKernel (q.f 0 1) img (bytesAt q.pay 32 (q.f 16 2)) true (q.f 8 8) (q.f 2 1) s) (some (q.f 0 1)) [] := by
  have hheld : (getPart s (q.f 0 1)).model.bind (fun m => m.images[q.f 1 1]?) = some img := by simp [hmodel, himg]
  have hrange : decide (3 < q.f 1 1 ∨ 2 ^ 48 ≤ q.f 8 8 ∨ 4048 < q.f 16 2) = false := decide_eq_false (by omega)
  have hstopCore : (q.f 8 8 != 0 && q.f 2 1 != 0xFF && decide (img.lcores ≤ q.f 2 1)) = false := by
    rcases hcore with h | h | h
    · simp [h]
    · simp [h]
    · simp [Nat.not_le.mpr h]
  rw [diagLaunchH, checked_append (partChecks_pass hp (inState_of_mem (by simp [hst]))), checked_pass hon]
  simp only [hheld, Option.getD_some, Option.isSome_some, hrange, hstopCore]
  exact (checked_pass rfl).trans (checked_pass (by rw [hfits]; rfl))

/-- A core of a partition that is Halted or Drained can be read. -/
theorem coreReadable_pass {n : Nat} (hn : n < 144) (hpresent : unitPresent s.units.core n = true) (howner : coreOwner s n = some p)
    (hst : (getPart s p).st = .halted ∨ (getPart s p).st = .drained) : firstFail (coreReadable s n) = none := by
  have hnum : ¬143 < n := by omega
  have hstate : inState (getPart s p) [.halted, .drained] = true := inState_of_mem (by simpa using hst)
  simp [coreReadable, firstFail, hnum, hpresent, howner, hstate]

/-- READ_STORE answers the bytes as the store's checkers return them, and records what these found. -/
theorem readStoreH_ok (hreadable : firstFail (coreReadable s (q.f 0 1)) = none) (hlow : 1 ≤ q.f 8 2) (hhigh : q.f 8 2 ≤ 4064)
    (hcode : storeCode (getCore s (q.f 0 1)) (q.f 4 4) (q.f 8 2) = none) :
    readStoreH q s = .ok
      (if (sramHits (getCore s (q.f 0 1)).storeChk (q.f 4 4) (q.f 8 2)).isEmpty then s
        else modCore (q.f 0 1) (fun c => { c with storeChk := sramMark c.store c.storeChk (q.f 4 4) (q.f 8 2) })
          (sramErrors 7 0 (q.f 0 1) (getCore s (q.f 0 1)).store (sramHits (getCore s (q.f 0 1)).storeChk (q.f 4 4) (q.f 8 2)) s))
      (pbData (sramBytes (getCore s (q.f 0 1)).store (getCore s (q.f 0 1)).storeChk (q.f 4 4) (q.f 8 2))) := by
  rw [readStoreH, checked_pass (decide_eq_false (by omega)), checked_of_pass hreadable, hcode]

theorem readScoreboardH_ok (hreadable : firstFail (coreReadable s (q.f 0 1)) = none) :
    readScoreboardH q s = .ok s ((List.range 64).flatMap (fun i => leBytes (ctr (getCore s (q.f 0 1)) i).toNat 4)
      ++ (List.range 4).flatMap (fun e => (List.range 64).flatMap (fun i => leBytes (spGet 0 (getEng (getCore s (q.f 0 1)) e).slots i).toNat 4))) :=
  checked_of_pass hreadable

/-! ### INJECT and RAW_READ (12 R324, R326) -/

section
variable {pl : RawPlace}

/-- Injection is allowed, and the unit of a place is drained (R324, R326). -/
theorem injection_allowed_iff :
    (s.cfg.chkMode == 0 || !unitDrained s (placeOwner s pl)) = false ↔ s.cfg.chkMode ≠ 0 ∧ unitDrained s (placeOwner s pl) = true := by
  simp

theorem injectH_ok (hpl : rawPlace s q = .ok pl) (hmay : s.cfg.chkMode ≠ 0 ∧ unitDrained s (placeOwner s pl) = true) :
    injectH q s = .ok (injectAt pl (bytesAt q.pay 16 64) (bytesAt q.pay 80 8) s) [] := by
  rw [injectH, hpl]
  exact checked_pass (injection_allowed_iff.mpr hmay)

theorem injectH_no (hpl : rawPlace s q = .ok pl) (hmay : ¬(s.cfg.chkMode ≠ 0 ∧ unitDrained s (placeOwner s pl) = true)) :
    injectH q s = .no 0x2260 := by
  rw [injectH, hpl]
  exact checked_fail (Bool.eq_true_of_not_eq_false (mt injection_allowed_iff.mp hmay))

theorem rawReadH_ok (hpl : rawPlace s q = .ok pl) (hmay : s.cfg.chkMode ≠ 0 ∧ unitDrained s (placeOwner s pl) = true) :
    rawReadH q s = .ok (rawRead pl s).1 (rawRead pl s).2 := by
  rw [rawReadH, hpl]
  exact checked_pass (injection_allowed_iff.mpr hmay)

theorem rawReadH_no (hpl : rawPlace s q = .ok pl) (hmay : ¬(s.cfg.chkMode ≠ 0 ∧ unitDrained s (placeOwner s pl) = true)) :
    rawReadH q s = .no 0x2260 := by
  rw [rawReadH, hpl]
  exact checked_fail (Bool.eq_true_of_not_eq_false (mt injection_allowed_iff.mp hmay))

end

/-! ### DOMAIN (01 R27 to R29) -/

/-- DOMAIN past the checks of its fields and of the unit: a switch that breaks the order is refused, any other made. -/
theorem domainH_eq (hkind : q.f 0 1 ≤ 8) (hunit : q.f 2 2 < domainCount (q.f 0 1)) (hon : q.f 4 1 ≤ 1)
    (hbyte : domainByte s (q.f 0 1) (q.f 2 2) ≤ 1) (hfree : domainOwned s (q.f 0 1) (q.f 2 2) = false) :
    domainH q s = checked [(breaksOrder s (q.f 0 1) (q.f 2 2) (q.f 4 1), 0x5133)]
      (.ok (if domainByte s (q.f 0 1) (q.f 2 2) + q.f 4 1 = 1 then s
        else unitChanged (if q.f 4 1 = 0 then domainOff (q.f 0 1) (q.f 2 2) s else domainOn (q.f 0 1) (q.f 2 2) s)) []) := by
  rw [domainH, checked_pass (decide_eq_false (by omega)), checked_pass (by rw [hfree, Bool.or_false]; exact decide_eq_false (by omega))]

end

/-- Settles O51: each command's reply past its checks. -/
theorem diagnosticCommands : Obligations.DiagnosticCommands := by
  unfold Obligations.DiagnosticCommands
  refine fun sub s q t => ⟨fun hs hp hst hon hlen hindex hstop hroom m img hmodel himg hfits hcore => ?_,
    fun hs ⟨hn, hpresent, p, howner, hst⟩ hlow hhigh hcode => ?_, fun hs ⟨hn, hpresent, p, howner, hst⟩ => ?_,
    fun pl hpl => ⟨fun hs => ⟨fun hmay => ?_, fun hmay => ?_⟩, fun hs => ⟨fun hmay => ?_, fun hmay => ?_⟩⟩,
    fun hs hkind hunit hon hbyte hfree => ⟨fun hbreaks => ?_, fun hkeeps => ?_⟩⟩
  · exact mail_of_op hs hroom (diagLaunchH_op hp hst hon hlen hindex hstop hmodel himg hfits hcore)
  · exact mail_of_ok hs (readStoreH_ok (coreReadable_pass hn hpresent howner hst) hlow hhigh hcode)
  · exact mail_of_ok hs (readScoreboardH_ok (coreReadable_pass hn hpresent howner hst))
  · exact mail_of_ok hs (injectH_ok hpl hmay)
  · exact mail_of_no hs (injectH_no hpl hmay)
  · exact mail_of_ok hs (rawReadH_ok hpl hmay)
  · exact mail_of_no hs (rawReadH_no hpl hmay)
  · exact mail_of_no hs ((domainH_eq hkind hunit hon hbyte hfree).trans (checked_fail hbreaks))
  · exact mail_of_ok hs ((domainH_eq hkind hunit hon hbyte hfree).trans (checked_pass hkeeps))

end Sys2Proof.Machine
end

section
/-!
PROOF. 14_signal_box_mailboxes.md: the MODEL commands (R379): loading (06 R171 to R174), Retained pages (03 R67), mirrors of weight pages
(12 R338) and reloads (12 R339), with the rows that end them.
-/

namespace Sys2Proof.Machine

section
variable {q : Req} {s u : State} {p : Nat}

/-! ### LOAD -/

/-- LOAD past the checks of its partition and of its fields: refused for its KV geometry, or started. -/
theorem modelLoadH_eq (hp : q.f 0 1 < 16) (hst : (getPart s (q.f 0 1)).st = .empty) (hn : 1 ≤ q.f 1 1) (hmax : q.f 1 1 ≤ 4)
    (hfeatures : q.f 2 1 ≤ 1) (hvocab : 1 ≤ q.f 16 4) (hvocabMax : q.f 16 4 ≤ 262144) (hon : s.boot.domainsOff = false) :
    modelLoadH q s = checked [(loadGeomBad q, 0x4201)]
      (.op (modPart (q.f 0 1) (fun x => { x with loading := some (padTo 96 q.pay) }) s) (some (q.f 0 1)) []) := by
  rw [modelLoadH, checked_append (partChecks_pass hp (inState_of_mem (by simp [hst]))), checked_pass (decide_eq_false (by omega)), checked_pass hon]

section
variable {pay : List Byte} {ws : List Nat} {ds : List (List Byte)} {c : Code}

/-- No load ends while the Signal Box restarts (01 R19). -/
theorem modelLoadDone_restarting (hload : (getPart s p).loading = some pay) (hdown : s.sb.restarting = true) : modelLoadDone p ws s = s := by
  simp [modelLoadDone, hload, hdown]

/-- A load whose images cannot be read ends with 0x1170. -/
theorem modelLoadDone_unread (hload : (getPart s p).loading = some pay) (hup : s.sb.restarting = false)
    (hread : readImages p pay (modPart p (fun x => { x with loading := none }) s) = (u, none)) :
    modelLoadDone p ws s = endOps p 0x0301 0x1170 u := by
  simp [modelLoadDone, hload, hup, hread]

/-- A load whose images were read ends with what they are. -/
theorem modelLoadDone_read (hload : (getPart s p).loading = some pay) (hup : s.sb.restarting = false)
    (hread : readImages p pay (modPart p (fun x => { x with loading := none }) s) = (u, some ds)) :
    modelLoadDone p ws s = endOps p 0x0301 (loadImages p pay ws ds u).2 (loadImages p pay ws ds u).1 := by
  simp [modelLoadDone, hload, hup, hread]

/-- An image that is rejected by itself. -/
theorem loadImages_of_imageCode (h : lowest (ds.filterMap imageCode) = some c) : loadImages p pay ws ds u = (u, c) := by
  simp [loadImages, h]

theorem lowest_imageCode_none (h : ∀ d ∈ ds, imageCode d = none) : lowest (ds.filterMap imageCode) = none := by
  rw [List.filterMap_eq_nil_iff.mpr h, lowest]

/-- Images that do not go together, or not with their partition. -/
theorem loadImages_of_fitCode (hone : ∀ d ∈ ds, imageCode d = none) (h : lowest (fitCodes u (getPart u p) ds) = some c) :
    loadImages p pay ws ds u = (u, c) := by
  simp [loadImages, lowest_imageCode_none hone, h]

/-- Images that are accepted. -/
theorem loadImages_of_accepted (hone : ∀ d ∈ ds, imageCode d = none) (hfit : fitCodes u (getPart u p) ds = []) :
    loadImages p pay ws ds u = (scuDomains (getPart u p).chans (modPart p (fun x => { x with
        st := .drained, model := some (loadedModel pay ds),
        params := { x.params with siding := x.params.siding && !(loadedModel pay ds).features },
        imageUse := 0, stepNo := 0, launches := 0, weights := weightsOf u p ws }) u), if ds.any skipped then 0x0111 else 0) := by
  simp [loadImages, lowest_imageCode_none hone, hfit, lowest]

end

/-! ### UNLOAD, RETAIN, INFO -/

theorem modelUnloadH_ok (hp : q.f 0 1 < 16) (hst : (getPart s (q.f 0 1)).st = .drained) (hsess : sessOf s (q.f 0 1) = []) :
    modelUnloadH q s = .ok (scuDomains (getPart s (q.f 0 1)).chans
      (modPart (q.f 0 1) (fun x => { x with st := .empty, model := none, weights := [], repair := [], reload := [] }) s)) [] := by
  rw [modelUnloadH, checked_append (partChecks_pass hp (inState_of_mem (by simp [hst]))), checked_pass (by simp [hsess]), checked_nil]

/-- RETAIN of pages that the partition owns. -/
theorem retainH_set (hpart : firstFail (partChecks s q existing) = none) (hop : q.f 1 1 = 1) (hn : 1 ≤ q.f 2 2) (hmax : q.f 2 2 ≤ 1019)
    (hown : ∀ g ∈ q.list 4 4 (q.f 2 2), pageOwner s g = .part (q.f 0 1)) :
    retainH q s = .ok { s with mem := { s.mem with retained := sortNat (s.mem.retained.filter (fun g => !mem g (q.list 4 4 (q.f 2 2)))
                                                                   ++ dedup (q.list 4 4 (q.f 2 2))) } } [] := by
  rw [retainH, checked_append hpart, checked_pass (decide_eq_false (by omega)),
    checked_pass (by simpa using hown), checked_nil, if_pos hop]

/-- RETAIN taken back. -/
theorem retainH_clear (hpart : firstFail (partChecks s q existing) = none) (hop : q.f 1 1 = 0) (hn : 1 ≤ q.f 2 2) (hmax : q.f 2 2 ≤ 1019)
    (hown : ∀ g ∈ q.list 4 4 (q.f 2 2), pageOwner s g = .part (q.f 0 1)) :
    retainH q s = .ok { s with mem := { s.mem with retained := s.mem.retained.filter (fun g => !mem g (q.list 4 4 (q.f 2 2))) } } [] := by
  rw [retainH, checked_append hpart, checked_pass (decide_eq_false (by omega)),
    checked_pass (by simpa using hown), checked_nil, if_neg (by omega)]

theorem modelInfoH_ok (hpart : firstFail (partChecks s q existing) = none) :
    modelInfoH q s = .ok s (((getPart s (q.f 0 1)).model.map (·.payload)).getD (List.replicate 96 0)) := by
  rw [modelInfoH, checked_of_pass hpart]
  cases (getPart s (q.f 0 1)).model <;> rfl

/-! ### Mirrors and reloads (12 R338, R339) -/

/-- The pairs that MIRROR names: each a primary and its mirror. -/
def mirrorPairs (q : Req) : List (Nat × Nat) := (List.range (q.f 2 2)).map (fun i => (q.f (8 + 8 * i) 4, q.f (12 + 8 * i) 4))

/-- Pairs that R338 allows: each one by itself, and no page in two of them. -/
def pairsAllowed (s : State) (p : Nat) (ps : List (Nat × Nat)) : Prop :=
  (∀ e ∈ ps, pairOk s p e = true) ∧ hasRepeat (ps.flatMap (fun e => [e.1, e.2])) = false

theorem pairsAllowed_iff {ps : List (Nat × Nat)} :
    (ps.any (fun e => !pairOk s p e) || hasRepeat (ps.flatMap (fun e => [e.1, e.2]))) = false ↔ pairsAllowed s p ps := by
  simp [pairsAllowed]

/-- MIRROR of the partition's own pages: pairs that R338 does not allow are refused, anything else starts. -/
theorem modelMirrorH_eq (hpart : firstFail (partChecks s q existing) = none) (hop : q.f 1 1 ≤ 1) (hn : 1 ≤ q.f 2 2) (hmax : q.f 2 2 ≤ 509)
    (hown : ∀ e ∈ mirrorPairs q, pageOwner s e.1 = .part (q.f 0 1) ∧ pageOwner s e.2 = .part (q.f 0 1)) :
    modelMirrorH q s = checked [(q.f 1 1 == 0 && ((mirrorPairs q).any (fun e => !pairOk s (q.f 0 1) e)
        || hasRepeat ((mirrorPairs q).flatMap (fun e => [e.1, e.2]))), 0x2232)]
      (.op (modPart (q.f 0 1) (fun x => { x with mirroring := some (q.f 1 1 == 0, mirrorPairs q) }) s) (some (q.f 0 1)) []) := by
  have hpages : (mirrorPairs q).any (fun e => pageOwner s e.1 != .part (q.f 0 1) || pageOwner s e.2 != .part (q.f 0 1)) = false :=
    List.any_eq_false.mpr fun e he => by simp [hown e he]
  rw [modelMirrorH, checked_append hpart, checked_pass (decide_eq_false (by omega))]
  exact checked_pass hpages

theorem modelMirrorH_pair (hpart : firstFail (partChecks s q existing) = none) (hop : q.f 1 1 = 0) (hn : 1 ≤ q.f 2 2) (hmax : q.f 2 2 ≤ 509)
    (hown : ∀ e ∈ mirrorPairs q, pageOwner s e.1 = .part (q.f 0 1) ∧ pageOwner s e.2 = .part (q.f 0 1))
    (hgood : pairsAllowed s (q.f 0 1) (mirrorPairs q)) :
    modelMirrorH q s = .op (modPart (q.f 0 1) (fun x => { x with mirroring := some (true, mirrorPairs q) }) s) (some (q.f 0 1)) [] := by
  rw [modelMirrorH_eq hpart (by omega) hn hmax hown, hop]
  exact checked_pass (pairsAllowed_iff.mpr hgood)

theorem modelMirrorH_refused (hpart : firstFail (partChecks s q existing) = none) (hop : q.f 1 1 = 0) (hn : 1 ≤ q.f 2 2)
    (hmax : q.f 2 2 ≤ 509) (hown : ∀ e ∈ mirrorPairs q, pageOwner s e.1 = .part (q.f 0 1) ∧ pageOwner s e.2 = .part (q.f 0 1))
    (hbad : ¬pairsAllowed s (q.f 0 1) (mirrorPairs q)) : modelMirrorH q s = .no 0x2232 := by
  rw [modelMirrorH_eq hpart (by omega) hn hmax hown, hop]
  exact checked_fail (Bool.eq_true_of_not_eq_false (mt pairsAllowed_iff.mp hbad))

theorem modelMirrorH_clear (hpart : firstFail (partChecks s q existing) = none) (hop : q.f 1 1 = 1) (hn : 1 ≤ q.f 2 2)
    (hmax : q.f 2 2 ≤ 509)
    (hown : ∀ e ∈ mirrorPairs q, pageOwner s e.1 = .part (q.f 0 1) ∧ pageOwner s e.2 = .part (q.f 0 1)) :
    modelMirrorH q s = .op (modPart (q.f 0 1) (fun x => { x with mirroring := some (false, mirrorPairs q) }) s) (some (q.f 0 1)) [] := by
  rw [modelMirrorH_eq hpart (by omega) hn hmax hown, hop]
  exact checked_pass rfl

/-- MIRROR_DONE of pairs: each primary is copied into its mirror. -/
theorem mirrorDone_pairs {ps : List (Nat × Nat)} (hmir : (getPart s p).mirroring = some (true, ps)) (hup : s.sb.restarting = false) :
    mirrorDone p s = endOps p 0x0304 0 (ps.foldl (fun t e => addMirror e t) (modPart p (fun x => { x with mirroring := none }) s)) := by
  simp [mirrorDone, hmir, hup]

/-- MIRROR_DONE of pairs to clear: they go. -/
theorem mirrorDone_clears {ps : List (Nat × Nat)} (hmir : (getPart s p).mirroring = some (false, ps)) (hup : s.sb.restarting = false) :
    mirrorDone p s = endOps p 0x0304 0 { modPart p (fun x => { x with mirroring := none }) s with
      mem := { s.mem with mirrors := s.mem.mirrors.filter (fun e => !ps.any (· == e)) } } := by
  simp [mirrorDone, hmir, hup]

theorem reloadedH_ok (hpart : firstFail (partChecks s q existing) = none) (hpage : mem (q.f 4 4) (getPart s (q.f 0 1)).reload = true) :
    reloadedH q s = .ok (modPart (q.f 0 1) (fun x => { x with reload := x.reload.filter (· != q.f 4 4) }) s) [] := by
  rw [reloadedH, checked_append hpart, checked_pass (by rw [hpage]; rfl), checked_nil]

end

/-- Settles O43: each command's reply past its checks, and the two rows that end a load and a mirroring. -/
theorem modelCommands : Obligations.ModelCommands := by
  unfold Obligations.ModelCommands
  refine ⟨fun sub s q t => ⟨fun hs hp hst hn hmax hfeatures hvocab hvocabMax hon => ⟨fun hbad => ?_, fun hgood hroom => ?_⟩,
      fun p ws pay hp hload hdown => ?_,
      fun p ws pay u hp hload hup => ⟨fun hread => ?_, fun ds hread => ⟨fun c hc => ?_, fun hone c hc => ?_, fun hone hfit => ?_⟩⟩,
      fun hs hp hst hsess => ?_, fun hs hp hst hn hmax hown => ⟨fun hop => ?_, fun hop => ?_⟩, fun hs hp hst => ?_⟩,
    fun sub s q t => ⟨fun hs hp hst hn hmax hroom hown => ⟨fun hop hgood => ?_, fun hop => ?_, fun hop hbad => ?_⟩,
      fun p ps hp hup => ⟨fun hmir => ?_, fun hmir => ?_⟩, fun hs hp hst hpage => ?_⟩⟩
  · exact mail_of_no hs ((modelLoadH_eq hp hst hn hmax hfeatures hvocab hvocabMax hon).trans (checked_fail hbad))
  · exact mail_of_op hs hroom ((modelLoadH_eq hp hst hn hmax hfeatures hvocab hvocabMax hon).trans (checked_pass hgood))
  · exact (onPart_of_lt hp).trans (congrArg _ (modelLoadDone_restarting hload hdown))
  · exact (onPart_of_lt hp).trans (congrArg _ (modelLoadDone_unread hload hup hread))
  · exact (onPart_of_lt hp).trans (congrArg _ ((modelLoadDone_read hload hup hread).trans (by rw [loadImages_of_imageCode hc])))
  · exact (onPart_of_lt hp).trans (congrArg _ ((modelLoadDone_read hload hup hread).trans (by rw [loadImages_of_fitCode hone hc])))
  · exact (onPart_of_lt hp).trans (congrArg _ ((modelLoadDone_read hload hup hread).trans (by rw [loadImages_of_accepted hone hfit])))
  · exact mail_of_ok hs (modelUnloadH_ok hp hst hsess)
  · exact mail_of_ok hs (retainH_set (partChecks_existing hp hst) hop hn hmax hown)
  · exact mail_of_ok hs (retainH_clear (partChecks_existing hp hst) hop hn hmax hown)
  · exact mail_of_ok hs (modelInfoH_ok (partChecks_existing hp hst))
  · exact mail_of_op hs hroom (modelMirrorH_pair (partChecks_existing hp hst) hop hn hmax hown hgood)
  · exact mail_of_op hs hroom (modelMirrorH_clear (partChecks_existing hp hst) hop hn hmax hown)
  · exact mail_of_no hs (modelMirrorH_refused (partChecks_existing hp hst) hop hn hmax hown hbad)
  · exact (onPart_of_lt hp).trans (congrArg _ (mirrorDone_pairs hmir hup))
  · exact (onPart_of_lt hp).trans (congrArg _ (mirrorDone_clears hmir hup))
  · exact mail_of_ok hs (reloadedH_ok (partChecks_existing hp hst) hpage)

end Sys2Proof.Machine
end

section
/-!
PROOF. A frame for the integrity rows (12_check_bits_scrub_and_repair.md): what finding, recording and repairing an error does elsewhere never
ends the failure of a channel, refills its SCU, withdraws a pending map-out or moves a slice's background test.
-/

namespace Sys2Proof.Machine

/-- From s to t no channel's failure and no SCU's queue has changed, every pending map-out of a channel is still pending, and the background
tests stand where they stood. -/
structure Steady (s t : State) : Prop where
  failed : ∀ c, (getChan t c).failed = (getChan s c).failed
  queue : ∀ c, (getChan t c).queue = (getChan s c).queue
  pending : ∀ c, mem c s.cfg.pendChannels = true → mem c t.cfg.pendChannels = true
  testPos : t.cache.testPos = s.cache.testPos

namespace Steady
variable {s t u : State}

theorem refl (s : State) : Steady s s := ⟨fun _ => rfl, fun _ => rfl, fun _ h => h, rfl⟩

theorem trans (h : Steady s t) (k : Steady t u) : Steady s u :=
  ⟨fun c => (k.failed c).trans (h.failed c), fun c => (k.queue c).trans (h.queue c), fun c hc => k.pending c (h.pending c hc),
    k.testPos.trans h.testPos⟩

theorem ite {c : Prop} [Decidable c] (h : Steady s t) (k : Steady s u) : Steady s (if c then t else u) := by
  split
  · exact h
  · exact k

theorem foldl {α : Type} {f : State → α → State} (h : ∀ s x, Steady s (f s x)) : ∀ (l : List α) (s : State), Steady s (l.foldl f s)
  | [], s => .refl s
  | x :: l, s => (h s x).trans (foldl h l (f s x))

/-- The same where a result is carried along. -/
theorem foldl_fst {α β : Type} {f : State × β → α → State × β} (h : ∀ a x, Steady a.1 (f a x).1) :
    ∀ (l : List α) (a : State × β), Steady a.1 (l.foldl f a).1
  | [], a => .refl a.1
  | x :: l, a => (h a x).trans (foldl_fst h l (f a x))

/-- A change outside the channels, the configuration and the cache. -/
theorem of_eq (hchans : t.chans = s.chans) (hcfg : t.cfg = s.cfg) (hcache : t.cache = s.cache) : Steady s t :=
  ⟨fun _ => by rw [getChan, hchans, getChan], fun _ => by rw [getChan, hchans, getChan], fun _ h => by rwa [hcfg], by rw [hcache]⟩

/-- What is steady after such a change is steady after it from before. -/
theorem after (h : Steady t u) (hchans : t.chans = s.chans) (hcfg : t.cfg = s.cfg) (hcache : t.cache = s.cache) : Steady s u :=
  (of_eq hchans hcfg hcache).trans h

/-- A change of the cache that leaves the tests' places. -/
theorem of_cache {x : Cache} (h : x.testPos = s.cache.testPos) : Steady s { s with cache := x } :=
  ⟨fun _ => rfl, fun _ => rfl, fun _ h => h, h⟩

/-- A change of the configuration that withdraws no pending map-out of a channel. -/
theorem of_cfg {x : CfgStore} (h : ∀ c, mem c s.cfg.pendChannels = true → mem c x.pendChannels = true) : Steady s { s with cfg := x } :=
  ⟨fun _ => rfl, fun _ => rfl, h, rfl⟩

/-- A change of a channel that is neither its failure nor its SCU's queue. -/
theorem of_modChan {c : Nat} {g : Chan → Chan} (hfailed : ∀ x, (g x).failed = x.failed) (hqueue : ∀ x, (g x).queue = x.queue) :
    Steady s (modChan c g s) := by
  refine ⟨fun n => ?_, fun n => ?_, fun _ h => h, rfl⟩
  all_goals
    by_cases hn : n = c
    · subst hn
      simp [hfailed, hqueue]
    · rw [getChan_modChan_other _ _ _ _ hn]

end Steady

theorem Reported.steady {s t : State} (h : Reported s t) : Steady s t := by
  refine .of_eq ?_ ?_ ?_ <;> rw [← h]

/-! ### Errors of a channel (12 R327 to R332) -/

theorem mem_addOnce_of_mem {x c : Nat} {l : List Nat} (h : mem c l = true) : mem c (addOnce x l) = true := by
  unfold addOnce
  split
  · exact h
  · rw [mem, List.any_append, ← mem, h, Bool.true_or]

theorem mem_addOnce_self (c : Nat) (l : List Nat) : mem c (addOnce c l) = true := by
  unfold addOnce
  split
  · assumption
  · simp [mem]

theorem recordErr_reported (r : ErrRec) (s : State) : Reported s (recordErr r s) := by
  have hset : ∀ n l, Reported s (hiSet 0 4 { s with sb := { s.sb with errSeq := n, errRecs := l } }) := fun n l =>
    Reported.trans (t := { s with sb := { s.sb with errSeq := n, errRecs := l } }) rfl (hiSet_reported ..)
  unfold recordErr
  exact (hset _ _).trans (postD_reported ..)

theorem tellMapout_reported (c : Nat) (code : Code) (s : State) : Reported s (tellMapout c code s) :=
  (post_reported ..).trans (.foldl (fun _ _ => partEvent_reported ..) ..)

theorem pendChannel_steady (c : Nat) (code : Code) (s : State) : Steady s (pendChannel c code s) :=
  .ite (.refl s) (.trans (.of_cfg fun _ => mem_addOnce_of_mem) (tellMapout_reported ..).steady)

theorem chanErr_steady (chan off : Nat) (mis : Bool) (s : State) : Steady s (chanErr chan off mis s) := by
  unfold chanErr
  dsimp only
  split
  · exact .refl s
  · split
    · refine .trans (.of_modChan ?_ ?_) (pendChannel_steady ..) <;> exact fun _ => rfl
    · exact .of_modChan (fun _ => rfl) fun _ => rfl

theorem dramError_steady (code : Code) (by_ action corr : Nat) (unc mis : Bool) (delta : BitVec 64) (chan off : Nat) (s : State) :
    Steady s (dramError code by_ action corr unc mis delta chan off s) :=
  (recordErr_reported ..).steady.trans (chanErr_steady ..)

theorem noteWeightPage_steady (page : Nat) (s : State) : Steady s (noteWeightPage page s) := by
  unfold noteWeightPage
  split
  · exact .refl s
  · exact .ite (.of_eq rfl rfl rfl) (.refl s)

theorem noteWeight_steady (chan off : Nat) (s : State) : Steady s (noteWeight chan off s) := by
  unfold noteWeight
  split
  · exact .refl s
  · exact noteWeightPage_steady ..

/-! ### Lines of stack memory (12 R317 to R327) -/

theorem putRaw_steady (chan off : Nat) (data : List Byte) (d : BitVec 64) (s : State) : Steady s (putRaw chan off data d s) := .of_eq rfl rfl rfl

theorem stackWrite_steady (chan off : Nat) (l : List PB) (s : State) : Steady s (stackWrite chan off l s) :=
  .ite ((putRaw_steady ..).trans (.of_modChan (fun _ => rfl) fun _ => rfl)) (putRaw_steady ..)

theorem stackRead_steady (by_ chan off : Nat) (s : State) : Steady s (stackRead by_ chan off s).1 := by
  unfold stackRead
  dsimp only
  split
  · exact .refl s
  · split
    case h_1 => exact .refl s
    case h_2 => exact .refl s
    case h_3 => exact (dramError_steady ..).trans (.of_modChan (fun _ => rfl) fun _ => rfl)
    case h_4 => exact dramError_steady ..
    case h_5 => exact ((dramError_steady ..).trans (noteWeight_steady ..)).trans (putRaw_steady ..)

/-! ### Errors of a slice (12 R315, R316, R321, R335) -/

theorem putLine_steady (L : Nat) (ln : CLine) (s : State) : Steady s (putLine L ln s) := .of_cache rfl

theorem dropLine_steady (L : Nat) (s : State) : Steady s (dropLine L s) := .of_cache rfl

theorem pendSlice_steady (n : Nat) (code : Code) (s : State) : Steady s (pendSlice n code s) :=
  .ite (.refl s) (.trans (.of_cfg (x := { s.cfg with pendSlices := addOnce n s.cfg.pendSlices }) fun _ h => h) (post_reported ..).steady)

theorem sliceError_steady (kind : Nat) (code : Code) (by_ action corr : Nat) (unc : Bool) (L way byte : Nat) (delta : BitVec 5) (s : State) :
    Steady s (sliceError kind code by_ action corr unc L way byte delta s) := by
  unfold sliceError
  dsimp only
  have hrec := fun r => (recordErr_reported r s).steady
  split
  · exact hrec _
  · split
    · refine ((hrec _).trans (.of_cache ?_)).trans (pendSlice_steady ..)
      rfl
    · exact (hrec _).trans (.of_cache rfl)

theorem checkTags_steady (by_ L : Nat) (ln : CLine) (s : State) : Steady s (checkTags by_ L ln s).1 := by
  unfold checkTags
  dsimp only
  split
  · exact .refl s
  · split
    · exact (sliceError_steady ..).trans (putLine_steady ..)
    · split
      · exact ((sliceError_steady ..).trans (putLine_steady ..)).trans (noteWeightPage_steady ..)
      · exact (sliceError_steady ..).trans (dropLine_steady ..)

theorem recordFindings_steady (by_ L : Nat) (ln : CLine) (drop : Bool) (s : State) : Steady s (recordFindings by_ L ln drop s) := by
  refine .foldl (fun t f => ?_) _ s
  split
  · exact sliceError_steady ..
  · exact .ite (sliceError_steady ..) (sliceError_steady ..)
  · exact .refl t

theorem checkData_steady (by_ L : Nat) (ln : CLine) (s : State) : Steady s (checkData by_ L ln s).1 := by
  have hrec := fun drop => recordFindings_steady by_ L ln drop s
  unfold checkData
  dsimp only
  split
  · exact .refl s
  · split
    · exact (hrec _).trans (dropLine_steady ..)
    · exact .ite (((hrec _).trans (putLine_steady ..)).trans (noteWeightPage_steady ..)) ((hrec _).trans (putLine_steady ..))

theorem checkLine_steady (by_ L : Nat) (ln : CLine) (s : State) : Steady s (checkLine by_ L ln s).1 := by
  have htags := checkTags_steady by_ L ln s
  unfold checkLine
  split
  case h_1 h => rwa [h] at htags
  case h_2 h =>
    rw [h] at htags
    exact htags.trans (checkData_steady ..)

/-! ### Lines of the shared cache (03 R70 to R75) -/

theorem writeLine_steady (L : Nat) (ln : CLine) (s : State) : Steady s (writeLine L ln s) := by
  unfold writeLine
  split
  · exact .refl s
  · exact .ite (stackWrite_steady ..) ((stackRead_steady ..).trans (stackWrite_steady ..))

theorem writeBack_steady (L : Nat) (ln : CLine) (s : State) : Steady s (writeBack L ln s) := by
  have hcheck := checkLine_steady 6 L ln s
  unfold writeBack
  split
  case h_1 h => rwa [h] at hcheck
  case h_2 h =>
    rw [h] at hcheck
    exact (hcheck.trans (putLine_steady ..)).trans (writeLine_steady ..)

theorem evict_steady (L : Nat) (ln : CLine) (s : State) : Steady s (evict L ln s) :=
  .trans (.ite (writeBack_steady ..) (.refl s)) (dropLine_steady ..)

theorem takeWay_steady (L : Nat) (s : State) : Steady s (takeWay L s).1 := by
  have hfree : Steady s { s with free := s.free + 1 } := .of_eq rfl rfl rfl
  unfold takeWay
  dsimp only
  split
  · exact hfree
  · split
    · exact hfree
    · exact hfree.trans (evict_steady ..)

theorem clearInjected_steady (L way : Nat) (s : State) : Steady s (clearInjected L way s) := .ite (.refl s) (.of_cache rfl)

theorem placeLine_steady (L : Nat) (ln : CLine) (s : State) : Steady s (placeLine L ln s) := (clearInjected_steady ..).trans (putLine_steady ..)

theorem allocWrite_steady (L off : Nat) (bytes : List PB) (s : State) : Steady s (allocWrite L off bytes s) :=
  (takeWay_steady L s).trans (placeLine_steady ..)

theorem lineWriteAlloc_steady (L off : Nat) (bytes : List PB) (s : State) : Steady s (lineWriteAlloc L off bytes s) := by
  unfold lineWriteAlloc
  split
  · exact allocWrite_steady ..
  · exact placeLine_steady ..

theorem lineWriteThrough_steady (L off : Nat) (bytes : List PB) (s : State) : Steady s (lineWriteThrough L off bytes s) := by
  unfold lineWriteThrough
  split
  · exact .refl s
  · split
    · have hback := fun ln => (placeLine_steady L ln s).trans (writeBack_steady L { ln with dirty := true } _)
      exact .ite (hback _) ((hback _).trans (dropLine_steady ..))
    · exact .ite (stackWrite_steady ..) ((stackRead_steady ..).trans (stackWrite_steady ..))

theorem lineWrite_steady (L off : Nat) (bytes : List PB) (s : State) : Steady s (lineWrite L off bytes s) :=
  .ite (lineWriteThrough_steady ..) (lineWriteAlloc_steady ..)

theorem cmoLine_steady (op L : Nat) (ln : CLine) (t : State × CmoCount) : Steady t.1 (cmoLine op L ln t).1 := by
  unfold cmoLine
  split
  · split
    · exact writeBack_steady ..
    · exact .refl t.1
  · split
    · split
      · exact (writeBack_steady ..).trans (dropLine_steady ..)
      · exact dropLine_steady ..
    · exact dropLine_steady ..

theorem cmoWhere_steady (op : Nat) (q : Nat → Bool) (s : State) : Steady s (cmoWhere op q s).1 :=
  .foldl_fst (fun (t : State × CmoCount) (e : Nat × CLine) => cmoLine_steady op e.1 e.2 t) _ (s, {})

end Sys2Proof.Machine
end

section
/-!
PROOF. The frame of the integrity rows, carried through what follows from an error: sessions that lose pages or records (08 R230, 12 R337),
cores that halt (05 R138 to R140), and units that are mapped out (12 R333).
-/

namespace Sys2Proof.Machine

/-! ### Packets (11 R283, R294) -/

theorem takeCredits_steady (vc need : Nat) (ports : List Nat) (s : State) : Steady s (takeCredits vc need ports s) := by
  refine .foldl (fun t p => ?_) ports s
  exact .of_eq rfl rfl rfl

theorem choosePort_steady (k : Packet) (s : State) : Steady s (choosePort k s).1 := by
  unfold choosePort
  split
  · exact .refl s
  · dsimp only
    split
    · exact takeCredits_steady ..
    · exact (takeCredits_steady ..).trans (.of_eq rfl rfl rfl)

theorem route_steady {k : Packet} {s t : State} (h : route k s = some t) : Steady s t := by
  have hport := choosePort_steady k s
  unfold route at h
  split at h
  · split at h
    case h_1 hc =>
      rw [hc] at hport
      cases h
      exact hport.trans (.of_eq rfl rfl rfl)
    case h_2 => cases h
  · cases h

theorem sendPacket_steady (k : Packet) (s : State) : Steady s (sendPacket k s) := by
  unfold sendPacket
  split
  · exact .of_eq rfl rfl rfl
  · cases h : route k s with
    | none => exact .refl s
    | some t => exact route_steady h

theorem sendTo_steady (vc : Nat) (what : String) (dst : Nat) (args : List Nat) (data : List Byte) (poison : List Nat) (s : State) :
    Steady s (sendTo vc what dst args data poison s) :=
  .foldl (fun t k => sendPacket_steady k t) _ s

/-! ### Completion entries (09 R242 to R244) -/

theorem sessPlaced_steady (p : Post) (s : State) : Steady s (sessPlaced p s) := .ite (.of_eq rfl rfl rfl) (.ite (.of_eq rfl rfl rfl) (.refl s))

theorem ringSignal_steady (r : Nat) (s : State) : Steady s (ringSignal r s) :=
  .after (msix_reported ..).steady rfl rfl rfl

theorem placeEntry_steady (r : Nat) (p : Post) (s : State) : Steady s (placeEntry r p s) := by
  unfold placeEntry
  dsimp only
  have hwritten : ∀ x a b, Steady s
      (sessPlaced p (emit (.completion r a b) { modRing r x s with hostMem := spWrite (modRing r x s).hostMem a b })) :=
    fun _ _ _ => .after (sessPlaced_steady ..) rfl rfl rfl
  exact .ite ((hwritten _ _ _).trans (ringSignal_steady ..)) (hwritten _ _ _)

theorem ringPost_steady (r : Nat) (p : Post) (s : State) : Steady s (ringPost r p s) :=
  .ite (placeEntry_steady ..) (.ite (.of_eq rfl rfl rfl) (sessPlaced_steady ..))

theorem submitPost_steady (n : Nat) (p : Post) (s : State) : Steady s (submitPost n p s) := .ite (.of_eq rfl rfl rfl) (ringPost_steady ..)

theorem postSess_steady (n : Nat) (p : Post) (s : State) : Steady s (postSess n p s) := .after (submitPost_steady ..) rfl rfl rfl

theorem endWith_steady (n : Nat) (p : Post) (s : State) : Steady s (endWith n p s) :=
  .ite (.refl s) (.after (postSess_steady ..) rfl rfl rfl)

theorem endReq_steady (n : Nat) (code : Code) (reason : Nat) (retry : Bool) (s : State) : Steady s (endReq n code reason retry s) :=
  endWith_steady ..

/-! ### Sessions that lose pages (08 R210, R230) -/

theorem ownWrite_steady (p va : Nat) (bytes : List Byte) (s : State) : Steady s (ownWrite p va bytes s) := by
  refine .foldl_fst (fun t sp => ?_) _ (s, bytes)
  dsimp only
  split
  · exact .refl t.1
  · exact lineWrite_steady ..

theorem syncDir_steady (p n : Nat) (old : Sess) (s : State) : Steady s (syncDir p n old s) := by
  unfold syncDir
  dsimp only
  split
  · exact .refl s
  · split
    · exact .refl s
    · exact (ownWrite_steady ..).trans (.foldl (fun t e => .ite (.refl t) (ownWrite_steady ..)) _ _)

theorem modSessDir_steady (p n : Nat) (f : Sess → Sess) (s : State) : Steady s (modSessDir p n f s) :=
  .after (syncDir_steady ..) rfl rfl rfl

theorem releasePages_steady (p : Nat) (pages : List Nat) (s : State) : Steady s (releasePages p pages s) :=
  .trans (.of_cache (x := { s.cache with lines := s.cache.lines.filter (fun e => !mem (e.1 / 0x400) pages) }) rfl) (.of_eq rfl rfl rfl)

theorem cutPages_steady (p n i : Nat) (s : State) : Steady s (cutPages p n i s) := by
  unfold cutPages
  split
  · exact .refl s
  · exact (releasePages_steady ..).trans (modSessDir_steady ..)

theorem logShort_steady (n : Nat) (s : State) : Steady s (logShort n s) := .after (endReq_steady ..) rfl rfl rfl

theorem loseFrom_steady (ev : Events) (p n i : Nat) (s : State) : Steady s (loseFrom ev p n i s) := by
  have hcut := cutPages_steady p n (i / max 1 (getPart s p).params.run * max 1 (getPart s p).params.run) s
  unfold loseFrom
  dsimp only
  refine .trans (hcut.trans ?_) (post_reported ..).steady
  split
  · exact .ite (.of_eq rfl rfl rfl) (.refl _)
  · exact .ite (.refl _) (.ite (logShort_steady ..) (.of_eq rfl rfl rfl))
  · exact endWith_steady ..
  · exact endWith_steady ..
  · exact .refl _

theorem loseSessions_steady (p : Nat) (s : State) : Steady s (loseSessions p s) := by
  refine .foldl (fun t n => .ite (.refl t) ?_) _ s
  split
  · exact loseFrom_steady ..
  · exact .refl t

/-! ### Records in the reserve (12 R337) -/

theorem rewriteReserve_steady (q : Nat → Bool) (s : State) : Steady s (rewriteReserve q s) := .foldl (fun _ _ => stackWrite_steady ..) _ s

theorem healRecords_steady (n : Nat) (s : State) : Steady s (healRecords n s) := by
  refine .trans (.ite (.refl s) ?_) (rewriteReserve_steady ..)
  split
  · exact sendTo_steady ..
  · exact .refl s

theorem checkRecord_steady (s : State) (n : Nat) : Steady s (checkRecord s n) := by
  unfold checkRecord
  split
  · refine .trans ?_ (post_reported ..).steady
    exact .after (endReq_steady ..) rfl rfl rfl
  · exact healRecords_steady ..

theorem checkRecords_steady (s : State) : Steady s (checkRecords s) := .ite (.refl s) (.foldl checkRecord_steady _ s)

/-! ### Cores that halt (05 R127, R138 to R140) -/

theorem haltCore_steady (n : Nat) (r : HaltRec) (s : State) : Steady s (haltCore n r s) := by
  refine .ite (.refl s) ?_
  unfold writeHalt
  dsimp only
  split
  · exact .of_eq rfl rfl rfl
  · exact .of_eq rfl rfl rfl

theorem incr_steady (n i amt : Nat) (ovr : HaltRec) (s : State) : Steady s (incr n i amt ovr s) :=
  .ite (.refl s) (.ite (.after (haltCore_steady ..) rfl rfl rfl) (.of_eq rfl rfl rfl))

theorem raiseReady_steady (e : ScuEnt) (s : State) : Steady s (raiseReady e s) := by
  unfold raiseReady
  split
  · exact .refl s
  · exact incr_steady ..

theorem scuHalt_steady (e : ScuEnt) (chan : Nat) (code : Code) (s : State) : Steady s (scuHalt e chan code s) := haltCore_steady ..

/-! ### Units that are mapped out (12 R333, R334) -/

theorem retireCheck_steady (s : State) : Steady s (retireCheck s) := by
  unfold retireCheck
  split
  · exact .after (post_reported ..).steady rfl rfl rfl
  · exact .refl s

theorem unitChanged_steady (s : State) : Steady s (unitChanged s) :=
  (retireCheck_steady s).trans (.ite (.refl _) (.of_eq rfl rfl rfl))

theorem opDone_steady (o : LongOp) (code : Code) (detail : BitVec 256) (s : State) : Steady s (opDone o code detail s) :=
  .after (postRec_reported ..).steady rfl rfl rfl

theorem endMapout_steady (kind n : Nat) (s : State) : Steady s (endMapout kind n s) := .foldl (fun _ _ => opDone_steady ..) _ s

/-- What a unit's leaving says of it, after the change itself. -/
theorem toldOut_steady (kind n : Nat) (s : State) : Steady s (endMapout kind n (unitChanged (post 0x2221 kind n s))) :=
  ((post_reported ..).steady.trans (unitChanged_steady ..)).trans (endMapout_steady ..)

theorem coreOut_steady (n : Nat) (s : State) : Steady s (coreOut n s) := by
  refine .trans ?_ (toldOut_steady ..)
  exact ⟨fun _ => rfl, fun _ => rfl, fun _ h => h, rfl⟩

theorem sliceOut_steady (n : Nat) (s : State) : Steady s (sliceOut n s) := by
  refine .trans (cmoWhere_steady 1 (fun L => mem n (sliceSet s (L / 0x8000))) s) (.trans ?_ (toldOut_steady ..))
  exact ⟨fun _ => rfl, fun _ => rfl, fun _ h => h, rfl⟩

theorem settleFree_steady (s : State) : Steady s (settleFree s) :=
  .trans (.foldl (fun t n => coreOut_steady n t) _ s) (.foldl (fun t n => sliceOut_steady n t) _ _)

theorem willPend_steady (kind n : Nat) (s : State) : Steady s (willPend kind n s) := by
  refine .of_cfg fun c hc => ?_
  split
  · exact mem_addOnce_of_mem hc
  · exact hc
  · exact hc

theorem noSpare_steady (kind n : Nat) (r : ErrRec) (s : State) : Steady s (noSpare kind n r s) := by
  have hrec := fun r => (willPend_steady kind n s).trans (recordErr_reported r _).steady
  exact .ite ((hrec _).trans (.foldl (fun _ _ => (partEvent_reported ..).steady) _ _)) (hrec _)

theorem disableWay_steady (n st w : Nat) (r : ErrRec) (s : State) : Steady s (disableWay n st w r s) := by
  have hoff : ∀ t off, Steady s t → Steady s { t with cache := { t.cache with waysOff := off } } := fun _ _ h => h.trans (.of_cache rfl)
  unfold disableWay
  cases heldIn s n st w with
  | none =>
    have h := fun off => hoff s off (.refl s)
    exact .ite ((h _).trans (noSpare_steady ..)) ((h _).trans (recordErr_reported ..).steady)
  | some e =>
    have h := fun off => hoff _ off (evict_steady e.1 e.2 s)
    exact .ite ((h _).trans (noSpare_steady ..)) ((h _).trans (recordErr_reported ..).steady)

end Sys2Proof.Machine
end

section
/-!
PROOF. 12_check_bits_scrub_and_repair.md: scrubbing, write-backs and tests (R327 to R333), weight repair (R339), the zero fill of KV pages (03
R81), the failure of a channel (03 R84) and the bridge (01 R17).
-/

namespace Sys2Proof.Machine

section
variable {s : State} {c : Nat}

/-! ### Scrub and write-back (R327) -/

/-- PATROL_SCRUB of a channel that answers: its next line is read, and poison that it finds is followed up. -/
theorem patrolScrub_of_live (hlive : chanLive s c = true) :
    patrolScrub c s =
      let i := (getChan s c).scrubPos
      let r := stackRead 2 c (64 * i) (modChan c (fun x => { x with scrubPos := (i + 1) % chanLines }) s)
      if pbPoison r.2 then poisonFound c (64 * i) r.1 else r.1 :=
  if_neg (by simp [hlive])

/-- CORRECTIVE_WRITE_BACK of a line that can be corrected: it is written corrected. -/
theorem correctiveWriteBack_corrected {off : Nat} {rest : List Nat} {es : List (Nat × Nat)} (hlive : chanLive s c = true)
    (hq : (getChan s c).wbQ = off :: rest) (hdec : lineDecode (rawChk s c off) = .corrected es) :
    correctiveWriteBack c s = stackWrite c off (pbOf false (applyFix (rawLine s c off) es)) s := by
  simp [correctiveWriteBack, hq, hlive, hdec]

/-- Any other line only leaves the queue. -/
theorem correctiveWriteBack_dropped {off : Nat} {rest : List Nat} (hlive : chanLive s c = true) (hq : (getChan s c).wbQ = off :: rest)
    (hdec : ∀ fs, lineDecode (rawChk s c off) ≠ .corrected fs) :
    correctiveWriteBack c s = modChan c (fun x => { x with wbQ := rest }) s := by
  cases h : lineDecode (rawChk s c off) with
  | corrected fs => exact absurd h (hdec fs)
  | _ => simp [correctiveWriteBack, hq, hlive, h]

/-! ### The failure of a channel (03 R84, 04 R113) -/

theorem pendChannel_pends (code : Code) : mem c (pendChannel c code s).cfg.pendChannels = true := by
  unfold pendChannel
  split
  · assumption
  · exact (tellMapout_reported ..).steady.pending c (mem_addOnce_self c _)

/-- What the SCU held is gone first; the halts that follow leave its queue empty. -/
theorem loseScu_steady (c : Nat) (s : State) : Steady (modChan c (fun x => { x with queue := [], refPauses := 0 }) s) (loseScu c s) :=
  .foldl (fun _ _ => (raiseReady_steady ..).trans (scuHalt_steady ..)) _ _

theorem loseScu_queue (c : Nat) (s : State) : (getChan (loseScu c s) c).queue = [] := by
  rw [(loseScu_steady c s).queue, getChan_modChan_same]

/-- CHANNEL_FAILURE marks the channel, and what follows for partitions, sessions and records is steady. -/
theorem channelFailure_of_live (hlive : chanLive s c = true) :
    ∃ t, channelFailure c s = checkRecords (pendChannel c 0x2220 t)
      ∧ Steady (modChan c (fun x => { x with failed := true, wbQ := [], testQ := [] }) (loseScu c s)) t := by
  refine ⟨_, if_neg (by simp [hlive]), .trans (.foldl (fun t p => ?_) _ _) (.foldl (fun t p => loseSessions_steady p t) _ _)⟩
  exact .of_eq rfl rfl rfl

/-- A failed channel reads as failed, its SCU holds nothing, and its map-out is pending. -/
theorem channelFailure_fails (hlive : chanLive s c = true) :
    (getChan (channelFailure c s) c).failed = true ∧ (getChan (channelFailure c s) c).queue = []
      ∧ mem c (channelFailure c s).cfg.pendChannels = true := by
  obtain ⟨t, hu, ht⟩ := channelFailure_of_live hlive
  have hend := (pendChannel_steady c 0x2220 t).trans (checkRecords_steady _)
  have hall := ht.trans hend
  rw [hu]
  refine ⟨?_, ?_, (checkRecords_steady _).pending c (pendChannel_pends _)⟩
  · rw [hall.failed, getChan_modChan_same]
  · rw [hall.queue, getChan_modChan_same]
    exact loseScu_queue c s

/-! ### Tests of slices and of Points lanes (R328, R330, 13 R344) -/

/-- BACKGROUND_TEST moves on to the slice's next set, whatever it finds in this one. -/
theorem backgroundTest_testPos {n : Nat} (bad : List Nat) (hon : unitOn s s.units.slice n = true) :
    spGet 0 (backgroundTest n bad s).cache.testPos n = (spGet 0 s.cache.testPos n + 1) % 2048 := by
  obtain ⟨t, hu, ht⟩ : ∃ t, backgroundTest n bad s = settleFree t
      ∧ Steady { s with cache := { s.cache with testPos := spSet 0 s.cache.testPos n ((spGet 0 s.cache.testPos n + 1) % 2048) } } t :=
    ⟨_, if_neg (by simp [hon]), .trans (.foldl (fun t (e : Nat × CLine) => checkLine_steady 3 e.1 e.2 t) _ _)
      (.foldl (fun t w => disableWay_steady ..) _ _)⟩
  rw [hu, (ht.trans (settleFree_steady t)).testPos, spGet_spSet_same]

/-- The test of a Points lane while the domains are on. -/
theorem targetedTest_lane {n : Nat} {fails : Bool} (hon : s.boot.domainsOff = false) :
    targetedTest 3 n fails s = settleFree (if fails then laneFault n s else smallError 7 n s) := by
  simp [targetedTest, testSram, hon]

/-- A lane that was working fails: the first one is disabled, with the second the device has failed. -/
theorem laneFault_of_working {n : Nat} (hlane : mem n s.units.pointsOff = false) :
    laneFault n s =
      let t := recordErr { code := 0x2220, kind := 7, foundBy := 4, cls := 2, unit := n } s
      if s.units.pointsOff = [] then { t with units := { t.units with pointsOff := [n] } } else failDevice t := by
  simp [laneFault, hlane]

/-! ### Weight pages (R339) -/

section
variable {p g : Nat} {rest : List Nat}

/-- A weight page without a mirror: its reload is asked for. -/
theorem weightRepair_unmirrored (hrep : (getPart s p).repair = g :: rest) (hk : (getPart s p).kernel = none) (hstep : (getPart s p).step = none)
    (hup : s.sb.restarting = false) (hmir : s.mem.mirrors.find? (fun e => e.1 == g) = none) :
    weightRepair p s = askReload p g (modPart p (fun x => { x with repair := rest }) s) := by
  simp [weightRepair, hrep, hk, hstep, hup, hmir]

/-- A weight page with a mirror: copied from it, unless some line of both is poisoned. -/
theorem weightRepair_mirrored {e : Nat × Nat} (hrep : (getPart s p).repair = g :: rest) (hk : (getPart s p).kernel = none)
    (hstep : (getPart s p).step = none) (hup : s.sb.restarting = false) (hmir : s.mem.mirrors.find? (fun e => e.1 == g) = some e) :
    weightRepair p s =
      let u := readyRepair g e.2 (modPart p (fun x => { x with repair := rest }) s)
      if bothSick u g e.2 then askReload p g u else recordErr (weightRec p g 0x0223 7) (copyMirror e.2 g u) := by
  simp [weightRepair, hrep, hk, hstep, hup, hmir]

end

/-! ### KV pages and the bridge (03 R81, 01 R17) -/

theorem freeKvPage_of_waiting {p page : Nat} (hwaits : mem page (getPart s p).kvFill = true) :
    freeKvPage p page s = modPart p (fun pt => { pt with kvFill := pt.kvFill.filter (· != page) })
      (fillWhere (fun d => decide (d / 0x10000 = page)) s) :=
  if_pos hwaits

theorem bridgeLaneFault_eq {h : Nat} (hon : s.boot.domainsOff = false) :
    bridgeLaneFault h s = if spGet 0 s.units.bridgeSpares h < Config.bridgeSpares then
      { s with units := { s.units with bridgeSpares := spMod 0 s.units.bridgeSpares h (· + 1) } } else failDevice s := by
  simp [bridgeLaneFault, hon]

/-! ### The rows -/

theorem exec_targetedTest_lane {n : Nat} {fails : Bool} (hn : n < 16) (hon : s.boot.domainsOff = false) :
    exec (.targetedTest 3 n fails) s = .next (settleFree (if fails then laneFault n s else smallError 7 n s)) := by
  calc exec (.targetedTest 3 n fails) s
      = onUnit "kind of test" 3 8 (onUnit "unit" n 16 (.next (targetedTest 3 n fails s))) := rfl
    _ = .next (targetedTest 3 n fails s) := by rw [onUnit_of_lt (by decide), onUnit_of_lt hn]
    _ = .next (settleFree (if fails then laneFault n s else smallError 7 n s)) := by rw [targetedTest_lane hon]

end

/-- Settles O58: one lemma per row; the failure of a channel and the test of a slice by the frame of the integrity rows. -/
theorem repairRowsComplete : Obligations.RepairRowsComplete := by
  unfold Obligations.RepairRowsComplete
  refine fun s => ⟨fun c hlive hc => ⟨?_, fun off rest es hq hdec => ?_, fun off rest hq hdec => ?_, ?_⟩, fun n bad hn hon => ?_,
    fun n hn hon hlane => ⟨?_, ?_⟩,
    fun p g rest hp hrep hk hstep hup => ⟨fun hmir => ?_, fun e hmir => ⟨fun hsick => ?_, fun hsound => ?_⟩⟩,
    fun p page hp hwaits => ?_, fun h hh hon => ⟨fun hspare => ?_, fun hnone => ?_⟩⟩
  · exact (onUnit_of_lt hc).trans (congrArg _ (patrolScrub_of_live hlive))
  · exact (onUnit_of_lt hc).trans (congrArg _ (correctiveWriteBack_corrected hlive hq hdec))
  · exact (onUnit_of_lt hc).trans (congrArg _ (correctiveWriteBack_dropped hlive hq hdec))
  · exact ⟨_, onUnit_of_lt hc, channelFailure_fails hlive⟩
  · exact ⟨_, onUnit_of_lt hn, backgroundTest_testPos bad hon⟩
  · exact (exec_targetedTest_lane hn hon).trans (by rw [if_pos rfl, laneFault_of_working hlane])
  · exact exec_targetedTest_lane hn hon
  · exact (onPart_of_lt hp).trans (congrArg _ (weightRepair_unmirrored hrep hk hstep hup hmir))
  · exact (onPart_of_lt hp).trans (congrArg _ ((weightRepair_mirrored hrep hk hstep hup hmir).trans (if_pos hsick)))
  · exact (onPart_of_lt hp).trans (congrArg _ ((weightRepair_mirrored hrep hk hstep hup hmir).trans (if_neg (by simpa using hsound))))
  · exact (onUnit_of_lt hp).trans (congrArg _ (freeKvPage_of_waiting hwaits))
  · exact (onUnit_of_lt hh).trans (congrArg _ ((bridgeLaneFault_eq hon).trans (if_pos hspare)))
  · exact (onUnit_of_lt hh).trans (congrArg _ ((bridgeLaneFault_eq hon).trans (if_neg (Nat.not_lt.mpr hnone))))

end Sys2Proof.Machine
end

section
/-!
PROOF. What every step keeps: the canonical form of stack memory (03 R60, log entry 11), and with it what stands for the whole life of the
part (`Standing`: 15 R391, 14 R372, 12 R324). Bytes and check bits of stack memory change in five places only: `putRaw`, `fillWhere`,
`relay`, `keptMem` and `startMem`, whose lemmas are in Laws/Memory.lean. `Kept s₀ s` unfolds to the fields it speaks of, so that a change of
other fields keeps it by definition; every operation that branches, loops or calls another gets one lemma, built as the operation is.
-/

namespace Sys2Proof.Machine

/-! ### The relation -/

/-- From s₀ to s the form of stack memory is kept, and so is what stands. -/
def Kept (s₀ s : State) : Prop :=
  (Memory.wf s₀.mem = true → spWf 0 s.mem.bytes = true ∧ spWf 0 s.mem.chk = true)
  ∧ (prioLegal s₀.cfg.policy = true → prioLegal s.cfg.policy = true) ∧ (s₀.cfg.chkMode < 3 → s.cfg.chkMode < 3) ∧ s.fuse = s₀.fuse

/-- The state of a computation that may stop at a fault. -/
def Res.state {α : Type} : Res α → State
  | .ok s _ => s
  | .err s _ _ => s

/-- The state after a fetch from s₀. -/
def Fetched.state (s₀ : State) : Fetched → State
  | .none => s₀
  | .fault s _ => s
  | .word s _ => s

/-- The state of a handler's reply in s₀. -/
def Reply.state (s₀ : State) : Reply → State
  | .ok s _ => s
  | .no _ => s₀
  | .cut s _ => s
  | .op s _ _ => s

/-- The state that a command leaves, s₀ where it faults. -/
def stateOf (s₀ : State) : Host.Outcome State Fault Refusal → State
  | .next s => s
  | _ => s₀

def KeptRes {α : Type} (s₀ : State) (x : Res α) : Prop := Kept s₀ x.state

def KeptFetch (s₀ : State) (x : Fetched) : Prop := Kept s₀ (x.state s₀)

def KeptReply (s₀ : State) (r : Reply) : Prop := Kept s₀ (r.state s₀)

def KeptOut (s₀ : State) (x : Host.Outcome State Fault Refusal) : Prop := Kept s₀ (stateOf s₀ x)

section
variable {s₀ s t : State} {α β : Type} {c : Prop} [Decidable c]

theorem Kept.refl (s : State) : Kept s s := ⟨(memory_wf_iff s.mem).mp, id, id, rfl⟩

/-- A change of stack memory. -/
theorem Kept.of_wf (hm : Memory.wf s.mem = true → Memory.wf t.mem = true) (h : Kept s₀ s) (hpolicy : t.cfg.policy = s.cfg.policy)
    (hmode : t.cfg.chkMode = s.cfg.chkMode) (hfuse : t.fuse = s.fuse) : Kept s₀ t := by
  obtain ⟨hwf, hrest⟩ := h
  rw [Kept, hpolicy, hmode, hfuse]
  exact ⟨fun h0 => (memory_wf_iff _).mp (hm ((memory_wf_iff _).mpr (hwf h0))), hrest⟩

theorem Kept.form (h : Kept s₀ s) (h0 : Memory.wf s₀.mem = true) : Memory.wf s.mem = true := (memory_wf_iff _).mpr (h.1 h0)

theorem Kept.standing {F : Fuses} (h : Kept s₀ s) (h0 : Standing F s₀) : Standing F s := by
  obtain ⟨_, hprio, hmode, hstay⟩ := h
  obtain ⟨hp, hm, hf⟩ := h0
  exact ⟨hprio hp, hmode hm, hstay.trans hf⟩

theorem KeptRes.ok {a : α} (h : Kept s₀ s) : KeptRes s₀ (.ok s a) := h

theorem KeptRes.err {code : Code} {va : Nat} (h : Kept s₀ s) : KeptRes (α := α) s₀ (.err s code va) := h

theorem KeptReply.ok {l : List Byte} (h : Kept s₀ s) : KeptReply s₀ (.ok s l) := h

theorem KeptReply.no {code : Code} : KeptReply s₀ (.no code) := Kept.refl s₀

theorem KeptReply.cut {code : Code} (h : Kept s₀ s) : KeptReply s₀ (.cut s code) := h

theorem KeptReply.op {part : Option Nat} {l : List Byte} (h : Kept s₀ s) : KeptReply s₀ (.op s part l) := h

theorem KeptOut.next (h : Kept s₀ s) : KeptOut s₀ (.next s) := h

theorem Kept.ite (h : Kept s₀ s) (k : Kept s₀ t) : Kept s₀ (if c then s else t) := by
  split
  · exact h
  · exact k

theorem Kept.ite_fst {p q : State × α} (h : Kept s₀ p.1) (k : Kept s₀ q.1) : Kept s₀ (if c then p else q).1 := by
  split
  · exact h
  · exact k

theorem KeptRes.ite {x y : Res α} (h : KeptRes s₀ x) (k : KeptRes s₀ y) : KeptRes s₀ (if c then x else y) := by
  split
  · exact h
  · exact k

theorem KeptFetch.ite {x y : Fetched} (h : KeptFetch s₀ x) (k : KeptFetch s₀ y) : KeptFetch s₀ (if c then x else y) := by
  split
  · exact h
  · exact k

theorem KeptReply.ite {x y : Reply} (h : KeptReply s₀ x) (k : KeptReply s₀ y) : KeptReply s₀ (if c then x else y) := by
  split
  · exact h
  · exact k

theorem KeptOut.ite {x y : Host.Outcome State Fault Refusal} (h : KeptOut s₀ x) (k : KeptOut s₀ y) : KeptOut s₀ (if c then x else y) := by
  split
  · exact h
  · exact k

theorem Kept.foldl {f : State → α → State} {l : List α} (hf : ∀ t x, Kept s₀ t → Kept s₀ (f t x)) (h : Kept s₀ s) :
    Kept s₀ (l.foldl f s) := by
  induction l generalizing s with
  | nil => exact h
  | cons x l ih => exact ih (hf s x h)

/-- The same where a result is carried along. -/
theorem Kept.foldl_fst {f : State × β → α → State × β} {l : List α} {a : State × β} (hf : ∀ a x, Kept s₀ a.1 → Kept s₀ (f a x).1)
    (h : Kept s₀ a.1) : Kept s₀ (l.foldl f a).1 := by
  induction l generalizing a with
  | nil => exact h
  | cons x l ih => exact ih (hf a x h)

/-- The state that a result is matched against. -/
theorem Kept.of {p q : State × α} (e : p = q) (h : Kept s₀ p.1) : Kept s₀ q.1 := e ▸ h

theorem KeptRes.of {x y : Res α} (e : x = y) (h : KeptRes s₀ x) : KeptRes s₀ y := e ▸ h

theorem KeptFetch.of {x y : Fetched} (e : x = y) (h : KeptFetch s₀ x) : KeptFetch s₀ y := e ▸ h

theorem KeptReply.of {x y : Reply} (e : x = y) (h : KeptReply s₀ x) : KeptReply s₀ y := e ▸ h

end

variable {s₀ s : State}

/-! ## Machine/Flags.lean -/

theorem emit_kept {o} (h : Kept s₀ s) : Kept s₀ (emit o s) := h

/-! ### Functions of the host interface -/

theorem modFn_kept {f g} (h : Kept s₀ s) : Kept s₀ (modFn f g s) := h

theorem msix_kept {f v} (h : Kept s₀ s) : Kept s₀ (msix f v s) := .ite (modFn_kept h) (emit_kept h)

theorem hiSet_kept {f b} (h : Kept s₀ s) : Kept s₀ (hiSet f b s) := .ite (msix_kept (modFn_kept h)) (modFn_kept h)

theorem pevtSet_kept {p} (h : Kept s₀ s) : Kept s₀ (pevtSet p s) := .ite h (hiSet_kept h)

theorem thSet_kept {b} (h : Kept s₀ s) : Kept s₀ (thSet b s) := .ite h (hiSet_kept h)

theorem jnSet_kept {b} (h : Kept s₀ s) : Kept s₀ (jnSet b s) := .ite h (hiSet_kept h)

theorem hostErr_kept {f write bar code addr} (h : Kept s₀ s) : Kept s₀ (hostErr f write bar code addr s) := hiSet_kept (modFn_kept h)

theorem rsvWrite_kept {f} (h : Kept s₀ s) : Kept s₀ (rsvWrite f s) := hiSet_kept h

/-! ### Masters: flags and event queues -/

theorem modBox_kept {m g} (h : Kept s₀ s) : Kept s₀ (modBox m g s) := .ite h (.ite h h)

theorem notify_kept {m b} (h : Kept s₀ s) : Kept s₀ (notify m b s) := .ite (msix_kept h) (.ite (emit_kept h) (.ite (emit_kept h) h))

theorem sbSet_kept {m b} (h : Kept s₀ s) : Kept s₀ (sbSet m b s) := .ite (modBox_kept h) (notify_kept (modBox_kept h))

theorem enqueue_kept {m ev} (h : Kept s₀ s) : Kept s₀ (enqueue m ev s) := by
  unfold enqueue
  extract_lets _ _ _ _ s3
  have h1 : Kept s₀ s3 := .ite (emit_kept (.ite (sbSet_kept (modBox_kept h)) (modBox_kept h)))
    (.ite (sbSet_kept (modBox_kept h)) (modBox_kept h))
  exact sbSet_kept h1

theorem postRec_kept {ev also} (h : Kept s₀ s) : Kept s₀ (postRec ev also s) := .foldl (fun _ _ h1 => .ite (enqueue_kept h1) h1) h

theorem post_kept {code kind unit} (h : Kept s₀ s) : Kept s₀ (post code kind unit s) := postRec_kept h

theorem postD_kept {code kind unit detail} (h : Kept s₀ s) : Kept s₀ (postD code kind unit detail s) := postRec_kept h

theorem partEvent_kept {p code} (h : Kept s₀ s) : Kept s₀ (partEvent p code s) := post_kept (pevtSet_kept h)

theorem opDone_kept {o code detail} (h : Kept s₀ s) : Kept s₀ (opDone o code detail s) := postRec_kept h

/-! ### Error records (12 R332) -/

theorem recordErr_kept {r} (h : Kept s₀ s) : Kept s₀ (recordErr r s) := by
  refine postD_kept (hiSet_kept ?_)
  obtain ⟨hform, hprio, hmode, hfuse⟩ := h
  exact ⟨hform, hprio, hmode, hfuse⟩

theorem goDegraded_kept (h : Kept s₀ s) : Kept s₀ (goDegraded s) := .ite h (.foldl (fun _ _ => sbSet_kept) (post_kept h))

theorem unwrittenRead_kept {kind n by_} (h : Kept s₀ s) : Kept s₀ (unwrittenRead kind n by_ s) := goDegraded_kept (recordErr_kept h)

/-! ## Machine/Ops.lean -/

/-! ### The parts of the state -/

theorem modChan_kept {c g} (h : Kept s₀ s) : Kept s₀ (modChan c g s) := h

theorem modCore_kept {c g} (h : Kept s₀ s) : Kept s₀ (modCore c g s) := h

theorem modPart_kept {p g} (h : Kept s₀ s) : Kept s₀ (modPart p g s) := h

theorem modTen_kept {t g} (h : Kept s₀ s) : Kept s₀ (modTen t g s) := h

theorem modRing_kept {r g} (h : Kept s₀ s) : Kept s₀ (modRing r g s) := h

theorem modSess_kept {n g} (h : Kept s₀ s) : Kept s₀ (modSess n g s) := h

/-! ### Where a DPA lies (03 R60 to R68) -/

theorem setOwner_kept {page o} (h : Kept s₀ s) : Kept s₀ (setOwner page o s) := h

/-! ### Map-out (12 R333, R334; 03 R83) -/

theorem retireCheck_kept (h : Kept s₀ s) : Kept s₀ (retireCheck s) := .ite (post_kept h) h

theorem pendChannel_kept {c code} (h : Kept s₀ s) : Kept s₀ (pendChannel c code s) :=
  .ite h (.foldl (fun _ _ => partEvent_kept) (post_kept h))

/-! ### Errors of a channel (12 R327 to R332) -/

theorem dramError_kept {code by_ action corr unc mis delta chan off} (h : Kept s₀ s) :
    Kept s₀ (dramError code by_ action corr unc mis delta chan off s) :=
  .ite (recordErr_kept h) (.ite (pendChannel_kept (modChan_kept (recordErr_kept h))) (modChan_kept (recordErr_kept h)))

theorem noteWeightPage_kept {page} (h : Kept s₀ s) : Kept s₀ (noteWeightPage page s) := by
  unfold noteWeightPage
  split
  · exact h
  · exact .ite (modPart_kept h) h

theorem noteWeight_kept {chan off} (h : Kept s₀ s) : Kept s₀ (noteWeight chan off s) := by
  unfold noteWeight
  split
  · exact h
  · exact noteWeightPage_kept h

/-! ### Lines of stack memory (03 R70, 12 R317 to R327) -/

theorem putRaw_kept {chan off data d} (h : Kept s₀ s) : Kept s₀ (putRaw chan off data d s) :=
  .of_wf (putRaw_keeps_wf chan off data d s) h rfl rfl rfl

theorem stackWrite_kept {chan off l} (h : Kept s₀ s) : Kept s₀ (stackWrite chan off l s) :=
  .ite (modChan_kept (putRaw_kept h)) (putRaw_kept h)

theorem stackRead_kept {by_ chan off} (h : Kept s₀ s) : Kept s₀ (stackRead by_ chan off s).1 := by
  unfold stackRead
  dsimp only
  refine .ite_fst h ?_
  split
  · exact h
  · exact h
  · exact modChan_kept (dramError_kept h)
  · exact dramError_kept h
  · exact putRaw_kept (noteWeight_kept (dramError_kept h))

/-! ### The owning slice (03 R71) -/

theorem putLine_kept {L ln} (h : Kept s₀ s) : Kept s₀ (putLine L ln s) := h

theorem dropLine_kept {L} (h : Kept s₀ s) : Kept s₀ (dropLine L s) := h

/-! ### Errors of a slice -/

theorem sliceError_kept {kind code by_ action corr unc L way byte delta} (h : Kept s₀ s) :
    Kept s₀ (sliceError kind code by_ action corr unc L way byte delta s) :=
  .ite (recordErr_kept h) (.ite (.ite (recordErr_kept h) (post_kept (recordErr_kept h))) (recordErr_kept h))

theorem checkTags_kept {by_ L ln} (h : Kept s₀ s) : Kept s₀ (checkTags by_ L ln s).1 :=
  .ite_fst h (.ite_fst (putLine_kept (sliceError_kept h))
    (.ite_fst (noteWeightPage_kept (putLine_kept (sliceError_kept h))) (dropLine_kept (sliceError_kept h))))

theorem recordFindings_kept {by_ L ln drop} (h : Kept s₀ s) : Kept s₀ (recordFindings by_ L ln drop s) := by
  unfold recordFindings
  refine .foldl (fun _ _ h1 => ?_) h
  split
  · exact sliceError_kept h1
  · exact .ite (sliceError_kept h1) (sliceError_kept h1)
  · exact h1

theorem checkData_kept {by_ L ln} (h : Kept s₀ s) : Kept s₀ (checkData by_ L ln s).1 :=
  .ite_fst h (.ite_fst (dropLine_kept (recordFindings_kept h))
    (.ite (noteWeightPage_kept (putLine_kept (recordFindings_kept h))) (putLine_kept (recordFindings_kept h))))

theorem checkLine_kept {by_ L ln} (h : Kept s₀ s) : Kept s₀ (checkLine by_ L ln s).1 := by
  unfold checkLine
  split
  · next e1 => exact Kept.of e1 (checkTags_kept h)
  · next e1 => exact checkData_kept (Kept.of e1 (checkTags_kept h))

/-! ### Write-back, allocation and eviction (03 R70 to R73) -/

theorem writeLine_kept {L ln} (h : Kept s₀ s) : Kept s₀ (writeLine L ln s) := by
  unfold writeLine
  dsimp only
  split
  · exact h
  · exact .ite (stackWrite_kept h) (stackWrite_kept (stackRead_kept h))

theorem writeBack_kept {L ln} (h : Kept s₀ s) : Kept s₀ (writeBack L ln s) := by
  unfold writeBack
  split
  · next e1 => exact Kept.of e1 (checkLine_kept h)
  · next e1 => exact writeLine_kept (putLine_kept (Kept.of e1 (checkLine_kept h)))

theorem evict_kept {L ln} (h : Kept s₀ s) : Kept s₀ (evict L ln s) := dropLine_kept (.ite (writeBack_kept h) h)

theorem takeWay_kept {L} (h : Kept s₀ s) : Kept s₀ (takeWay L s).1 := by
  unfold takeWay
  dsimp only
  refine .ite_fst h ?_
  split
  · exact h
  · exact evict_kept h

theorem placeLine_kept {L ln} (h : Kept s₀ s) : Kept s₀ (placeLine L ln s) := putLine_kept (.ite h h)

theorem fillLine_kept {by_ L ln} (h : Kept s₀ s) : Kept s₀ (fillLine by_ L ln s).1 := by
  unfold fillLine
  dsimp only
  refine .ite_fst h ?_
  split
  · exact h
  · exact placeLine_kept (stackRead_kept h)

theorem missRead_kept {by_ L} (h : Kept s₀ s) : Kept s₀ (missRead by_ L s).1 := by
  unfold missRead
  dsimp only
  split
  · exact h
  · exact .ite_fst (stackRead_kept h) (placeLine_kept (takeWay_kept (stackRead_kept h)))

theorem lineRead_kept {by_ L} (h : Kept s₀ s) : Kept s₀ (lineRead by_ L s).1 := by
  unfold lineRead
  dsimp only
  split
  · exact missRead_kept h
  · split
    · next e1 => exact missRead_kept (Kept.of e1 (checkLine_kept h))
    · next e1 => exact fillLine_kept (Kept.of e1 (checkLine_kept h))

theorem lineWriteAlloc_kept {L off bytes} (h : Kept s₀ s) : Kept s₀ (lineWriteAlloc L off bytes s) := by
  unfold lineWriteAlloc
  dsimp only
  split
  · exact placeLine_kept (takeWay_kept h)
  · exact placeLine_kept h

theorem lineWriteThrough_kept {L off bytes} (h : Kept s₀ s) : Kept s₀ (lineWriteThrough L off bytes s) := by
  unfold lineWriteThrough
  dsimp only
  split
  · exact h
  · split
    · exact .ite (writeBack_kept (placeLine_kept h)) (dropLine_kept (writeBack_kept (placeLine_kept h)))
    · exact .ite (stackWrite_kept h) (stackWrite_kept (stackRead_kept h))

theorem lineWrite_kept {L off bytes} (h : Kept s₀ s) : Kept s₀ (lineWrite L off bytes s) :=
  .ite (lineWriteThrough_kept h) (lineWriteAlloc_kept h)

/-! ### Runs of bytes -/

theorem dpaRead_kept {by_ dpa n} (h : Kept s₀ s) : Kept s₀ (dpaRead by_ dpa n s).1 := .foldl_fst (fun _ _ => lineRead_kept) h

theorem dpaWriteBy_kept {w dpa bytes} (hw : ∀ L off l t, Kept s₀ t → Kept s₀ (w L off l t)) (h : Kept s₀ s) :
    Kept s₀ (dpaWriteBy w dpa bytes s) := .foldl_fst (fun _ _ h1 => hw _ _ _ _ h1) h

theorem dpaHostWrite_kept {dpa bytes} (h : Kept s₀ s) : Kept s₀ (dpaHostWrite dpa bytes s) :=
  dpaWriteBy_kept (fun _ _ _ _ => lineWriteAlloc_kept) h

/-! ### Cache maintenance (03 R75) -/

theorem cmoLine_kept {op L ln t} (h : Kept s₀ t.1) : Kept s₀ (cmoLine op L ln t).1 :=
  .ite_fst (.ite_fst (writeBack_kept h) h) (.ite_fst (.ite_fst (dropLine_kept (writeBack_kept h)) (dropLine_kept h)) (dropLine_kept h))

theorem cmoWhere_kept {op q} (h : Kept s₀ s) : Kept s₀ (cmoWhere op q s).1 := .foldl_fst (fun _ _ => cmoLine_kept) h

/-! ### Fills (03 R64, R462, 12 R322) -/

theorem fillWhere_kept {q} (h : Kept s₀ s) : Kept s₀ (fillWhere q s) := .of_wf (fillWhere_keeps_wf q s) h rfl rfl rfl

theorem fillPage_kept {page} (h : Kept s₀ s) : Kept s₀ (fillPage page s) := fillWhere_kept h

theorem fillRow_kept {f} (h : Kept s₀ s) : Kept s₀ (fillRow f s) := fillWhere_kept h

/-! ## Machine/Store.lean -/

theorem andThen_kept {α β : Type} {x : Res α} {f : State → α → Res β} (h : KeptRes s₀ x) (hf : ∀ t a, Kept s₀ t → KeptRes s₀ (f t a)) :
    KeptRes s₀ (andThen x f) := by
  cases x with
  | ok t a => exact hf t a h
  | err t code va => exact h

theorem resFold_kept {α β : Type} {f : State → β → α → Res β} {l : List α} {b : β} (hf : ∀ t b x, Kept s₀ t → KeptRes s₀ (f t b x))
    (h : Kept s₀ s) : KeptRes s₀ (resFold f l b s) := by
  induction l generalizing b s with
  | nil => exact h
  | cons x l ih => exact andThen_kept (hf s b x h) (fun t b h1 => ih h1)

/-! ### Page tables (07 R194) -/

theorem vaRead_kept {p va n} (h : Kept s₀ s) : KeptRes s₀ (vaRead p va n s) := by
  unfold vaRead
  dsimp only
  refine resFold_kept (fun _ _ _ h1 => ?_) h
  split
  · exact .err h1
  · exact .ok (lineRead_kept h1)

theorem vaWrite_kept {p va bytes} (h : Kept s₀ s) : KeptRes s₀ (vaWrite p va bytes s) := by
  unfold vaWrite
  refine andThen_kept ?_ (fun _ _ h1 => .ok h1)
  refine resFold_kept (fun _ _ _ h1 => ?_) h
  split
  · exact .err h1
  · exact .ok (lineWrite_kept h1)

/-! ### Errors of a core -/

theorem pendCore_kept {n code} (h : Kept s₀ s) : Kept s₀ (pendCore n code s) := .ite h (post_kept h)

theorem coreError_kept {code by_ m action corr unc n a delta} (h : Kept s₀ s) :
    Kept s₀ (coreError code by_ m action corr unc n a delta s) := by
  unfold coreError
  dsimp only
  exact .ite (recordErr_kept h) (.ite (pendCore_kept (modCore_kept (recordErr_kept h))) (modCore_kept (recordErr_kept h)))

theorem sramErrors_kept {by_ k n m hits} (h : Kept s₀ s) : Kept s₀ (sramErrors by_ k n m hits s) := by
  unfold sramErrors
  refine .foldl (fun _ _ h1 => ?_) h
  split
  · exact coreError_kept h1
  · exact coreError_kept h1
  · exact h1

/-! ### The core store -/

theorem storeRead_kept {n a len} (h : Kept s₀ s) : Kept s₀ (storeRead n a len s).1 := .ite_fst h (modCore_kept (sramErrors_kept h))

theorem storeWrite_kept {n a l} (h : Kept s₀ s) : Kept s₀ (storeWrite n a l s) := modCore_kept h

/-! ### The control core's own memories -/

theorem codeRead_kept {n a len} (h : Kept s₀ s) : Kept s₀ (codeRead n a len s).1 := .ite_fst h (modCore_kept (sramErrors_kept h))

theorem tmplRead_kept {n k} (h : Kept s₀ s) : Kept s₀ (tmplRead n k s).1 := .ite_fst h (modCore_kept (sramErrors_kept h))

/-! ## Machine/Operands.lean -/

/-! ### An operand before the command starts -/

theorem loadLoop_kept {n a} (h : Kept s₀ s) : Kept s₀ (loadLoop n a s).1 := by
  unfold loadLoop
  dsimp only
  refine .ite_fst h ?_
  split
  · exact h
  · split
    · exact storeRead_kept h
    · exact storeRead_kept h

theorem loadDesc_kept {n a} (h : Kept s₀ s) : Kept s₀ (loadDesc n a s).1 := by
  unfold loadDesc
  dsimp only
  split
  · exact h
  · exact storeRead_kept h

theorem loadDescs_kept {n rs} (h : Kept s₀ s) : Kept s₀ (loadDescs n rs s).1 := by
  unfold loadDescs
  refine .foldl_fst (fun _ _ h1 => ?_) h
  dsimp only
  exact loadDesc_kept h1

/-! ### Reading and writing units -/

theorem readPiece_kept {n p pl x} (h : Kept s₀ s) : KeptRes s₀ (readPiece n p pl x s) := by
  unfold readPiece
  dsimp only
  split
  · split
    · exact .ok (storeRead_kept h)
    · exact .ok (storeRead_kept h)
    · exact .ite (.err h) (vaRead_kept h)
  · refine andThen_kept ?_ (fun _ _ h1 => .ok h1)
    split
    · exact .ok (storeRead_kept h)
    · exact .ok (storeRead_kept h)
    · exact .ite (.err h) (vaRead_kept h)

theorem readPoint_kept {n p o x} (h : Kept s₀ s) : KeptRes s₀ (readPoint n p o x s) :=
  .ite (.ok h) (resFold_kept (fun _ _ _ h1 => andThen_kept (readPiece_kept h1) (fun _ _ h2 => .ok h2)) h)

theorem writePiece_kept {n p pl x l} (h : Kept s₀ s) : KeptRes s₀ (writePiece n p pl x l s) := by
  unfold writePiece
  refine .ite (.ok h) ?_
  split
  · exact .ok (storeWrite_kept h)
  · exact .ok (storeWrite_kept h)
  · exact .ite (.err h) (vaWrite_kept h)

theorem writePoint_kept {n p o x l} (h : Kept s₀ s) : KeptRes s₀ (writePoint n p o x l s) :=
  .ite (.ok h) (andThen_kept (resFold_kept (fun _ _ _ h1 => andThen_kept (writePiece_kept h1) (fun _ _ h2 => .ok h2)) h)
    (fun _ _ h1 => .ok h1))

theorem freeBytes_kept {n} (h : Kept s₀ s) : Kept s₀ (freeBytes n s).1 := h

theorem maybeFree_kept {undef l} (h : Kept s₀ s) : Kept s₀ (maybeFree undef l s).1 := .ite_fst (freeBytes_kept h) h

/-! ## Machine/Kernel.lean -/

/-! ### Halts (05 R138 to R140) -/

theorem writeHalt_kept {n r} (h : Kept s₀ s) : Kept s₀ (writeHalt n r s) := by
  unfold writeHalt
  dsimp only
  split
  · exact modCore_kept h
  · exact modPart_kept (modCore_kept h)

theorem haltCore_kept {n r} (h : Kept s₀ s) : Kept s₀ (haltCore n r s) := .ite h (writeHalt_kept h)

theorem haltQueue_kept {n q e code partially va} (h : Kept s₀ s) : Kept s₀ (haltQueue n q e code partially va s) := haltCore_kept h

theorem haltCtrl_kept {n code} (h : Kept s₀ s) : Kept s₀ (haltCtrl n code s) := haltCore_kept h

/-! ### Counters (05 R123 to R127) -/

theorem incr_kept {n i amt ovr} (h : Kept s₀ s) : Kept s₀ (incr n i amt ovr s) :=
  .ite h (.ite (haltCore_kept (modCore_kept h)) (modCore_kept h))

theorem incrRemote_kept {n lc i amt} (h : Kept s₀ s) : Kept s₀ (incrRemote n lc i amt s) := by
  unfold incrRemote
  split
  · exact h
  · exact incr_kept h

theorem incrField_kept {n q e en remote i lc} (h : Kept s₀ s) : Kept s₀ (incrField n q e en remote i lc s) :=
  .ite h (.ite (incrRemote_kept h) (incr_kept h))

/-! ### Completion (05 R120, R121) -/

theorem complete_kept {n q e d} (h : Kept s₀ s) : Kept s₀ (complete n q e d s) := incrField_kept (incrField_kept (modCore_kept h))

/-! ### The frame of an engine command -/

theorem runEngine_kept {n q opc body} (hb : ∀ e t, Kept s₀ t → KeptRes s₀ (body e t)) (h : Kept s₀ s) :
    Kept s₀ (runEngine n q opc body s) := by
  unfold runEngine
  split
  · exact h
  · split
    · next e1 => exact complete_kept (KeptRes.of e1 (hb _ s h))
    · next e1 => exact haltQueue_kept (KeptRes.of e1 (hb _ s h))
    · next e1 => exact haltQueue_kept (KeptRes.of e1 (hb _ s h))

theorem orReject_kept {codes k} (h : Kept s₀ s) (hk : ∀ t, Kept s₀ t → KeptRes s₀ (k t)) : KeptRes s₀ (orReject codes s k) := by
  unfold orReject
  split
  · exact h
  · exact hk s h

/-! ### Launch (06 R165, R175; 05 R119, R121, R123) -/

theorem launchKernel_kept {p img args diag stopN stopCore} (h : Kept s₀ s) : Kept s₀ (launchKernel p img args diag stopN stopCore s) :=
  .foldl (fun _ _ => modCore_kept) (modPart_kept h)

/-! ## Machine/Blocks.lean -/

theorem loadLoops_kept {n as_} (h : Kept s₀ s) : Kept s₀ (loadLoops n as_ s).1 := .foldl_fst (fun _ _ => loadLoop_kept) h

/-! ## Machine/Ctl.lean -/

theorem onUnit_kept {what n bound k} (h : KeptOut s₀ k) : KeptOut s₀ (onUnit what n bound k) := .ite h (Kept.refl s₀)

theorem onCore_kept {n} (h : Kept s₀ s) : KeptOut s₀ (onCore n s) := onUnit_kept (.next h)

/-! ### Fetch (06 R165, R169) -/

theorem fetchInsn_kept {n} (h : Kept s₀ s) : KeptFetch s₀ (fetchInsn n s) :=
  .ite (Kept.refl s₀) (.ite h (.ite (codeRead_kept h) (codeRead_kept h)))

theorem runInsn_kept {n sel bad eff} (he : ∀ w t, Kept s₀ t → Kept s₀ (eff w t)) (h : Kept s₀ s) : Kept s₀ (runInsn n sel bad eff s) := by
  unfold runInsn
  split
  · exact h
  · next e1 => exact haltCtrl_kept (KeptFetch.of e1 (fetchInsn_kept h))
  · next e1 =>
    have h1 : Kept s₀ _ := KeptFetch.of e1 (fetchInsn_kept h)
    refine .ite ?_ h
    split
    · exact haltCtrl_kept h1
    · exact he _ _ h1

theorem setRd_kept {n i v} (h : Kept s₀ s) : Kept s₀ (setRd n i v s) := modCore_kept h

/-! ### Arithmetic (06 R166, R167) -/

theorem immEff_kept {n f w} (h : Kept s₀ s) : Kept s₀ (immEff n f w s) := setRd_kept h

/-! ### Loads and stores (06 R166, R169) -/

theorem loadRd_kept {n rd r} (h : Kept s₀ r.1) : Kept s₀ (loadRd n rd r) := .ite (haltCtrl_kept h) (setRd_kept h)

theorem execLdc_kept {n} (h : Kept s₀ s) : KeptOut s₀ (execLdc n s) :=
  onCore_kept (runInsn_kept (fun _ _ h1 => loadRd_kept (.ite_fst h1 (modCore_kept (sramErrors_kept h1)))) h)

theorem execStc_kept {n} (h : Kept s₀ s) : KeptOut s₀ (execStc n s) :=
  onCore_kept (runInsn_kept (fun _ _ h1 => modCore_kept (modCore_kept h1)) h)

theorem execLds_kept {n} (h : Kept s₀ s) : KeptOut s₀ (execLds n s) :=
  onCore_kept (runInsn_kept (fun _ _ h1 => loadRd_kept (storeRead_kept h1)) h)

theorem execSts_kept {n} (h : Kept s₀ s) : KeptOut s₀ (execSts n s) :=
  onCore_kept (runInsn_kept (fun _ _ h1 => modCore_kept (storeWrite_kept h1)) h)

/-! ### Branches and jumps -/

theorem branch_kept {k t n} (h : Kept s₀ s) : KeptOut s₀ (branch k t n s) := onCore_kept (runInsn_kept (fun _ _ => modCore_kept) h)

/-! ### The push register -/

theorem execTpl_kept {n} (h : Kept s₀ s) : KeptOut s₀ (execTpl n s) :=
  onCore_kept (runInsn_kept (fun _ _ h1 => .ite (haltCtrl_kept (tmplRead_kept h1)) (modCore_kept (tmplRead_kept h1))) h)

/-! ### Events of a core (05 R119, R125, R127, R139; 03 R80; 06 R179) -/

theorem execPushResumes_kept {n} (h : Kept s₀ s) : KeptOut s₀ (execPushResumes n s) := by
  unfold execPushResumes
  refine onCore_kept ?_
  split
  · exact .ite (modCore_kept h) h
  · exact h

theorem execWaitResumes_kept {n} (h : Kept s₀ s) : KeptOut s₀ (execWaitResumes n s) := by
  unfold execWaitResumes
  refine onCore_kept ?_
  split
  · exact .ite (modCore_kept h) h
  · exact h

theorem execBankStateEffect_kept {n} (h : Kept s₀ s) : KeptOut s₀ (execBankStateEffect n s) := by
  unfold execBankStateEffect
  dsimp only
  refine onCore_kept ?_
  split
  · exact h
  · exact .ite (modCore_kept h) h

theorem timeTo_kept {t} (h : Kept s₀ s) : Kept s₀ (timeTo t s) := h

theorem timeoutEff_kept {n u} (h : Kept s₀ s) : Kept s₀ (timeoutEff n u s) := by
  unfold timeoutEff
  dsimp only
  refine .ite ?_ ?_
  · split
    · exact h
    · exact .ite (haltQueue_kept (timeTo_kept h)) h
  · split
    · exact .ite (haltCtrl_kept (timeTo_kept h)) h
    · exact h

theorem execHaltNotice_kept {n} (h : Kept s₀ s) : KeptOut s₀ (execHaltNotice n s) := by
  unfold execHaltNotice
  refine onCore_kept ?_
  split
  · exact h
  · split
    · exact h
    · exact haltCore_kept h

/-! ## Machine/Vector.lean -/

/-! ### ELTWISE (R154) -/

theorem readIns_kept {n us i} (h : Kept s₀ s) : Kept s₀ (readIns n us i s).1 := .foldl_fst (fun _ _ => storeRead_kept) h

theorem writeOuts_kept {n undef zs outs} (h : Kept s₀ s) : Kept s₀ (writeOuts n undef zs outs s) :=
  .foldl (fun _ _ h1 => storeWrite_kept (maybeFree_kept h1)) h

theorem eltAll_kept {n e us zs} (h : Kept s₀ s) : Kept s₀ (eltAll n e us zs s).1 := by
  unfold eltAll
  refine .foldl_fst (fun _ _ h1 => ?_) h
  dsimp only
  exact .ite_fst (storeRead_kept (readIns_kept h1)) (readIns_kept h1)

theorem eltBody_kept {n q} (h : Kept s₀ s) : KeptRes s₀ (eltBody n q s) := by
  unfold eltBody
  dsimp only
  exact orReject_kept (loadLoops_kept h) (fun _ h1 => .ok (writeOuts_kept (eltAll_kept h1)))

/-! ### REDUCE (R155) -/

theorem readBlocksV_kept {n size as_} (h : Kept s₀ s) : Kept s₀ (redBody.readBlocksV n size as_ s).1 :=
  .foldl_fst (fun _ _ => storeRead_kept) h

theorem redBody_kept {n q} (h : Kept s₀ s) : KeptRes s₀ (redBody n q s) := by
  unfold redBody
  dsimp only
  exact orReject_kept (loadLoops_kept h) (fun _ h1 => .ok (writeOuts_kept (readBlocksV_kept (readBlocksV_kept h1))))

theorem readRec_kept {n kind L e po} (h : Kept s₀ s) : Kept s₀ (readRec n kind L e po s).1 := storeRead_kept h

theorem combBody_kept {n q} (h : Kept s₀ s) : KeptRes s₀ (combBody n q s) := by
  unfold combBody
  dsimp only
  refine orReject_kept (.ite_fst (storeRead_kept h) h) (fun _ h1 => .ok (writeOuts_kept ?_))
  refine .foldl_fst (fun _ _ h2 => ?_) h1
  dsimp only
  exact readRec_kept h2

/-! ## Machine/Move.lean -/

/-! ### One side of a command -/

theorem copyPoints_kept {n p undef src dst f} (h : Kept s₀ s) : KeptRes s₀ (copyPoints n p undef src dst f s) :=
  resFold_kept (fun _ _ _ h1 => andThen_kept (readPoint_kept h1)
    (fun _ _ h2 => andThen_kept (writePoint_kept (maybeFree_kept h2)) (fun _ _ h3 => .ok h3))) h

/-! ### MOVE (R158, R190 to R193) -/

theorem loadList_kept {n a k} (h : Kept s₀ s) : Kept s₀ (loadList n a k s).1 := by
  unfold loadList
  dsimp only
  refine .ite_fst h ?_
  split
  · exact h
  · exact storeRead_kept h

theorem moveBody_kept {n q} (h : Kept s₀ s) : KeptRes s₀ (moveBody n q s) := by
  unfold moveBody
  dsimp only
  refine orReject_kept ?_ (fun _ h1 => andThen_kept (copyPoints_kept h1) (fun _ _ h2 => h2))
  refine .ite_fst (loadList_kept ?_) ?_
  · exact loadDescs_kept (loadLoops_kept h)
  · exact loadDescs_kept (loadLoops_kept h)

theorem cmoBody_kept {n q} (h : Kept s₀ s) : KeptRes s₀ (cmoBody n q s) := orReject_kept h (fun _ h1 => .ok (cmoWhere_kept h1))

/-! ### ATOMIC (R161, 03 R77, 02 R58) -/

theorem dpaWrite_kept {dpa bytes} (h : Kept s₀ s) : Kept s₀ (dpaWrite dpa bytes s) :=
  dpaWriteBy_kept (fun _ _ _ _ => lineWrite_kept) h

theorem atomAt_kept {dpa aop dt v c} (h : Kept s₀ s) : Kept s₀ (atomAt dpa aop dt v c s).1 := dpaWrite_kept (dpaRead_kept h)

theorem atomPoint_kept {n p m ctl x va ca ra t acc} (h : Kept s₀ t) : KeptRes s₀ (atomPoint n p m ctl x va ca ra t acc) := by
  have h2 : Kept s₀ (if m.aop = 9 then storeRead n ca.toNat (atomBytes m.dt) (storeRead n va.toNat (atomBytes m.dt) t).1
      else ((storeRead n va.toNat (atomBytes m.dt) t).1, [])).1 := .ite_fst (storeRead_kept (storeRead_kept h)) (storeRead_kept h)
  unfold atomPoint
  dsimp only
  generalize (if m.aop = 9 then _ else _) = r at h2 ⊢
  split
  · exact h2
  · refine Kept.ite (storeWrite_kept ?_) ?_
    · exact .ite_fst (dpaRead_kept h2) (atomAt_kept h2)
    · exact .ite_fst (dpaRead_kept h2) (atomAt_kept h2)

theorem atomicBody_kept {n q} (h : Kept s₀ s) : KeptRes s₀ (atomicBody n q s) := by
  unfold atomicBody
  extract_lets x p m cas w ri own
  split
  next s1 rs e1 =>
    extract_lets target spaces
    split
    next s2 _ e2 =>
      extract_lets tgt pts shape stores align pinned
      have h2 : Kept s₀ s2 := .of e2 (loadDescs_kept (.of e1 (loadLoops_kept h)))
      refine orReject_kept h2 (fun _ h3 => andThen_kept (resFold_kept (fun _ _ _ h4 => ?_) h3) (fun _ _ h4 => h4))
      split
      · exact h4
      · exact atomPoint_kept h4

/-! ### The Turntable (R162) -/

theorem layoutBody_kept {n q} (h : Kept s₀ s) : KeptRes s₀ (layoutBody n q s) := by
  unfold layoutBody
  dsimp only
  refine orReject_kept (loadDescs_kept (loadLoops_kept h)) (fun _ h1 => ?_)
  exact andThen_kept (copyPoints_kept h1) (fun _ _ h2 => h2)

theorem expandBody_kept {n q} (h : Kept s₀ s) : KeptRes s₀ (expandBody n q s) := by
  unfold expandBody
  dsimp only
  refine orReject_kept (loadDescs_kept (loadLoops_kept h)) (fun _ h1 => ?_)
  exact andThen_kept (copyPoints_kept h1) (fun _ _ h2 => h2)

/-! ## Machine/Send.lean -/

/-! ### DISPATCH (06 R159; 04 R88, R89) -/

theorem loadRecs_kept {n a k} (h : Kept s₀ s) : Kept s₀ (loadRecs n a k s).1 := by
  induction k generalizing a s with
  | zero => exact h
  | succ k ih => exact ih (storeRead_kept h)

theorem acceptScu_kept {n q d} (h : Kept s₀ s) : Kept s₀ (acceptScu n q d s).1 :=
  modChan_kept (.foldl_fst (fun _ _ => storeRead_kept) h)

theorem sendAll_kept {n q l} (h : Kept s₀ s) : Kept s₀ (sendAll n q l s).1 := by
  induction l generalizing s with
  | nil => exact h
  | cons d l ih => exact .ite_fst h (ih (acceptScu_kept h))

theorem dispatchGo_kept {n e recs} (h : Kept s₀ s) : Kept s₀ (dispatchGo n e recs s) :=
  .ite (incrField_kept (modCore_kept (sendAll_kept h))) (modCore_kept (sendAll_kept h))

theorem execDispatch_kept {n} (h : Kept s₀ s) : KeptOut s₀ (execDispatch n s) := by
  unfold execDispatch
  dsimp only
  refine onCore_kept ?_
  split
  · exact h
  · split
    · exact haltQueue_kept (.ite_fst (loadRecs_kept h) h)
    · exact dispatchGo_kept (.ite_fst (loadRecs_kept h) h)

theorem execDispatchWait_kept {n} (h : Kept s₀ s) : KeptOut s₀ (execDispatchWait n s) := by
  unfold execDispatchWait
  dsimp only
  refine onCore_kept ?_
  split
  · exact h
  · exact .ite (dispatchGo_kept (loadRecs_kept h)) h

/-! ## Machine/Scu.lean -/

/-! ### A target's memory (R86, R90) -/

theorem sweep_kept {chan ps} (h : Kept s₀ s) : Kept s₀ (sweep chan ps s) := .foldl (fun _ _ => stackRead_kept) h

theorem scuWriteLine_kept {c o off mine} (h : Kept s₀ s) : Kept s₀ (scuWriteLine c o off mine s).1 :=
  .ite_fst (stackWrite_kept h) (stackWrite_kept (stackRead_kept h))

theorem scuWrite_kept {p va bytes} (h : Kept s₀ s) : Kept s₀ (scuWrite p va bytes s).1 := by
  have hall := List.foldlRecOn (lineSpans va bytes.length) (motive := fun t : (State × Bool) × List PB => Kept s₀ t.1.1)
  refine hall _ h (fun t ht sp _ => ?_)
  dsimp only
  split
  · exact ht
  · exact scuWriteLine_kept ht

/-! ### The status record (R94) -/

theorem writeStatus_kept {e chan state code tStart tEnd pauses d} (h : Kept s₀ s) :
    Kept s₀ (writeStatus e chan state code tStart tEnd pauses d s) :=
  .ite (scuWrite_kept h) h

/-! ### Ready bits and rejections (R88, R111) -/

theorem raiseReady_kept {e} (h : Kept s₀ s) : Kept s₀ (raiseReady e s) := by
  unfold raiseReady
  split
  · exact h
  · exact incr_kept h

theorem scuHalt_kept {e chan code} (h : Kept s₀ s) : Kept s₀ (scuHalt e chan code s) := haltQueue_kept h

theorem writeResults_kept {e bytes} (h : Kept s₀ s) : Kept s₀ (writeResults e bytes s).1 :=
  .ite (storeWrite_kept (scuWrite_kept h)) (scuWrite_kept h)

theorem runScu_kept {chan op check work} (hw : ∀ e t, Kept s₀ t → Kept s₀ (work e t).1) (h : Kept s₀ s) :
    Kept s₀ (runScu chan op check work s) := by
  unfold runScu
  split
  · exact h
  · refine .ite h ?_
    generalize lowest _ = r
    cases r with
    | none => exact raiseReady_kept (modChan_kept (writeStatus_kept (hw _ _ (writeStatus_kept h))))
    | some c => exact scuHalt_kept (raiseReady_kept (modChan_kept (writeStatus_kept h)))

/-! ### GEMV (R95, R96) -/

theorem onChan_kept {n} (h : Kept s₀ s) : KeptOut s₀ (onChan n s) := .ite (.next h) (Kept.refl s₀)

/-! ### CONVERT (R102) -/

theorem regionWrite_kept {e l i bytes t} (h : Kept s₀ t.1) : Kept s₀ (regionWrite e l i bytes t).1 := by
  unfold regionWrite
  dsimp only
  split
  · exact scuWrite_kept h
  · exact h

theorem kvHeadWrite_kept {e b h' H d T va po r} {s : State × Bool} (h : Kept s₀ s.1) :
    Kept s₀ (kvHeadWrite e b h' H d T va po r s).1 := by
  unfold kvHeadWrite
  dsimp only
  exact .foldl_fst (fun _ _ => scuWrite_kept) h

theorem convPages_kept {chan e} (h : Kept s₀ s) : Kept s₀ (convPages chan e s).1 := by
  unfold convPages
  dsimp only
  split
  · exact scuWrite_kept (freeBytes_kept (sweep_kept h))
  · refine List.foldlRecOn (motive := fun t : (State × Bool) × Events => Kept s₀ t.1.1) _ _ (sweep_kept h) (fun _ h1 _ _ => ?_)
    exact kvHeadWrite_kept h1

theorem convWork_kept {chan e} (h : Kept s₀ s) : Kept s₀ (convWork chan e s).1 :=
  .ite_fst (convPages_kept h) (regionWrite_kept (regionWrite_kept (sweep_kept h)))

/-! ### STATUS and FENCE (R104), REFRESH (R107) -/

theorem statusOnly_kept {chan op} (h : Kept s₀ s) : Kept s₀ (statusOnly chan op s) := by
  unfold statusOnly
  split
  · exact h
  · refine .ite h ?_
    split
    · exact scuHalt_kept (raiseReady_kept (modChan_kept h))
    · exact raiseReady_kept (modChan_kept (writeStatus_kept h))

theorem execRefresh_kept {chan} (h : Kept s₀ s) : KeptOut s₀ (execRefresh chan s) := by
  unfold execRefresh
  refine onChan_kept ?_
  split
  · exact h
  · exact modChan_kept h

/-! ## Machine/Rings.lean -/

/-! ### Completion entries (R242 to R244) -/

theorem ringSignal_kept {r} (h : Kept s₀ s) : Kept s₀ (ringSignal r s) := msix_kept (modRing_kept h)

theorem sessPlaced_kept {p} (h : Kept s₀ s) : Kept s₀ (sessPlaced p s) := .ite (modSess_kept h) (.ite (modSess_kept h) h)

theorem placeEntry_kept {r p} (h : Kept s₀ s) : Kept s₀ (placeEntry r p s) := by
  unfold placeEntry
  extract_lets x bytes a n s1 s2 s3
  have h3 : Kept s₀ s3 := sessPlaced_kept (p := p) (s := s2) h
  exact .ite (ringSignal_kept h3) h3

theorem ringPost_kept {r p} (h : Kept s₀ s) : Kept s₀ (ringPost r p s) :=
  .ite (placeEntry_kept h) (.ite (modRing_kept h) (sessPlaced_kept h))

theorem flushRing_kept {k r} (h : Kept s₀ s) : Kept s₀ (flushRing k r s) := by
  induction k generalizing s with
  | zero => exact h
  | succ k ih =>
    unfold flushRing
    dsimp only
    split
    · exact h
    · exact .ite (ih (placeEntry_kept h)) h

theorem dropBacklog_kept {r} (h : Kept s₀ s) : Kept s₀ (dropBacklog r s) := .foldl (fun _ _ => sessPlaced_kept) (modRing_kept h)

theorem postSess_kept {n p} (h : Kept s₀ s) : Kept s₀ (postSess n p s) :=
  .ite (modSess_kept (modSess_kept h)) (ringPost_kept (modSess_kept h))

theorem draftFails_kept {d} (h : Kept s₀ s) : Kept s₀ (draftFails d s) := by
  unfold draftFails
  split
  · exact h
  · exact .ite h (modSess_kept h)

theorem followTarget_kept {n d} (h : Kept s₀ s) : Kept s₀ (followTarget n d s) := .ite h (modSess_kept h)

theorem endWith_kept {n p} (h : Kept s₀ s) : Kept s₀ (endWith n p s) := .ite h (postSess_kept (modSess_kept h))

theorem endReqEv_kept {ev n code reason retry} (h : Kept s₀ s) : Kept s₀ (endReqEv ev n code reason retry s) := endWith_kept h

theorem endReq_kept {n code reason retry} (h : Kept s₀ s) : Kept s₀ (endReq n code reason retry s) := endReqEv_kept h

theorem retryReqEv_kept {ev n code} (h : Kept s₀ s) : Kept s₀ (retryReqEv ev n code s) := endReqEv_kept h

/-! ### Submission entries (R239 to R241) -/

theorem nextEntry_kept {r x} (h : Kept s₀ s) (e : nextEntry r s = some x) : Kept s₀ x.1 := by
  unfold nextEntry at e
  split at e
  · cases e
    exact dpaRead_kept h
  · cases e

theorem refuseEntry_kept {r v code} (h : Kept s₀ s) : Kept s₀ (refuseEntry r v code s) := ringPost_kept h

theorem turnInputs_kept {p v} (h : Kept s₀ s) : Kept s₀ (turnInputs p v s).1 := by
  unfold turnInputs
  dsimp only
  refine .ite_fst h ?_
  refine .ite_fst h ?_
  refine .ite_fst ?_ h
  split
  · next e1 => exact KeptRes.of e1 (vaRead_kept h)
  · next e1 => exact KeptRes.of e1 (vaRead_kept h)

theorem logShort_kept {n} (h : Kept s₀ s) : Kept s₀ (logShort n s) := endReq_kept (modSess_kept h)

theorem followDraft_kept {n} (h : Kept s₀ s) : Kept s₀ (followDraft n s) := by
  unfold followDraft
  split
  · exact followTarget_kept h
  · exact h

theorem turnEntry_kept {r v poison} (h : Kept s₀ s) : Kept s₀ (turnEntry r v poison s) := by
  unfold turnEntry
  extract_lets x n
  split
  · exact refuseEntry_kept h
  · split
    next s1 _ e1 =>
      have h1 : Kept s₀ s1 := .of e1 (turnInputs_kept h)
      dsimp only
      split
      · exact refuseEntry_kept h1
      · exact .ite (refuseEntry_kept h1) (.ite (refuseEntry_kept h1)
          (.ite (logShort_kept (modSess_kept h1)) (followDraft_kept (modSess_kept h1))))

theorem onRing_kept {r k} (h : KeptOut s₀ k) : KeptOut s₀ (onRing r k) := onUnit_kept h

theorem turnRow_kept {r} (h : Kept s₀ s) : Kept s₀ (turnRow r s) := by
  unfold turnRow
  split
  · exact h
  · next e1 => exact .ite h (turnEntry_kept (modRing_kept (nextEntry_kept h e1)))

theorem cancelEntry_kept {r v poison} (h : Kept s₀ s) : Kept s₀ (cancelEntry r v poison s) := by
  unfold cancelEntry
  dsimp only
  split
  · exact refuseEntry_kept h
  · exact .ite (ringPost_kept h) (.ite (modSess_kept h) (endReq_kept h))

theorem cancelRow_kept {r} (h : Kept s₀ s) : Kept s₀ (cancelRow r s) := by
  unfold cancelRow
  split
  · exact h
  · next e1 => exact .ite (cancelEntry_kept (modRing_kept (nextEntry_kept h e1))) h

/-! ### Doorbells (17 R434, R435) -/

theorem dbIgnore_kept {r} (h : Kept s₀ s) : Kept s₀ (dbIgnore r s) := modRing_kept h

theorem ringError_kept {r code} (h : Kept s₀ s) : Kept s₀ (ringError r code s) := post_kept (pevtSet_kept (modRing_kept h))

theorem takeProduced_kept {r v} (h : Kept s₀ s) : Kept s₀ (takeProduced r v s) :=
  .ite (.ite (modRing_kept h) (dbIgnore_kept h)) (.ite (dbIgnore_kept h) (ringError_kept h))

theorem takeConsumed_kept {r v} (h : Kept s₀ s) : Kept s₀ (takeConsumed r v s) :=
  .ite (flushRing_kept (modRing_kept h)) (.ite (dbIgnore_kept h) (ringError_kept h))

theorem doorbell_kept {completion fn r whole v hi} (h : Kept s₀ s) : Kept s₀ (doorbell completion fn r whole v hi s) := by
  unfold doorbell
  extract_lets x s1
  have h1 : Kept s₀ s1 := .ite h (rsvWrite_kept h)
  exact .ite h (.ite (dbIgnore_kept h1) (.ite (hostErr_kept (dbIgnore_kept h1))
    (.ite (dbIgnore_kept h1) (.ite (takeConsumed_kept h1) (takeProduced_kept h1)))))

theorem onFn_kept {fn k} (h : KeptOut s₀ k) : KeptOut s₀ (onFn fn k) := onUnit_kept h

/-! ## Machine/Kv.lean -/

/-! ### Directories (R210) -/

theorem ownWrite_kept {p va bytes} (h : Kept s₀ s) : Kept s₀ (ownWrite p va bytes s) := by
  unfold ownWrite
  refine .foldl_fst (fun _ _ h1 => ?_) h
  split
  · exact h1
  · exact lineWrite_kept h1

theorem syncDir_kept {p n old} (h : Kept s₀ s) : Kept s₀ (syncDir p n old s) := by
  unfold syncDir
  dsimp only
  split
  · exact h
  · exact .ite h (.foldl (fun _ _ h1 => .ite h1 (ownWrite_kept h1)) (ownWrite_kept h))

theorem modSessDir_kept {p n f} (h : Kept s₀ s) : Kept s₀ (modSessDir p n f s) := syncDir_kept (modSess_kept h)

theorem placeDir_kept {p n} (h : Kept s₀ s) : Kept s₀ (placeDir p n s) := by
  unfold placeDir
  dsimp only
  split
  · exact ownWrite_kept (modSess_kept h)
  · exact h

/-! ### Release and loss (R213, R227, R230) -/

theorem freeKvPage_kept {p page} (h : Kept s₀ s) : Kept s₀ (freeKvPage p page s) := .ite (modPart_kept (fillWhere_kept h)) h

theorem cutPages_kept {p n i} (h : Kept s₀ s) : Kept s₀ (cutPages p n i s) := by
  unfold cutPages
  split
  · exact h
  · exact modSessDir_kept (modPart_kept h)

theorem dropAllPages_kept {p n} (h : Kept s₀ s) : Kept s₀ (dropAllPages p n s) := modSess_kept (cutPages_kept h)

theorem loseFrom_kept {ev p n i} (h : Kept s₀ s) : Kept s₀ (loseFrom ev p n i s) := by
  refine post_kept ?_
  have h1 := cutPages_kept (p := p) (n := n) (i := i / max 1 (getPart s p).params.run * max 1 (getPart s p).params.run) h
  split
  · exact .ite h1 h1
  · exact .ite h1 (.ite (logShort_kept h1) h1)
  · exact retryReqEv_kept h1
  · exact retryReqEv_kept h1
  · exact h1

theorem loseSessionsEv_kept {ev p} (h : Kept s₀ s) : Kept s₀ (loseSessionsEv ev p s) := by
  unfold loseSessionsEv
  refine .foldl (fun _ _ h1 => ?_) h
  refine .ite h1 ?_
  split
  · exact loseFrom_kept h1
  · exact h1

/-! ### The Siding (R225 to R227) -/

theorem dropOne_kept {g p n} (h : Kept s₀ s) : Kept s₀ (dropOne g p n s) :=
  .foldl (fun _ _ => freeKvPage_kept) (modSess_kept (cutPages_kept h))

theorem dropRun_kept {p cur x} (h : Kept s₀ s) (e : dropRun p cur s = some x) : Kept s₀ x.1 := by
  unfold dropRun at e
  dsimp only at e
  split at e
  · cases e
    exact dropOne_kept h
  · cases e

theorem dropTo_kept {p high k cur} (h : Kept s₀ s) : Kept s₀ (dropTo p high k cur s) := by
  induction k generalizing cur s with
  | zero => exact h
  | succ k ih =>
    refine .ite h ?_
    split
    · exact h
    · next e1 => exact ih (dropRun_kept h e1)

theorem growDrop_kept {g p n need k cur} (h : Kept s₀ s) : Kept s₀ (growDrop g p n need k cur s).1 := by
  induction k generalizing cur s with
  | zero =>
    unfold growDrop
    dsimp only
    split
    · exact modSessDir_kept h
    · exact h
  | succ k ih =>
    unfold growDrop
    dsimp only
    split
    · exact modSessDir_kept h
    · refine .ite_fst ?_ h
      split
      · exact h
      · next e1 => exact ih (dropRun_kept h e1)

theorem allocFor_kept {p n endPos} (h : Kept s₀ s) : Kept s₀ (allocFor p n endPos s).1 := by
  unfold allocFor
  extract_lets pt
  split
  · exact h
  · extract_lets x need
    split
    next s1 _ e1 =>
      have h1 : Kept s₀ s1 := .of e1 (growDrop_kept (modSess_kept h))
      exact h1
    next s1 _ e1 =>
      have h1 : Kept s₀ s1 := .of e1 (growDrop_kept (modSess_kept h))
      exact .ite (dropTo_kept h1) h1

/-! ## Machine/Link.lean -/

theorem modPort_kept {p f} (h : Kept s₀ s) : Kept s₀ (modPort p f s) := h

/-! ### Codewords (R282, R284) -/

theorem sendLink_kept {p what data} (h : Kept s₀ s) : Kept s₀ (sendLink p what data s) := emit_kept (modPort_kept h)

/-! ### Ports and credits (R283, R294) -/

theorem takeCredits_kept {vc need ports} (h : Kept s₀ s) : Kept s₀ (takeCredits vc need ports s) := .foldl (fun _ _ h1 => modPort_kept h1) h

theorem choosePort_kept {k} (h : Kept s₀ s) : Kept s₀ (choosePort k s).1 := by
  unfold choosePort
  dsimp only
  refine .ite_fst h ?_
  split
  · exact takeCredits_kept h
  · exact modPort_kept (takeCredits_kept h)

theorem route_kept {k t} (h : Kept s₀ s) (e : route k s = some t) : Kept s₀ t := by
  unfold route at e
  split at e
  · split at e
    · next e1 =>
      cases e
      exact .of e1 (choosePort_kept h)
    · cases e
  · cases e

/-! ### This device's own packets -/

theorem sendPacket_kept {k} (h : Kept s₀ s) : Kept s₀ (sendPacket k s) := by
  refine .ite h ?_
  cases hr : route k s with
  | none => exact h
  | some t => exact route_kept h hr

theorem sendTo_kept {vc what dst args data poison} (h : Kept s₀ s) : Kept s₀ (sendTo vc what dst args data poison s) :=
  .foldl (fun _ _ => sendPacket_kept) h

theorem sendNotice_kept {what dst args} (h : Kept s₀ s) : Kept s₀ (sendNotice what dst args s) := sendTo_kept h

/-! ## Machine/Records.lean -/

/-! ### Reading and rewriting the reserve -/

theorem rewriteReserve_kept {q} (h : Kept s₀ s) : Kept s₀ (rewriteReserve q s) := .foldl (fun _ _ => stackWrite_kept) h

theorem healRecords_kept {n} (h : Kept s₀ s) : Kept s₀ (healRecords n s) := by
  unfold healRecords
  extract_lets _ s1
  have h1 : Kept s₀ s1 := by
    refine .ite h ?_
    split
    · exact sendTo_kept h
    · exact h
  exact rewriteReserve_kept h1

theorem checkRecord_kept {n} (h : Kept s₀ s) : Kept s₀ (checkRecord s n) :=
  .ite (post_kept (endReq_kept (modSess_kept h))) (healRecords_kept h)

theorem checkRecords_kept (h : Kept s₀ s) : Kept s₀ (checkRecords s) := .ite h (.foldl (fun _ _ => checkRecord_kept) h)

/-! ### The Dispatcher's working state -/

theorem readForStep_kept {p} (h : Kept s₀ s) : Kept s₀ (readForStep p s) :=
  .ite h (checkRecords_kept (.foldl (fun _ _ => stackRead_kept) h))

/-! ## Machine/Report.lean -/

theorem rewriteReport_kept (h : Kept s₀ s) : Kept s₀ (rewriteReport s) := .ite h h

theorem unitChanged_kept (h : Kept s₀ s) : Kept s₀ (unitChanged s) := rewriteReport_kept (retireCheck_kept h)

/-! ## Machine/Coll.lean -/

/-! ### Groups (R299, R300) -/

theorem modGroup_kept {g f} (h : Kept s₀ s) : Kept s₀ (modGroup g f s) := h

theorem dropGroup_kept {g} (h : Kept s₀ s) : Kept s₀ (dropGroup g s) := h

/-! ### The watched peers (R291, R300) -/

theorem syncPeers_kept (h : Kept s₀ s) : Kept s₀ (syncPeers s) := h

/-! ### The collective area (R301) -/

theorem writeCtl_kept {p} (h : Kept s₀ s) : Kept s₀ (writeCtl p s) := ownWrite_kept (ownWrite_kept h)

theorem modReq_kept {p q f} (h : Kept s₀ s) : Kept s₀ (modReq p q f s) := modPart_kept h

theorem retireColl_kept {p r record} (h : Kept s₀ s) : Kept s₀ (retireColl p r record s) := writeCtl_kept (modPart_kept (ownWrite_kept h))

/-! ### Failure (R305, R310) -/

theorem collBytes_kept {r N} (h : Kept s₀ s) : Kept s₀ (collBytes r N s).1 := .ite_fst h (.ite_fst (.ite_fst h h) h)

theorem collFail_kept {p r code} (h : Kept s₀ s) : Kept s₀ (collFail p r code s) := by
  unfold collFail
  dsimp only
  split
  · exact retireColl_kept (collBytes_kept h)
  · exact haltCore_kept (retireColl_kept (collBytes_kept h))

theorem failReq_kept {p q code} (h : Kept s₀ s) : Kept s₀ (failReq p q code s) := by
  unfold failReq
  split
  · exact h
  · exact collFail_kept h

theorem failGroup_kept {g code} (h : Kept s₀ s) : Kept s₀ (failGroup g code s) := by
  unfold failGroup
  split
  · exact h
  · exact .foldl (fun _ _ => collFail_kept) h

/-! ### The checks of a request (R302) -/

theorem readInput_kept {p va n} (h : Kept s₀ s) : Kept s₀ (readInput p va n s).1 := by
  unfold readInput
  dsimp only
  split
  · next e1 => exact KeptRes.of e1 (vaRead_kept h)
  · next e1 => exact KeptRes.of e1 (vaRead_kept h)

theorem portEvent_kept {code p detail} (h : Kept s₀ s) : Kept s₀ (portEvent code p detail s) :=
  rewriteReport_kept (jnSet_kept (postD_kept h))

/-! ### Packets between members (R283, R303, 10 R277) -/

theorem sendColl_kept {p q j c} (h : Kept s₀ s) : Kept s₀ (sendColl p q j c s) := by
  unfold sendColl
  dsimp only
  split
  · exact h
  · exact .ite (collFail_kept h) (.foldl (fun _ _ => sendPacket_kept) (modReq_kept h))

theorem sendEach_kept {p q ranks c} (h : Kept s₀ s) : Kept s₀ (sendEach p q ranks c s) := .foldl (fun _ _ => sendColl_kept) h

theorem collWrite_kept {p va l} (h : Kept s₀ s) : Kept s₀ (collWrite p va l s) := by
  unfold collWrite
  split
  · next e1 => exact KeptRes.of e1 (vaWrite_kept h)
  · next e1 => exact KeptRes.of e1 (vaWrite_kept h)

theorem putOut_kept {p q va l} (h : Kept s₀ s) : Kept s₀ (putOut p q va l s) := modReq_kept (collWrite_kept h)

/-! ### Copies (R306): ALL_GATHER, ALL_TO_ALL, BROADCAST -/

theorem startCopy_kept {p q} (h : Kept s₀ s) : Kept s₀ (startCopy p q s) := by
  unfold startCopy
  split
  · exact h
  · extract_lets x N block pkt s1
    have h1 : Kept s₀ s1 := .ite h (putOut_kept h)
    clear_value s1
    split
    · exact sendEach_kept h1
    · exact .foldl (fun _ _ => sendColl_kept) h1
    · exact .ite (.foldl (fun _ _ => sendEach_kept) h1) h1
    · exact h

theorem takeData_kept {p q c} (h : Kept s₀ s) : Kept s₀ (takeData p q c s) := by
  unfold takeData
  split
  · exact h
  · extract_lets x N s1
    have h1 : Kept s₀ s1 := putOut_kept (modReq_kept h)
    exact .ite h (.ite (.ite h1 (sendColl_kept h1)) (.ite (sendEach_kept h1) h1))

/-! ### Reductions (R307, R308) -/

theorem keepNode_kept {p q c j a v} (h : Kept s₀ s) : Kept s₀ (keepNode p q c j a v s) := modReq_kept h

theorem putFinal_kept {p q c v} (h : Kept s₀ s) : Kept s₀ (putFinal p q c v s) := by
  unfold putFinal
  dsimp only
  split
  · exact h
  · split
    · exact h
    · exact putOut_kept (modReq_kept h)

theorem rootResult_kept {p q c v} (h : Kept s₀ s) : Kept s₀ (rootResult p q c v s) := by
  unfold rootResult
  dsimp only
  split
  · exact h
  · split
    · exact h
    · exact sendEach_kept (.ite (putFinal_kept h) h)

theorem passUp_kept {p q c k j a v} (h : Kept s₀ s) : Kept s₀ (passUp p q c k j a v s) := by
  induction k generalizing j a v s with
  | zero => exact rootResult_kept h
  | succ k ih =>
    unfold passUp
    split
    · exact h
    · refine .ite (sendColl_kept h) (.ite (ih (keepNode_kept h)) ?_)
      split
      · exact ih (keepNode_kept h)
      · exact keepNode_kept h

theorem ringStep_kept {p q c acc} (h : Kept s₀ s) : Kept s₀ (ringStep p q c acc s) := by
  unfold ringStep
  dsimp only
  split
  · exact h
  · split
    · exact h
    · exact .ite (rootResult_kept h) (sendColl_kept h)

theorem startReduce_kept {p q} (h : Kept s₀ s) : Kept s₀ (startReduce p q s) := by
  unfold startReduce
  dsimp only
  split
  · exact h
  · exact .foldl (fun _ _ h1 => .ite (.ite (ringStep_kept (keepNode_kept h1)) (keepNode_kept h1)) (passUp_kept h1)) h

theorem takeNode_kept {p q c} (h : Kept s₀ s) : Kept s₀ (takeNode p q c s) := by
  unfold takeNode
  split
  · exact h
  · extract_lets x N final l s1 s2
    have h1 : Kept s₀ s1 := modReq_kept h
    have h2 : Kept s₀ s2 := modReq_kept h1
    split
    · exact h
    · refine .ite h ?_
      split
      · exact h1
      · extract_lets v
        have hfinal : Kept s₀ (putFinal p q c.chunk v s2) := putFinal_kept h2
        exact .ite (.ite (sendColl_kept hfinal) hfinal) (.ite (ringStep_kept (keepNode_kept h2)) (.ite (passUp_kept h2) h2))

/-! ### Remote atomics (R306, 10 R275, R276) -/

theorem performAtomic_kept {p rec bad} (h : Kept s₀ s) : Kept s₀ (performAtomic p rec bad s).1 := by
  unfold performAtomic
  dsimp only
  refine .ite_fst h ?_
  split
  · exact h
  · exact dpaWriteBy_kept (fun _ _ _ _ => lineWrite_kept) (dpaRead_kept h)

theorem takeResult_kept {p q idx code old} (h : Kept s₀ s) : Kept s₀ (takeResult p q idx code old s) := by
  unfold takeResult
  dsimp only
  split
  · exact h
  · exact .ite h (.ite (collFail_kept h) (.ite (modReq_kept h) (putOut_kept (modReq_kept h))))

theorem sendPoint_kept {p q i} (h : Kept s₀ s) : Kept s₀ (sendPoint p q i s) := by
  unfold sendPoint
  dsimp only
  split
  · exact h
  · refine .ite h ?_
    refine .ite ?_ ?_
    · split
      · next e1 => exact takeResult_kept (Kept.of e1 (performAtomic_kept h))
      · next e1 => exact takeResult_kept (Kept.of e1 (performAtomic_kept h))
    · split
      · exact h
      · exact .ite h (sendPacket_kept (modReq_kept h))

theorem sendPoints_kept {p q n} (h : Kept s₀ s) : Kept s₀ (sendPoints p q n s) := .foldl (fun _ _ => sendPoint_kept) h

theorem sendWaiting_kept (h : Kept s₀ s) : Kept s₀ (sendWaiting s) := by
  unfold sendWaiting
  refine .foldl (fun t p h1 => ?_) h
  generalize (getPart t p).coll.filter _ = l
  refine .foldl (fun _ _ h2 => ?_) h1
  exact sendPoints_kept h2

/-! ### A request's turn (R303, R306) -/

theorem takePacket_kept {p q rank c} (h : Kept s₀ s) : Kept s₀ (takePacket p q rank c s) := by
  unfold takePacket
  dsimp only
  split
  · exact h
  · refine .ite (modReq_kept h) ?_
    refine .ite (collFail_kept h) ?_
    split
    · exact modReq_kept h
    · exact sendPacket_kept (takeData_kept h)
    · exact sendPacket_kept (takeNode_kept h)
    · exact takeNode_kept h

theorem startColl_kept {p q} (h : Kept s₀ s) : Kept s₀ (startColl p q s) := by
  unfold startColl
  split
  · exact h
  · extract_lets x
    split
    · exact h
    · extract_lets N
      split
      next s1 _ _ e1 =>
        extract_lets s2 s3 s4
        have h2 : Kept s₀ s2 := modReq_kept (.of e1 (readInput_kept h))
        have h3 : Kept s₀ s3 := sendEach_kept h2
        have h4 : Kept s₀ s4 := .ite (startReduce_kept h3) (startCopy_kept h3)
        exact .ite (sendPoints_kept h2) (.foldl (fun _ _ => takePacket_kept) h4)

theorem wake_kept {p} (h : Kept s₀ s) : Kept s₀ (wake p s) := .foldl (fun _ _ h1 => .ite (startColl_kept h1) h1) h

theorem breakGroup_kept {g code} (h : Kept s₀ s) : Kept s₀ (breakGroup g code s) := by
  unfold breakGroup
  split
  · exact h
  · exact .ite (wake_kept (syncPeers_kept (failGroup_kept (modGroup_kept h)))) h

theorem breakGroupsOf_kept {p} (h : Kept s₀ s) : Kept s₀ (breakGroupsOf p s) := .foldl (fun _ _ => breakGroup_kept) h

/-! ### Reading requests (R301 to R303) -/

theorem nextColl_kept {p x} (h : Kept s₀ s) (e : nextColl p s = some x) : Kept s₀ x.1 := by
  unfold nextColl at e
  dsimp only at e
  split at e
  · cases e
  · split at e
    · cases e
    · next e1 =>
      split at e
      · cases e
      · split at e
        · cases e
        · next e2 =>
          cases e
          exact KeptRes.of e2 (vaRead_kept (KeptRes.of e1 (vaRead_kept h)))

theorem queueColl_kept {p r} (h : Kept s₀ s) : Kept s₀ (queueColl p r s) :=
  .ite (wake_kept (startColl_kept (modPart_kept h))) (wake_kept (modGroup_kept (modPart_kept h)))

theorem collRow_kept {op p} (h : Kept s₀ s) : Kept s₀ (collRow op p s) := by
  unfold collRow
  split
  · exact h
  · next s1 _ _ _ e1 =>
    extract_lets over256 mine s0 r s2
    have h2 : Kept s₀ s2 := writeCtl_kept (modPart_kept (.ite h (nextColl_kept h e1)))
    refine .ite h (.ite (collFail_kept h2) (.ite (collFail_kept h2) ?_))
    split
    · exact collFail_kept h2
    · exact queueColl_kept h2

theorem onPart_kept {p k} (h : KeptOut s₀ k) : KeptOut s₀ (onPart p k) := onUnit_kept h

/-! ### Arrivals and completion (R277, R304) -/

theorem collArrival_kept {gn k rank c} (h : Kept s₀ s) : Kept s₀ (collArrival gn k rank c s) := by
  unfold collArrival
  dsimp only
  split
  · exact h
  · refine .ite h ?_
    split
    · exact .ite (wake_kept (takePacket_kept h)) (modGroup_kept h)
    · exact .ite (modGroup_kept h) h

theorem collComplete_kept {p q} (h : Kept s₀ s) : Kept s₀ (collComplete p q s) := by
  unfold collComplete
  split
  · exact h
  · extract_lets x
    refine .ite h ?_
    split
    next s1 _ _ e1 =>
      have h1 : Kept s₀ s1 := .of e1 (collBytes_kept h)
      refine wake_kept ?_
      split
      · exact retireColl_kept h1
      · exact incr_kept (retireColl_kept h1)

theorem atomicResult_kept {p q idx code old poison} (h : Kept s₀ s) : Kept s₀ (atomicResult p q idx code old poison s) := by
  unfold atomicResult
  split
  · exact h
  · exact .ite (wake_kept (sendWaiting_kept (takeResult_kept (modReq_kept h)))) h

theorem atomicArrival_kept {src flow p tag rec bad} (h : Kept s₀ s) : Kept s₀ (atomicArrival src flow p tag rec bad s) := by
  unfold atomicArrival
  dsimp only
  refine .ite h ?_
  split
  · next e1 => exact sendPacket_kept (Kept.of e1 (performAtomic_kept h))
  · next e1 => exact sendPacket_kept (Kept.of e1 (performAtomic_kept h))

/-! ### Formation (R299, R300) -/

theorem endForm_kept {g code} (h : Kept s₀ s) : Kept s₀ (endForm g code s) := by
  unfold endForm
  dsimp only
  split
  · exact h
  · exact .foldl (fun _ _ => opDone_kept) (.ite h (dropGroup_kept h))

theorem sendRecord_kept {x ranks levels refuse answer} (h : Kept s₀ s) : Kept s₀ (sendRecord x ranks levels refuse answer s) :=
  .foldl (fun _ _ => sendTo_kept) h

theorem modeChanged_kept {p} (h : Kept s₀ s) : Kept s₀ (modeChanged p s) :=
  .foldl (fun _ _ h1 => sendRecord_kept (.ite (breakGroup_kept h1) (endForm_kept h1))) h

/-! ## Machine/Steps.lean -/

/-! ### Mirroring (13 R347) -/

theorem mirrorSend_kept {n} (h : Kept s₀ s) : Kept s₀ (mirrorSend n s) := by
  unfold mirrorSend
  dsimp only
  split
  · exact .ite (sendTo_kept (modSess_kept h)) h
  · exact h

theorem logFollows_kept {n} (h : Kept s₀ s) : Kept s₀ (logFollows n s) := by
  unfold logFollows
  split
  · exact .ite h (mirrorSend_kept (modSess_kept h))
  · exact h

theorem logSent_kept {n} (h : Kept s₀ s) : Kept s₀ (logSent n s) := logFollows_kept (mirrorSend_kept h)

/-! ### What a session needs (R250) -/

theorem queueDrafts_kept {p} (h : Kept s₀ s) : Kept s₀ (queueDrafts p s) := by
  unfold queueDrafts
  refine .foldl (fun _ _ h1 => ?_) h
  refine .ite ?_ h1
  split
  · exact .ite (followTarget_kept (modSess_kept (modSess_kept h1))) h1
  · exact h1

/-! ### Building a step (R250) -/

theorem cannotPlace_kept {n code reason retry} (h : Kept s₀ s) : Kept s₀ (cannotPlace n code reason retry s) :=
  .ite (endReq_kept h) (draftFails_kept h)

theorem pagesFor_kept {p n endPos} (h : Kept s₀ s) : Kept s₀ (pagesFor p n endPos s).1 := by
  unfold pagesFor
  dsimp only
  refine .ite_fst (cannotPlace_kept h) ?_
  split
  · next e1 => exact Kept.of e1 (allocFor_kept h)
  · next e1 => exact cannotPlace_kept (Kept.of e1 (allocFor_kept h))

theorem placeNodes_kept {p n nodes masks b} (h : Kept s₀ s) : Kept s₀ (placeNodes p n nodes masks b s).1 :=
  .ite_fst h (.ite_fst (pagesFor_kept h) (modSess_kept (modTen_kept (pagesFor_kept h))))

theorem placePre_kept {p n b} (h : Kept s₀ s) : Kept s₀ (placePre p n b s).1 :=
  .ite_fst h (.ite_fst (pagesFor_kept h) (modSess_kept (modTen_kept (pagesFor_kept h))))

theorem considerOne_kept {p n acc} (h : Kept s₀ acc.1) : Kept s₀ (considerOne p n acc).1 := by
  unfold considerOne
  dsimp only
  refine .ite_fst h ?_
  refine .ite_fst ?_ (placePre_kept h)
  split
  · exact placeNodes_kept h
  · exact .ite_fst (placeNodes_kept h) (.ite_fst (placeNodes_kept h) (.ite_fst h (placeNodes_kept (modSess_kept h))))

/-! ### The end of a step -/

theorem doCancels_kept {ev p} (h : Kept s₀ s) : Kept s₀ (doCancels ev p s) := .foldl (fun _ _ h1 => .ite (endReqEv_kept h1) h1) h

theorem settleDrafts_kept {es} (h : Kept s₀ s) : Kept s₀ (settleDrafts es s) := .foldl (fun _ _ => modSess_kept) h

theorem retryAll_kept {p code} (h : Kept s₀ s) : Kept s₀ (retryAll p code s) := .foldl (fun _ _ => retryReqEv_kept) h

theorem finishStep_kept {p} (h : Kept s₀ s) : Kept s₀ (finishStep p s) := by
  unfold finishStep
  split
  · exact h
  · extract_lets r ev s1 s2
    have h2 : Kept s₀ s2 := loseSessionsEv_kept (doCancels_kept (settleDrafts_kept (modPart_kept h)))
    exact .ite (.foldl (fun _ _ => retryReqEv_kept) h2) h2

theorem failStep_kept {p code} (h : Kept s₀ s) : Kept s₀ (failStep p code s) := by
  unfold failStep
  split
  · exact h
  · extract_lets _ _ _ _ _ _ s2
    have h1 : Kept s₀ s2 := .foldl (fun _ _ h1 => .ite (draftFails_kept h1) (retryReqEv_kept h1)) (settleDrafts_kept (modPart_kept h))
    exact loseSessionsEv_kept (doCancels_kept h1)

/-! ### Launching a step (R250, R251) -/

theorem workFails_kept {p} (h : Kept s₀ s) : Kept s₀ (workFails p s) := rewriteReserve_kept (failStep_kept h)

theorem launchStep_kept {p es} (h : Kept s₀ s) : Kept s₀ (launchStep p es s) := by
  have h1 : Kept s₀ (writeTimetable p (getPart s p).stepNo es s).1 := ownWrite_kept (ownWrite_kept h)
  unfold launchStep
  dsimp only
  split
  · exact h1
  · exact .ite (workFails_kept (modPart_kept h1)) (launchKernel_kept (modPart_kept h1))

theorem stepLaunch_kept {p} (h : Kept s₀ s) : Kept s₀ (stepLaunch p s) := by
  have h1 : Kept s₀ (queueDrafts p (readForStep p s)) := queueDrafts_kept (readForStep_kept h)
  have h2 : Kept s₀ ((candidates (queueDrafts p (readForStep p s)) p).foldl (fun acc n => considerOne p n acc)
      (queueDrafts p (readForStep p s), {})).1 := .foldl_fst (fun _ _ => considerOne_kept) h1
  exact .ite h (.ite h2 (launchStep_kept h2))

/-! ### The end of a kernel (R251) -/

theorem commitInputs_kept {n k} (h : Kept s₀ s) : Kept s₀ (commitInputs n k s) := modSess_kept h

theorem commitPrefill_kept {p n e} (h : Kept s₀ s) : Kept s₀ (commitPrefill p n e s) :=
  .ite (modSess_kept (commitInputs_kept h)) (logSent_kept (modSess_kept (commitInputs_kept h)))

theorem commitDraft_kept {p e} (h : Kept s₀ s) : Kept s₀ (commitDraft p s e) := .ite h (modSessDir_kept h)

theorem commitEntry_kept {ev p e} (h : Kept s₀ s) : Kept s₀ (commitEntry ev p s e) := by
  unfold commitEntry
  dsimp only
  refine .ite (commitDraft_kept h) ?_
  cases e.kind with
  | prefill => exact .ite (endReqEv_kept (syncDir_kept (commitPrefill_kept h))) (syncDir_kept (commitPrefill_kept h))
  | _ => exact .ite (endReqEv_kept (syncDir_kept (modSess_kept h))) (syncDir_kept (modSess_kept h))

theorem endOps_kept {p opcode code} (h : Kept s₀ s) : Kept s₀ (endOps p opcode code s) := .foldl (fun _ _ => opDone_kept) h

theorem kernelEnd_kept {p} (h : Kept s₀ s) : Kept s₀ (kernelEnd p s) := by
  unfold kernelEnd
  extract_lets pt
  split
  · exact h
  · refine .ite h ?_
    extract_lets ev po s1
    have h1 : Kept s₀ s1 := .foldl (fun _ _ => modCore_kept) (modPart_kept h)
    refine .ite (endOps_kept h1) ?_
    split
    · exact h1
    · extract_lets s2
      have h2 : Kept s₀ s2 := .foldl (fun _ _ => commitEntry_kept) (modPart_kept h1)
      exact .ite h2 (finishStep_kept h2)

/-! ### The Points (R254 to R262) -/

theorem readRow_kept {p va vocab} (h : Kept s₀ s) : Kept s₀ (readRow p va vocab s).1 := by
  unfold readRow
  refine .foldl_fst (fun _ _ h1 => ?_) h
  split
  · next e => exact KeptRes.of e (vaRead_kept h1)
  · next e => exact KeptRes.of e (vaRead_kept h1)

theorem readRows_kept {p row n} (h : Kept s₀ s) : Kept s₀ (readRows p row n s).1 := by
  unfold readRows
  refine .foldl_fst (fun _ _ h1 => ?_) h
  dsimp only
  exact readRow_kept h1

theorem postToken_kept {p n tok lp drafted ev code ctx} (h : Kept s₀ s) : Kept s₀ (postToken p n tok lp drafted ev code ctx s) := by
  unfold postToken
  dsimp only
  split
  · exact endWith_kept (modPart_kept (logSent_kept (modSess_kept h)))
  · exact postSess_kept (modPart_kept (logSent_kept (modSess_kept h)))

theorem draftFollows_kept {n P tgt path} (h : Kept s₀ s) : Kept s₀ (draftFollows n P tgt path s) := by
  unfold draftFollows
  dsimp only
  split
  · exact h
  · exact .ite (modSessDir_kept h) h

theorem decideTree_kept {p n P rows ev} (h : Kept s₀ s) : Kept s₀ (decideTree p n P rows ev s) := by
  unfold decideTree
  extract_lets x w
  split
  extract_lets nodes path s1 s2
  have h2 : Kept s₀ s2 := .foldl (fun _ _ => postToken_kept) (draftFollows_kept (modSessDir_kept h))
  refine .ite h2 ?_
  split
  · exact postToken_kept h2
  · exact endWith_kept (modSess_kept h2)

theorem decideDraft_kept {p t e row} (h : Kept s₀ s) : Kept s₀ (decideDraft p t e row s) := by
  refine .ite h ?_
  split
  next s1 _ _ _ e1 =>
    have h1 : Kept s₀ s1 := .of e1 (readRows_kept h)
    exact .ite (draftFails_kept h1) (.ite (draftFails_kept h1) (modSess_kept (modSess_kept h1)))

theorem decideEntry_kept {p e row ev0} (h : Kept s₀ s) : Kept s₀ (decideEntry p e row ev0 s) := by
  unfold decideEntry
  extract_lets n x
  split
  · exact decideDraft_kept h
  · refine .ite h ?_
    split
    next s1 _ _ _ e1 =>
      have h1 : Kept s₀ s1 := .of e1 (readRows_kept h)
      exact .ite (endWith_kept h1) (.ite (endWith_kept h1) (.ite (endWith_kept h1)
        (.ite (decideTree_kept h1) (.ite (endWith_kept h1) (postToken_kept (modSess_kept h1))))))

theorem pointsNext_kept {p} (h : Kept s₀ s) : Kept s₀ (pointsNext p s) := by
  unfold pointsNext
  dsimp only
  split
  · exact h
  · refine .ite h ?_
    split
    · exact finishStep_kept h
    · split
      · exact h
      · exact .ite (decideEntry_kept (modPart_kept h)) (finishStep_kept (decideEntry_kept (modPart_kept h)))

theorem pointsDecide_kept {p} (h : Kept s₀ s) : Kept s₀ (pointsDecide p s) := by
  unfold pointsDecide
  dsimp only
  split
  · exact h
  · exact .ite h (.ite (workFails_kept (readForStep_kept h)) (pointsNext_kept (readForStep_kept h)))

/-! ### Halts and aborts (05 R139 to R142, 13 R342) -/

theorem haltComplete_kept {p} (h : Kept s₀ s) : Kept s₀ (haltComplete p s) := by
  unfold haltComplete
  dsimp only
  split
  · exact h
  · exact .ite h (endOps_kept (endOps_kept (partEvent_kept (modPart_kept (failStep_kept (modPart_kept h))))))

theorem abortScus_kept {p} (h : Kept s₀ s) : Kept s₀ (abortScus p s) :=
  .foldl (fun _ _ h1 => .ite h1 (modChan_kept (.foldl (fun _ _ => writeStatus_kept) h1))) h

theorem abortWith_kept {p code event} (h : Kept s₀ s) : Kept s₀ (abortWith p code event s) := by
  unfold abortWith
  extract_lets _ s2
  have h1 : Kept s₀ s2 := breakGroupsOf_kept (modPart_kept (abortScus_kept (.foldl (fun _ _ h1 => modCore_kept (writeHalt_kept h1)) h)))
  exact .foldl (fun _ _ => opDone_kept)
    (.ite (retryAll_kept (modPart_kept (failStep_kept h1))) (partEvent_kept (retryAll_kept (modPart_kept (failStep_kept h1)))))

theorem stepOverrun_kept {p} (h : Kept s₀ s) : Kept s₀ (stepOverrun p s) := by
  unfold stepOverrun
  dsimp only
  split
  · exact h
  · exact .ite h (abortWith_kept (timeTo_kept h))

theorem coreIsolated_kept {n} (h : Kept s₀ s) : Kept s₀ (coreIsolated n s) := by
  unfold coreIsolated
  dsimp only
  split
  · exact .ite (unitChanged_kept (post_kept (modCore_kept h))) h
  · exact h

/-! ### The device fails (13 R345) -/

theorem departNotices_kept (h : Kept s₀ s) : Kept s₀ (departNotices s) := .foldl (fun _ _ => sendNotice_kept) h

theorem failDevice_kept (h : Kept s₀ s) : Kept s₀ (failDevice s) :=
  .ite h (post_kept (departNotices_kept (.foldl (fun _ _ => abortWith_kept) h)))

/-! ## Machine/Mailbox.lean -/

/-! ### The Interlocking (R371, R373) -/

theorem ownChange_kept {code} (h : Kept s₀ s) : Kept s₀ (ownChange code s) := .foldl (fun _ _ => sbSet_kept) (post_kept h)

theorem lapse_kept (h : Kept s₀ s) : Kept s₀ (lapse s) := .ite (ownChange_kept h) h

theorem renewLease_kept (h : Kept s₀ s) : Kept s₀ (renewLease s) := h

theorem submitted_kept {m} (h : Kept s₀ s) : Kept s₀ (submitted m s) := .ite (renewLease_kept (lapse_kept h)) (lapse_kept h)

/-! ### Requests and responses (R363, R364) -/

theorem placeRsp_kept {q r} (h : Kept s₀ s) : Kept s₀ (placeRsp q r s) := by
  refine sbSet_kept ?_
  split
  · exact modBox_kept h
  · exact modBox_kept h
  · exact modBox_kept h

theorem respond_kept {q code payload} (h : Kept s₀ s) : Kept s₀ (respond q code payload s) := placeRsp_kept h

/-! ### Commands (R363, R366, R374) -/

theorem startOp_kept {q part arg} (h : Kept s₀ s) : Kept s₀ (startOp q part arg s) := respond_kept h

theorem serve_kept {c hd q} (hh : ∀ q t, Kept s₀ t → KeptReply s₀ (hd q t)) (h : Kept s₀ s) : Kept s₀ (serve c hd q s) := by
  refine .ite (placeRsp_kept h) ?_
  split
  · exact respond_kept h
  · split
    · next e1 => exact respond_kept (KeptReply.of e1 (hh q s h))
    · exact respond_kept h
    · next e1 => exact respond_kept (KeptReply.of e1 (hh q s h))
    · next e1 => exact .ite (respond_kept h) (startOp_kept (KeptReply.of e1 (hh q s h)))

theorem latch_kept {m raw} (h : Kept s₀ s) : Kept s₀ (latch m raw s) := modBox_kept (submitted_kept h)

theorem arrive_kept {c hd m via raw} (hh : ∀ q t, Kept s₀ t → KeptReply s₀ (hd q t)) (h : Kept s₀ s) :
    Kept s₀ (arrive c hd m via raw s) := .ite (sbSet_kept h) (.ite (latch_kept h) (serve_kept hh (submitted_kept h)))

theorem mailRow_kept {c hd sub} (hh : ∀ q t, Kept s₀ t → KeptReply s₀ (hd q t)) (h : Kept s₀ s) : Kept s₀ (mailRow c hd sub s) := by
  cases sub with
  | host => exact .ite (serve_kept hh h) h
  | bmc med eid msg => exact .ite (arrive_kept hh h) h
  | fm ident msg => exact .ite (arrive_kept hh h) h

theorem mail_kept {c hd sub} (hh : ∀ q t, Kept s₀ t → KeptReply s₀ (hd q t)) (h : Kept s₀ s) : KeptOut s₀ (mail c hd sub s) :=
  mailRow_kept hh h

theorem checked_kept {l r} (h : KeptReply s₀ r) : KeptReply s₀ (checked l r) := by
  unfold checked
  split
  · exact .no
  · exact h

/-! ## Machine/Drain.lean -/

/-! ### Map-out of cores and slices (12 R333, 03 R71) -/

theorem endMapout_kept {kind n} (h : Kept s₀ s) : Kept s₀ (endMapout kind n s) := .foldl (fun _ _ => opDone_kept) h

theorem coreOut_kept {n} (h : Kept s₀ s) : Kept s₀ (coreOut n s) := endMapout_kept (unitChanged_kept (post_kept (modCore_kept h)))

theorem sliceOut_kept {n} (h : Kept s₀ s) : Kept s₀ (sliceOut n s) := endMapout_kept (unitChanged_kept (post_kept (cmoWhere_kept h)))

theorem settleFree_kept (h : Kept s₀ s) : Kept s₀ (settleFree s) :=
  .foldl (fun _ _ => sliceOut_kept) (.foldl (fun _ _ => coreOut_kept) h)

/-! ### Draining (09 R247) -/

theorem beginDrain_kept {p cut} (h : Kept s₀ s) : Kept s₀ (beginDrain p cut s) :=
  .ite (.ite (retryAll_kept (breakGroupsOf_kept (modPart_kept h))) (breakGroupsOf_kept (modPart_kept h))) (modPart_kept h)

theorem cutAll_kept (h : Kept s₀ s) : Kept s₀ (cutAll s) := .foldl (fun _ _ => beginDrain_kept) h

/-! ## Machine/PartCmd.lean -/

/-! ### What the commands share -/

theorem scuDomains_kept {cs} (h : Kept s₀ s) : Kept s₀ (scuDomains cs s) := rewriteReport_kept h

theorem freeShares_kept {cs} (h : Kept s₀ s) : Kept s₀ (freeShares cs s) := .foldl (fun _ _ => modChan_kept) h

/-! ### Units (R377, 09 R247) -/

theorem setUnits_kept {p cores slices chans} (h : Kept s₀ s) : Kept s₀ (setUnits p cores slices chans s) := by
  unfold setUnits
  extract_lets _ _ s1 s2
  have h1 : Kept s₀ s1 := .foldl (fun _ _ => setOwner_kept) (loseSessionsEv_kept (modPart_kept h))
  have h2 : Kept s₀ s2 := .ite h1 (cmoWhere_kept h1)
  exact scuDomains_kept (freeShares_kept (modPart_kept h2))

theorem partCreateH_kept {q} (h : Kept s₀ s) : KeptReply s₀ (partCreateH q s) := checked_kept (.ok (setUnits_kept (modPart_kept h)))

theorem partUnitsH_kept {q} (h : Kept s₀ s) : KeptReply s₀ (partUnitsH q s) := checked_kept (.ok (setUnits_kept h))

theorem partDestroyH_kept {q} (h : Kept s₀ s) : KeptReply s₀ (partDestroyH q s) :=
  checked_kept (.ok (scuDomains_kept (freeShares_kept (modPart_kept (breakGroupsOf_kept h)))))

/-! ### Parameters (R378) -/

theorem dropDirs_kept {p} (h : Kept s₀ s) : Kept s₀ (dropDirs p s) := .foldl (fun _ _ h1 => modSess_kept (.ite (dropAllPages_kept h1) h1)) h

theorem changeRun_kept {p run} (h : Kept s₀ s) : Kept s₀ (changeRun p run s) := by
  unfold changeRun
  extract_lets ns s1 s2
  have h2 : Kept s₀ s2 := modPart_kept (.foldl (fun _ _ h1 => .ite (dropAllPages_kept h1) h1) h)
  clear_value s2
  split
  · exact h2
  · exact .ite (.foldl (fun _ _ => modSessDir_kept) h2) (.foldl (fun _ _ => placeDir_kept) (.foldl (fun _ _ => modSess_kept) h2))

theorem paramEffect_kept {p id v} (h : Kept s₀ s) : Kept s₀ (paramEffect p id v s) := by
  unfold paramEffect
  extract_lets pr s1 s2
  have h1 : Kept s₀ s1 := .ite (dropDirs_kept h) (.ite (changeRun_kept h) (.ite (modPart_kept h) h))
  exact .ite (modeChanged_kept (modPart_kept h1)) (modPart_kept h1)

theorem paramH_kept {q} (h : Kept s₀ s) : KeptReply s₀ (paramH q s) := checked_kept (.ok (paramEffect_kept h))

theorem shareH_kept {q} (h : Kept s₀ s) : KeptReply s₀ (shareH q s) := checked_kept (.ok (modChan_kept h))

/-! ### Rows and pages (03 R64, R66; 19 R462) -/

theorem rowModeH_kept {q} (h : Kept s₀ s) : KeptReply s₀ (rowModeH q s) := checked_kept (.ok (fillRow_kept h))

theorem pagesH_kept {q} (h : Kept s₀ s) : KeptReply s₀ (pagesH q s) :=
  checked_kept (.ite (.ok (.foldl (fun _ _ => setOwner_kept) h)) (.ok (.foldl (fun _ _ => setOwner_kept) (modPart_kept h))))

/-! ### Mappings (07 R194, R195, R198) -/

theorem mapH_kept {q} (h : Kept s₀ s) : KeptReply s₀ (mapH q s) := by
  unfold mapH
  dsimp only
  refine checked_kept ?_
  split
  · exact .no
  · exact .ok (modPart_kept h)

theorem unmapH_kept {q} (h : Kept s₀ s) : KeptReply s₀ (unmapH q s) := checked_kept (.op (modPart_kept h))

/-! ### The KV pool (08 R211) -/

theorem kvPoolH_kept {q} (h : Kept s₀ s) : KeptReply s₀ (kvPoolH q s) := checked_kept (.ok (modPart_kept h))

/-! ### States (09 R246, R247; 13 R343) -/

theorem placeDirs_kept {p t} (h : Kept s₀ s) (e : placeDirs p s = some t) : Kept s₀ t := by
  unfold placeDirs at e
  split at e
  · cases e
    exact h
  · refine List.foldlRecOn (motive := fun o : Option State => ∀ u, o = some u → Kept s₀ u) _ _ ?_ (fun o ho n _ u hu => ?_) t e
    · intro u hu
      cases hu
      exact h
    · obtain ⟨v, hv, hu⟩ := Option.bind_eq_some_iff.mp hu
      split at hu
      · cases hu
        exact ho _ hv
      · split at hu
        · cases hu
        · cases hu
          exact placeDir_kept (ho _ hv)

theorem partStartH_kept {q} (h : Kept s₀ s) : KeptReply s₀ (partStartH q s) := by
  unfold partStartH
  dsimp only
  refine checked_kept ?_
  split
  · exact .no
  · exact .no
  · next e1 => exact .ok (modPart_kept (placeDirs_kept h e1))

theorem partDrainH_kept {q} (h : Kept s₀ s) : KeptReply s₀ (partDrainH q s) :=
  checked_kept (.ite (.op (modPart_kept (.ite (retryAll_kept (breakGroupsOf_kept h)) h))) (.op (beginDrain_kept h)))

theorem partResumeH_kept {q} (h : Kept s₀ s) : KeptReply s₀ (partResumeH q s) := checked_kept (.ok (modPart_kept h))

theorem partAbortH_kept {q} (h : Kept s₀ s) : KeptReply s₀ (partAbortH q s) := checked_kept (.ok (abortWith_kept h))

/-! ### STATUS -/

theorem partStatusH_kept {q} (h : Kept s₀ s) : KeptReply s₀ (partStatusH q s) := checked_kept (.ok h)

/-! ## Machine/Mirror.lean -/

theorem ackSess_kept {n upTo} (h : Kept s₀ s) : Kept s₀ (ackSess n upTo s) :=
  .foldl (fun _ _ => ringPost_kept) (modSess_kept (.ite (modSess_kept h) (modSessDir_kept (modSess_kept h))))

theorem letGo_kept {n} (h : Kept s₀ s) : Kept s₀ (letGo n s) := modSess_kept (ackSess_kept h)

theorem unprotect_kept {p} (h : Kept s₀ s) : Kept s₀ (unprotect p s) :=
  .ite h (post_kept (.foldl (fun _ _ => letGo_kept) (modPart_kept h)))

/-! ## Machine/Heat.lean -/

/-! ### Power (R403, R411) -/

theorem clampStep_kept (h : Kept s₀ s) : Kept s₀ (clampStep s) := by
  unfold clampStep
  dsimp only
  split
  · exact .ite h h
  · exact h

theorem execClampRelease_kept (h : Kept s₀ s) : KeptOut s₀ (execClampRelease s) := by
  unfold execClampRelease
  split
  · exact h
  · exact h

/-! ### The orderly stop (R414) -/

theorem floorAll_kept (h : Kept s₀ s) : Kept s₀ (floorAll s) := .foldl (fun _ _ h1 => h1) h

theorem abandonNotices_kept {gs} (h : Kept s₀ s) : Kept s₀ (abandonNotices gs s) :=
  .foldl (fun _ _ h1 => .foldl (fun _ _ h2 => .ite h2 (sendNotice_kept h2)) h1) h

theorem portsLost_kept (h : Kept s₀ s) : Kept s₀ (portsLost s) := .foldl (fun _ _ => portEvent_kept) h

theorem domainsDown_kept {cause} (h : Kept s₀ s) : Kept s₀ (domainsDown cause s) := by
  have h1 : Kept s₀ (domainsLost s) := portsLost_kept h
  exact rewriteReport_kept h1

theorem thermalStop_kept (h : Kept s₀ s) : Kept s₀ (thermalStop s) := by
  unfold thermalStop
  extract_lets formed heat s1 s2 s3 s4 host
  have h1 : Kept s₀ s1 := thSet_kept (postRec_kept (floorAll_kept h))
  have h2 : Kept s₀ s2 := .foldl (fun _ _ => abortWith_kept) h1
  have h3 : Kept s₀ s3 := .foldl (fun _ _ h3 => .ite (unprotect_kept h3) h3) h2
  have h4 : Kept s₀ s4 := departNotices_kept (abandonNotices_kept h3)
  clear_value s4
  exact domainsDown_kept h4

theorem refreshStep_kept {k} (h : Kept s₀ s) : Kept s₀ (refreshStep k s) := .ite h (.ite (post_kept h) (post_kept h))

theorem thermalModelUpdate_kept (h : Kept s₀ s) : Kept s₀ (thermalModelUpdate s) := by
  unfold thermalModelUpdate
  extract_lets s1 temps ns heat s2 s3
  have h3 : Kept s₀ s3 := .ite h (.foldl (fun _ _ => refreshStep_kept) h)
  exact .ite h3 (thermalStop_kept h3)

/-! ### Diodes (R405, R406) -/

theorem checkDiode_kept {s0 t d} (h : Kept s₀ t) : Kept s₀ (checkDiode s0 t d) := .ite h (.ite h (thSet_kept (post_kept h)))

theorem checkRegion_kept {t r} (h : Kept s₀ t) : Kept s₀ (checkRegion t r) := .ite h (.ite (thSet_kept (post_kept h)) h)

theorem moveOffset_kept {t r} (h : Kept s₀ t) : Kept s₀ (moveOffset t r) := .ite h h

theorem diodeCheck_kept {readings} (h : Kept s₀ s) : Kept s₀ (diodeCheck readings s) := by
  have hall : ∀ t, Kept s₀ t → Kept s₀ ((List.range 12).foldl moveOffset ((List.range 12).foldl checkRegion
      ((List.range 96).foldl (checkDiode t) t))) := fun t h1 =>
    .foldl (fun _ _ => moveOffset_kept) (.foldl (fun _ _ => checkRegion_kept) (.foldl (fun _ _ => checkDiode_kept) h1))
  unfold diodeCheck
  extract_lets s1 ds s2
  exact hall _ h

/-! ### Duty (R407 to R410) -/

theorem groupPost_kept {code g} (h : Kept s₀ s) : Kept s₀ (groupPost code g s) := post_kept h

theorem modDuty_kept {g f} (h : Kept s₀ s) : Kept s₀ (modDuty g f s) := h

theorem lowerDuty_kept {heat g} (h : Kept s₀ s) : Kept s₀ (lowerDuty heat g s) :=
  .ite (.ite (modDuty_kept h) (groupPost_kept (modDuty_kept h))) (thSet_kept (.ite (modDuty_kept h) (groupPost_kept (modDuty_kept h))))

theorem raiseDuty_kept {g} (h : Kept s₀ s) : Kept s₀ (raiseDuty g s) := .ite (modDuty_kept h) (thSet_kept (groupPost_kept (modDuty_kept h)))

theorem floorWatch_kept {g} (h : Kept s₀ s) : Kept s₀ (floorWatch g s) := modDuty_kept h

theorem dutyTickRow_kept (h : Kept s₀ s) : Kept s₀ (dutyTickRow s) := by
  unfold dutyTickRow
  extract_lets s0 heat s1 P L gs hot low s2 s3
  have h1 : Kept s₀ s1 := h
  have h2 : Kept s₀ s2 := .foldl (fun _ _ => lowerDuty_kept) h1
  have h3 : Kept s₀ s3 := by
    refine .ite ?_ (.ite ?_ h2)
    · split
      · exact lowerDuty_kept h2
      · exact h2
    · split
      · exact raiseDuty_kept h2
      · exact h2
  exact .foldl (fun _ _ => floorWatch_kept) h3

theorem groupAtFloor_kept {g} (h : Kept s₀ s) : Kept s₀ (groupAtFloor g s) := by
  unfold groupAtFloor
  split
  · exact .ite h (groupPost_kept (modDuty_kept (timeTo_kept h)))
  · exact h

/-! ## Machine/Fabric.lean -/

/-! ### Ports (R284 to R289) -/

theorem onPort_kept {p k} (h : KeptOut s₀ k) : KeptOut s₀ (onPort p k) := onUnit_kept h

theorem lostPaths_kept (h : Kept s₀ s) : Kept s₀ (lostPaths s) := by
  unfold lostPaths
  refine .foldl (fun _ _ h1 => ?_) h
  refine wake_kept ?_
  refine .foldl (fun _ _ h2 => ?_) h1
  split
  · exact h2
  · exact .ite h2 (collFail_kept h2)

theorem leaveUp_kept {p st} (h : Kept s₀ s) : Kept s₀ (leaveUp p st s) :=
  .ite (lostPaths_kept (portEvent_kept (modPort_kept h))) (.ite (modPort_kept h) (rewriteReport_kept (modPort_kept h)))

theorem portSignalDetect_kept {p lanes s0} (h : Kept s₀ s0) : Kept s₀ (portSignalDetect p lanes s0) :=
  .ite h (.ite (modPort_kept (modPort_kept h)) (leaveUp_kept (modPort_kept (modPort_kept h))))

theorem neighbourArrived_kept {p good rec} (h : Kept s₀ s) : Kept s₀ (neighbourArrived p good rec s) := by
  refine .ite h ?_
  extract_lets w lv s0 s1
  have h1 : Kept s₀ s1 := modPort_kept (.ite h (sendLink_kept h))
  have hleft : ∀ code st, Kept s₀ (jnSet p (post code 4 p (leaveUp p st s1))) := fun _ _ => jnSet_kept (post_kept (leaveUp_kept h1))
  exact .ite (hleft _ _) (.ite (hleft _ _) (.ite (hleft _ _) (portEvent_kept (modPort_kept h1))))

theorem restripe_kept {p good} (h : Kept s₀ s) : Kept s₀ (restripe p good s) :=
  .ite (leaveUp_kept (modPort_kept h)) (.ite (modPort_kept (modPort_kept h)) (portEvent_kept (modPort_kept (modPort_kept h))))

theorem laneRetrain_kept {p pass} (h : Kept s₀ s) : Kept s₀ (laneRetrain p pass s) := .ite h (.ite (modPort_kept h) (restripe_kept h))

theorem codewordReplay_kept {p seq bad} (h : Kept s₀ s) : Kept s₀ (codewordReplay p seq bad s) := by
  unfold codewordReplay
  dsimp only
  refine .ite (restripe_kept ?_) ?_
  · exact .foldl (fun _ _ => emit_kept) (modPort_kept h)
  · exact .foldl (fun _ _ => emit_kept) (modPort_kept h)

theorem execCodewordReplay_kept {p seq ask} (h : Kept s₀ s) : KeptOut s₀ (execCodewordReplay p seq ask s) := by
  refine onPort_kept (Kept.ite h ?_)
  cases ask with
  | own => exact sendLink_kept h
  | partner bad => exact codewordReplay_kept h

/-! ### The watched peers (R291, R300) -/

theorem modPeer_kept {d f} (h : Kept s₀ s) : Kept s₀ (modPeer d f s) := h

theorem loseDevice_kept {d} (h : Kept s₀ s) : Kept s₀ (loseDevice d s) :=
  .foldl (fun _ _ => unprotect_kept) (modPeer_kept (.foldl (fun _ _ h1 => breakGroup_kept (.foldl (fun _ _ => collFail_kept) h1)) h))

theorem deadNotices_kept {to_ d} (h : Kept s₀ s) : Kept s₀ (deadNotices to_ d s) := .foldl (fun _ _ h1 => .ite h1 (sendNotice_kept h1)) h

theorem peerDead_kept {d} (h : Kept s₀ s) : Kept s₀ (peerDead d s) := by
  unfold peerDead
  dsimp only
  split
  · exact h
  · exact loseDevice_kept (deadNotices_kept (post_kept (timeTo_kept h)))

/-! ### Forwarding (R294, R295) -/

theorem packetForward_kept {p k} (h : Kept s₀ s) : Kept s₀ (packetForward p k s) := by
  refine .ite h ?_
  cases hr : route k s with
  | none => exact sendPacket_kept h
  | some t => exact route_kept h hr

/-! ### Fabric time (R311, R312) -/

theorem setTime_kept {v} (h : Kept s₀ s) : Kept s₀ (setTime v s) := .ite h (jnSet_kept (post_kept h))

theorem heardLower_kept {stratum} (h : Kept s₀ s) : Kept s₀ (heardLower stratum s) := .ite h h

theorem timeExchange_kept {p stratum ident offset} (h : Kept s₀ s) : Kept s₀ (timeExchange p stratum ident offset s) := by
  unfold timeExchange
  extract_lets x r note s1 s2
  have h2 : Kept s₀ s2 := heardLower_kept (modPort_kept (sendLink_kept h))
  exact .ite h (.ite (setTime_kept h2) h2)

theorem becomeMaster_kept (h : Kept s₀ s) : Kept s₀ (becomeMaster s) := h

theorem holdover_kept (h : Kept s₀ s) : Kept s₀ (holdover s) := by
  have h1 : Kept s₀ (timeTo (s.fab.lastLower + 10000000) s) := timeTo_kept h
  exact .ite h (.ite (becomeMaster_kept h1) (.ite (becomeMaster_kept h1) (setTime_kept h1)))

/-! ### Formation of groups (R299, R300) -/

theorem tryForm_kept {g} (h : Kept s₀ s) : Kept s₀ (tryForm g s) := by
  unfold tryForm
  split
  · exact h
  · exact .ite h (endForm_kept (syncPeers_kept (modGroup_kept h)))

theorem formationRecord_kept {g rank key members ordered levels kind} (h : Kept s₀ s) :
    Kept s₀ (formationRecord g rank key members ordered levels kind s) := by
  unfold formationRecord
  split
  · exact h
  · next x _ =>
    extract_lets end_ s1
    have hend : ∀ code, Kept s₀ (end_ code) := fun _ => .ite (endForm_kept h) (breakGroup_kept h)
    have h1 : Kept s₀ s1 := .ite h (sendRecord_kept h)
    exact .ite h (.ite (hend _) (.ite h (.ite (hend _) (.ite (tryForm_kept (modGroup_kept h1)) h1))))

theorem groupTimeout_kept {g} (h : Kept s₀ s) : Kept s₀ (groupTimeout g s) := by
  unfold groupTimeout
  split
  · exact h
  · exact .ite (endForm_kept (timeTo_kept h)) h

/-! ### The buddy's side of mirroring (13 R346 to R348) -/

theorem mirrorArrival_kept {src spart n model settings frm toks closed} (h : Kept s₀ s) :
    Kept s₀ (mirrorArrival src spart n model settings frm toks closed s) := by
  unfold mirrorArrival
  dsimp only
  split
  · exact h
  · exact .ite h (.ite h (.ite (sendTo_kept h) (sendTo_kept h)))

/-! ## Machine/TelCmd.lean -/

/-! ### TEL (R382) -/

theorem floorplanH_kept {q} (h : Kept s₀ s) : KeptReply s₀ (floorplanH q s) := .ok h

theorem sensorsH_kept {q} (h : Kept s₀ s) : KeptReply s₀ (sensorsH q s) := checked_kept (.ok h)

theorem eventsH_kept {keep q} (h : Kept s₀ s) : KeptReply s₀ (eventsH keep q s) := checked_kept (.ok h)

theorem powerLimitH_kept {q} (h : Kept s₀ s) : KeptReply s₀ (powerLimitH q s) := checked_kept (.ok h)

/-! ### INT (R383) -/

theorem intRecordsH_kept {q} (h : Kept s₀ s) : KeptReply s₀ (intRecordsH q s) := checked_kept (.ok h)

/-- CHK_MODE takes 0 to 2 only (12 R324). -/
theorem chkModeH_kept {q} (h : Kept s₀ s) : KeptReply s₀ (chkModeH q s) := by
  unfold chkModeH
  cases hbad : decide (2 < q.f 0 1) with
  | true => exact Kept.refl s₀
  | false =>
    have hmode : q.f 0 1 < 3 := Nat.lt_succ_of_le (Nat.le_of_not_lt (of_decide_eq_false hbad))
    obtain ⟨hform, hprio, _, hfuse⟩ := h
    exact ⟨hform, hprio, fun _ => hmode, hfuse⟩

theorem mapoutH_kept {q} (h : Kept s₀ s) : KeptReply s₀ (mapoutH q s) := by
  refine checked_kept (.op ?_)
  split
  · exact h
  · exact h
  · exact pendChannel_kept h

theorem execMapout_kept {sub} (h : Kept s₀ s) : KeptOut s₀ (execMapout sub s) :=
  .next (settleFree_kept (mailRow_kept (fun _ _ => mapoutH_kept) h))

theorem sparesH_kept {q} (h : Kept s₀ s) : KeptReply s₀ (sparesH q s) := .ok h

/-! ### FW (R384) -/

theorem fwInfoH_kept {q} (h : Kept s₀ s) : KeptReply s₀ (fwInfoH q s) := .ok h

theorem stageWriteH_kept {q} (h : Kept s₀ s) : KeptReply s₀ (stageWriteH q s) := checked_kept (.ok h)

theorem stageVerifyDone_kept (h : Kept s₀ s) : Kept s₀ (stageVerifyDone s) := by
  unfold stageVerifyDone
  dsimp only
  split
  · exact h
  · exact opDone_kept h

theorem activateH_kept {q} (h : Kept s₀ s) : KeptReply s₀ (activateH q s) := checked_kept (.ok (.ite (cutAll_kept h) h))

/-! ## Machine/FabCmd.lean -/

/-! ### Identity, routes, time, ports -/

theorem conflicts_kept (h : Kept s₀ s) : Kept s₀ (conflicts s) :=
  .foldl (fun _ _ h1 => .ite (jnSet_kept (post_kept (leaveUp_kept h1))) h1) h

theorem identityH_kept {q} (h : Kept s₀ s) : KeptReply s₀ (identityH q s) := .ok (conflicts_kept h)

theorem routeH_kept {q} (h : Kept s₀ s) : KeptReply s₀ (routeH q s) := checked_kept (.ok (lostPaths_kept h))

theorem fabTimeH_kept {q} (h : Kept s₀ s) : KeptReply s₀ (fabTimeH q s) := checked_kept (.ok (.ite (setTime_kept (.ite h h)) (.ite h h)))

theorem fabPortH_kept {q} (h : Kept s₀ s) : KeptReply s₀ (fabPortH q s) := by
  refine checked_kept (.ok (.ite (leaveUp_kept (.ite (departNotices_kept ?_) ?_)) (.ite (leaveUp_kept ?_) ?_)))
  · exact h
  · exact h
  · exact h
  · exact h

/-! ### Buddies and mirror regions -/

theorem setBuddy_kept {p b} (h : Kept s₀ s) : Kept s₀ (setBuddy p b s) := by
  unfold setBuddy
  extract_lets ns s1 due s2
  have h2 : Kept s₀ s2 := syncPeers_kept (modPart_kept (.foldl (fun _ _ => letGo_kept) h))
  exact .ite (.foldl (fun _ _ h3 => mirrorSend_kept (modSess_kept h3)) h2) h2

theorem buddyH_kept {q} (h : Kept s₀ s) : KeptReply s₀ (buddyH q s) := checked_kept (.ok (setBuddy_kept h))

theorem grantH_kept {q} (h : Kept s₀ s) : KeptReply s₀ (grantH q s) :=
  .ite (checked_kept (.ok (.foldl (fun _ _ => setOwner_kept) h))) (checked_kept (.ok (.foldl (fun _ _ => setOwner_kept) h)))

/-! ### Groups (11 R299, R300) -/

theorem dropList_kept {q} (h : Kept s₀ s) : Kept s₀ (dropList q s) := by
  unfold dropList
  split
  · exact .ite h (dropGroup_kept h)
  · exact h

theorem tellMembers_kept {x cut} (h : Kept s₀ s) : Kept s₀ (tellMembers x cut s) := sendRecord_kept h

theorem groupFormH_kept {q} (h : Kept s₀ s) : KeptReply s₀ (groupFormH q s) :=
  .ite .no (.ite (.ok h) (.ite (.cut (dropGroup_kept (tellMembers_kept h))) (.op (tellMembers_kept (s := putGroup _ _ s) h))))

theorem groupFormCmd_kept {q} (h : Kept s₀ s) : KeptReply s₀ (groupFormCmd q s) := .ite (.cut (dropList_kept h)) (groupFormH_kept h)

theorem groupReleaseH_kept {q} (h : Kept s₀ s) : KeptReply s₀ (groupReleaseH q s) := by
  unfold groupReleaseH
  dsimp only
  split
  · exact checked_kept .no
  · exact checked_kept (.ok (syncPeers_kept (dropGroup_kept (breakGroup_kept h))))

/-! ### Status and events -/

theorem fabStatusH_kept {q} (h : Kept s₀ s) : KeptReply s₀ (fabStatusH q s) := by
  unfold fabStatusH
  split
  · exact .ok h
  · split
    · exact checked_kept .no
    · exact .ok h
  · exact .ok h
  · exact .no

/-! ## Machine/DiagCmd.lean -/

/-! ### LAUNCH, READ_STORE, READ_SCOREBOARD -/

theorem diagLaunchH_kept {q} (h : Kept s₀ s) : KeptReply s₀ (diagLaunchH q s) := checked_kept (.op (launchKernel_kept h))

theorem readStoreH_kept {q} (h : Kept s₀ s) : KeptReply s₀ (readStoreH q s) := by
  refine checked_kept ?_
  split
  · exact Kept.refl s₀
  · exact Kept.ite h (modCore_kept (sramErrors_kept h))

theorem readScoreboardH_kept {q} (h : Kept s₀ s) : KeptReply s₀ (readScoreboardH q s) := checked_kept (.ok h)

/-! ### INJECT and RAW_READ (12 R324, R326) -/

theorem injectAt_kept {pl data chk} (h : Kept s₀ s) : Kept s₀ (injectAt pl data chk s) := by
  unfold injectAt
  dsimp only
  split
  · exact modChan_kept (putRaw_kept h)
  · split
    · exact putLine_kept (.ite h h)
    · exact .ite h h
  · exact modCore_kept h

theorem injectH_kept {q} (h : Kept s₀ s) : KeptReply s₀ (injectH q s) := by
  unfold injectH
  split
  · exact .no
  · exact checked_kept (.ok (injectAt_kept h))

theorem wayRead_kept {data chk} (h : Kept s₀ s) : Kept s₀ (wayRead data chk s).1 := h

theorem rawRead_kept {pl} (h : Kept s₀ s) : Kept s₀ (rawRead pl s).1 := by
  unfold rawRead
  dsimp only
  split
  · exact h
  · split
    · exact wayRead_kept h
    · split
      · exact wayRead_kept h
      · exact h
  · exact h

theorem rawReadH_kept {q} (h : Kept s₀ s) : KeptReply s₀ (rawReadH q s) := by
  unfold rawReadH
  dsimp only
  split
  · exact .no
  · exact checked_kept (.ok (rawRead_kept h))

/-! ### DOMAIN (01 R27 to R29) -/

theorem setDomain_kept {k n v} (h : Kept s₀ s) : Kept s₀ (setDomain k n v s) := h

theorem domainOff_kept {k n} (h : Kept s₀ s) : Kept s₀ (domainOff k n s) := by
  unfold domainOff
  split
  · exact setDomain_kept (modCore_kept h)
  · exact setDomain_kept (cmoWhere_kept h)
  · exact setDomain_kept (modPort_kept (leaveUp_kept (departNotices_kept h)))
  · exact setDomain_kept h

theorem domainOn_kept {k n} (h : Kept s₀ s) : Kept s₀ (domainOn k n s) := by
  unfold domainOn
  dsimp only
  split
  · exact setDomain_kept (modCore_kept h)
  · exact setDomain_kept (cmoWhere_kept h)
  · exact .ite (leaveUp_kept (setDomain_kept h)) (setDomain_kept h)
  · exact setDomain_kept h

theorem domainH_kept {q} (h : Kept s₀ s) : KeptReply s₀ (domainH q s) :=
  checked_kept (.ok (.ite h (unitChanged_kept (.ite (domainOff_kept h) (domainOn_kept h)))))

/-! ## Machine/Host.lean -/

/-! ### The window (R423, R424) -/

theorem bar4Write_kept {fn off data ep} (h : Kept s₀ s) : Kept s₀ (bar4Write fn off data ep s) := by
  unfold bar4Write
  dsimp only
  refine .ite h ?_
  split
  · exact hostErr_kept h
  · exact .ite (hostErr_kept (.foldl (fun _ _ h1 => lineWriteAlloc_kept (lineRead_kept h1)) (dpaHostWrite_kept h))) (dpaHostWrite_kept h)

theorem bar4Read_kept {fn off len} (h : Kept s₀ s) : Kept s₀ (bar4Read fn off len s) := by
  unfold bar4Read
  dsimp only
  refine .ite h ?_
  split
  · exact emit_kept (hostErr_kept h)
  · exact .ite (emit_kept (hostErr_kept (dpaRead_kept h))) (emit_kept (dpaRead_kept h))

/-! ### Cache maintenance of the host (R434, R436) -/

theorem cmoGo_kept {op fn tag rsv} (h : Kept s₀ s) : Kept s₀ (cmoGo op fn tag rsv s) := by
  unfold cmoGo
  extract_lets s1 c n d bad
  have h1 : Kept s₀ s1 := .ite h (rsvWrite_kept h)
  refine .ite h (.ite (hostErr_kept h1) ?_)
  clear_value bad
  split
  · exact modFn_kept h1
  · exact modFn_kept h1

theorem cmoDone_kept {fn} (h : Kept s₀ s) : Kept s₀ (cmoDone fn s) := by
  unfold cmoDone
  dsimp only
  split
  · exact h
  · exact hiSet_kept (modFn_kept (cmoWhere_kept h))

/-! ### Function level reset (R422) -/

theorem flrVf_kept {v} (h : Kept s₀ s) : Kept s₀ (flrVf v s) :=
  modFn_kept (.foldl (fun _ _ h1 => .ite (modSess_kept h1) (endReq_kept h1)) (.foldl (fun _ _ h1 => dropBacklog_kept (modRing_kept h1)) h))

theorem execVfEnableClear_kept (h : Kept s₀ s) : KeptOut s₀ (execVfEnableClear s) :=
  Kept.ite (Kept.foldl (fun _ _ => flrVf_kept) h) h

/-! ## Machine/ModelCmd.lean -/

/-! ### LOAD -/

theorem modelLoadH_kept {q} (h : Kept s₀ s) : KeptReply s₀ (modelLoadH q s) := checked_kept (.op (modPart_kept h))

theorem readImages_kept {p pay} (h : Kept s₀ s) : Kept s₀ (readImages p pay s).1 := by
  unfold readImages
  refine .foldl_fst (fun _ _ h1 => ?_) h
  split
  · next e => exact KeptRes.of e (vaRead_kept h1)
  · next e _ => exact KeptRes.of e (vaRead_kept h1)
  · next e => exact KeptRes.of e (vaRead_kept h1)

theorem loadImages_kept {p pay weights ds} (h : Kept s₀ s) : Kept s₀ (loadImages p pay weights ds s).1 := by
  unfold loadImages
  dsimp only
  split
  · exact h
  · split
    · exact h
    · exact scuDomains_kept (modPart_kept h)

theorem modelLoadDone_kept {p weights} (h : Kept s₀ s) : Kept s₀ (modelLoadDone p weights s) := by
  unfold modelLoadDone
  dsimp only
  split
  · exact h
  · refine .ite h ?_
    split
    · exact endOps_kept (readImages_kept (modPart_kept h))
    · exact endOps_kept (loadImages_kept (readImages_kept (modPart_kept h)))

/-! ### UNLOAD, RETAIN, INFO -/

theorem modelUnloadH_kept {q} (h : Kept s₀ s) : KeptReply s₀ (modelUnloadH q s) := checked_kept (.ok (scuDomains_kept (modPart_kept h)))

theorem retainH_kept {q} (h : Kept s₀ s) : KeptReply s₀ (retainH q s) := checked_kept (.ok h)

theorem modelInfoH_kept {q} (h : Kept s₀ s) : KeptReply s₀ (modelInfoH q s) := checked_kept (.ok h)

/-! ### Mirrors and reloads (12 R338, R339) -/

theorem copyPage_kept {src dst} (h : Kept s₀ s) : Kept s₀ (copyPage src dst s) := by
  unfold copyPage
  dsimp only
  refine .foldl (fun _ _ h1 => ?_) (fillPage_kept (cmoWhere_kept h))
  split
  · exact stackWrite_kept (stackRead_kept h1)
  · exact h1

theorem modelMirrorH_kept {q} (h : Kept s₀ s) : KeptReply s₀ (modelMirrorH q s) := checked_kept (.op (modPart_kept h))

theorem mirrorDone_kept {p} (h : Kept s₀ s) : Kept s₀ (mirrorDone p s) := by
  unfold mirrorDone
  dsimp only
  split
  · exact h
  · exact .ite h (endOps_kept (.ite (.foldl (fun _ _ h1 => copyPage_kept h1) (modPart_kept h)) (modPart_kept h)))

theorem reloadedH_kept {q} (h : Kept s₀ s) : KeptReply s₀ (reloadedH q s) := checked_kept (.ok (modPart_kept h))

/-! ## Machine/SessCmd.lean -/

/-! ### OPEN and CLOSE -/

theorem sessOpenH_kept {q} (h : Kept s₀ s) : KeptReply s₀ (sessOpenH q s) :=
  checked_kept (.ok (.ite (placeDir_kept (modSess_kept h)) (modSess_kept h)))

theorem mirrorClose_kept {n} (h : Kept s₀ s) : Kept s₀ (mirrorClose n s) := by
  unfold mirrorClose
  dsimp only
  split
  · exact .ite (sendTo_kept h) h
  · exact h

theorem sessCloseH_kept {q} (h : Kept s₀ s) : KeptReply s₀ (sessCloseH q s) :=
  checked_kept (.ok (modSess_kept (modPart_kept (mirrorClose_kept h))))

/-! ### SETTINGS (09 R234, R260; 13 R346) -/

theorem mirrorSet_kept {n was} (h : Kept s₀ s) : Kept s₀ (mirrorSet n was s) :=
  .ite (mirrorSend_kept (modSess_kept h)) (.ite (mirrorSend_kept h) (.ite (modSess_kept h) h))

theorem settingsH_kept {q} (h : Kept s₀ s) : KeptReply s₀ (settingsH q s) := by
  unfold settingsH
  exact checked_kept (.ok (mirrorSet_kept (modSess_kept h)))

/-! ### READ and LOG -/

theorem sessReadH_kept {q} (h : Kept s₀ s) : KeptReply s₀ (sessReadH q s) := .ok h

theorem sessLogH_kept {q} (h : Kept s₀ s) : KeptReply s₀ (sessLogH q s) := checked_kept (.ok h)

/-! ### Adoption (13 R349) -/

theorem adoptH_kept {q} (h : Kept s₀ s) : KeptReply s₀ (adoptH q s) := checked_kept (.op (sendTo_kept h))

theorem adoptDone_kept {op copies} (h : Kept s₀ s) : Kept s₀ (adoptDone op copies s) := by
  unfold adoptDone
  split
  · exact h
  · extract_lets _ r
    have h1 : Kept s₀ r.1 := by
      refine .foldl_fst (fun _ _ h1 => ?_) h
      split
      · exact .ite_fst (mirrorSet_kept (.ite (placeDir_kept (modSess_kept h1)) (modSess_kept h1))) h1
      · exact h1
    exact opDone_kept h1

/-! ## Machine/Integrity.lean -/

/-! ### Scrub and write-back (R327) -/

theorem poisonFound_kept {c off} (h : Kept s₀ s) : Kept s₀ (poisonFound c off s) := by
  unfold poisonFound
  dsimp only
  split
  · exact loseSessionsEv_kept (checkRecords_kept h)
  · exact checkRecords_kept h

theorem correctiveWriteBack_kept {c} (h : Kept s₀ s) : Kept s₀ (correctiveWriteBack c s) := by
  unfold correctiveWriteBack
  split
  · exact h
  · refine .ite h ?_
    split
    · exact stackWrite_kept h
    · exact modChan_kept h

/-! ### Spares (R330, R333) -/

theorem willPend_kept {kind n} (h : Kept s₀ s) : Kept s₀ (willPend kind n s) := by
  unfold willPend
  split
  · exact h
  · exact h
  · exact h

theorem noSpare_kept {kind n r} (h : Kept s₀ s) : Kept s₀ (noSpare kind n r s) :=
  .ite (.foldl (fun _ _ => partEvent_kept) (recordErr_kept (willPend_kept h))) (recordErr_kept (willPend_kept h))

theorem disableWay_kept {n st w r} (h : Kept s₀ s) : Kept s₀ (disableWay n st w r s) := by
  unfold disableWay
  dsimp only
  have h1 : Kept s₀ (match heldIn s n st w with
    | some (L, ln) => evict L ln s
    | none => s) := by
    split
    · exact evict_kept h
    · exact h
  exact .ite (noSpare_kept h1) (recordErr_kept h1)

theorem backgroundTest_kept {n bad} (h : Kept s₀ s) : Kept s₀ (backgroundTest n bad s) :=
  .ite h (settleFree_kept (.foldl (fun _ _ => disableWay_kept) (.foldl (fun _ _ => checkLine_kept) h)))

theorem testChan_kept {c fails} (h : Kept s₀ s) : Kept s₀ (testChan c fails s) := by
  refine .ite (.ite (noSpare_kept h) h) ?_
  split
  · exact h
  · exact .ite (recordErr_kept h) (.ite (recordErr_kept (modChan_kept h)) (noSpare_kept h))

theorem testSlice_kept {n fails} (h : Kept s₀ s) : Kept s₀ (testSlice n fails s) := by
  unfold testSlice
  dsimp only
  split
  · exact h
  · exact .ite (recordErr_kept h) (disableWay_kept h)

theorem testCore_kept {n fails} (h : Kept s₀ s) : Kept s₀ (testCore n fails s) := by
  unfold testCore
  dsimp only
  split
  · exact h
  · exact .ite (recordErr_kept (modCore_kept h)) (noSpare_kept (modCore_kept h))

theorem smallError_kept {kind n} (h : Kept s₀ s) : Kept s₀ (smallError kind n s) := recordErr_kept h

theorem laneFault_kept {n} (h : Kept s₀ s) : Kept s₀ (laneFault n s) :=
  .ite h (.ite (recordErr_kept h) (failDevice_kept (recordErr_kept h)))

theorem testSram_kept {kind n fails} (h : Kept s₀ s) : Kept s₀ (testSram kind n fails s) := by
  unfold testSram
  split
  · exact .ite (laneFault_kept h) (smallError_kept h)
  · exact .ite h (.ite (noSpare_kept h) (smallError_kept h))
  · exact .ite (failDevice_kept (recordErr_kept h)) (smallError_kept h)
  · exact .ite (unwrittenRead_kept h) (.ite (recordErr_kept h) (smallError_kept h))
  · exact .ite (unwrittenRead_kept h) (.ite (recordErr_kept h) (smallError_kept h))

theorem targetedTest_kept {kind n fails} (h : Kept s₀ s) : Kept s₀ (targetedTest kind n fails s) := by
  unfold targetedTest
  refine settleFree_kept ?_
  split
  · exact .ite (testChan_kept h) h
  · exact .ite (testSlice_kept h) h
  · exact .ite (testCore_kept h) h
  · exact .ite h (testSram_kept h)

/-! ### Weight pages (R339) -/

theorem readPage_kept {g} (h : Kept s₀ s) : Kept s₀ (readPage g s) := by
  unfold readPage
  refine .foldl (fun _ _ h1 => ?_) h
  split
  · exact .ite h1 (stackRead_kept h1)
  · exact h1

theorem readyRepair_kept {g m} (h : Kept s₀ s) : Kept s₀ (readyRepair g m s) := readPage_kept (cmoWhere_kept (cmoWhere_kept h))

theorem copyMirror_kept {m g} (h : Kept s₀ s) : Kept s₀ (copyMirror m g s) := by
  unfold copyMirror
  dsimp only
  refine .foldl (fun _ _ h1 => ?_) h
  split
  · exact stackWrite_kept (stackRead_kept h1)
  · exact h1

theorem askReload_kept {p g} (h : Kept s₀ s) : Kept s₀ (askReload p g s) := pevtSet_kept (recordErr_kept (modPart_kept h))

theorem weightRepair_kept {p} (h : Kept s₀ s) : Kept s₀ (weightRepair p s) := by
  unfold weightRepair
  extract_lets pt
  split
  · exact h
  · refine .ite h ?_
    dsimp only
    split
    · exact .ite (askReload_kept (readyRepair_kept h)) (recordErr_kept (copyMirror_kept (readyRepair_kept h)))
    · exact askReload_kept h

/-! ### The failure of a channel (03 R84, 04 R113) -/

theorem loseScu_kept {c} (h : Kept s₀ s) : Kept s₀ (loseScu c s) :=
  .foldl (fun _ _ h1 => scuHalt_kept (raiseReady_kept h1)) (modChan_kept h)

theorem channelFailure_kept {c} (h : Kept s₀ s) : Kept s₀ (channelFailure c s) := by
  unfold channelFailure
  refine .ite h ?_
  extract_lets _ _ s3
  have h1 : Kept s₀ s3 := .foldl (fun _ _ => loseSessionsEv_kept) (.foldl (fun _ _ => modPart_kept) (modChan_kept (loseScu_kept h)))
  exact checkRecords_kept (pendChannel_kept h1)

/-! ### The map-out of a channel (03 R82, R83) -/

theorem settleLines_kept (h : Kept s₀ s) : Kept s₀ (settleLines s) := .foldl (fun _ _ h1 => .ite h1 (stackWrite_kept (stackRead_kept h1))) h

theorem relay_kept {c} (h : Kept s₀ s) : Kept s₀ (relay c s) := .of_wf (fun _ => relay_keeps_wf c s) (settleLines_kept h) rfl rfl rfl

theorem returnPages_kept {pages} (h : Kept s₀ s) : Kept s₀ (returnPages pages s) := by
  have h1 : Kept s₀ (pages.foldl (fun t g => setOwner g .free t) s) := .foldl (fun _ _ => setOwner_kept) h
  exact h1

theorem takeKvPages_kept {p pages} (h : Kept s₀ s) : Kept s₀ (takeKvPages p pages s) :=
  returnPages_kept (loseSessionsEv_kept (modPart_kept h))

theorem chanOut_kept {c} (h : Kept s₀ s) : Kept s₀ (chanOut c s) := by
  unfold chanOut
  extract_lets s1
  have h1 : Kept s₀ s1 := .foldl (fun _ _ h1 => .ite h1 (takeKvPages_kept h1)) h
  clear_value s1
  exact endMapout_kept (unitChanged_kept (post_kept h1))

theorem mapoutProceed_kept {c} (h : Kept s₀ s) : Kept s₀ (mapoutProceed c s) := .ite h (.ite (post_kept h) (chanOut_kept (relay_kept h)))

/-! ## Machine/Matrix.lean -/

theorem readBlocks_kept {n size as_} (h : Kept s₀ s) : Kept s₀ (readBlocks n size as_ s).1 :=
  .foldl_fst (fun _ _ => storeRead_kept) h

theorem matTile_kept {n m ctl a b c} {t : State × Done} (h : Kept s₀ t.1) : Kept s₀ (matTile n m ctl a b c t).1 := by
  refine storeWrite_kept ?_
  change Kept s₀ (if m.cin = true then _ else (_, _)).1
  exact .ite_fst (storeRead_kept (readBlocks_kept (readBlocks_kept h))) (readBlocks_kept (readBlocks_kept h))

theorem matBody_kept {n e} (h : Kept s₀ s) : KeptRes s₀ (matBody n e s) := by
  unfold matBody
  dsimp only
  refine orReject_kept (loadLoops_kept h) (fun _ h1 => .ok ?_)
  exact .foldl_fst (fun _ _ => matTile_kept) h1

theorem execSync_kept {n q} (h : Kept s₀ s) : KeptOut s₀ (execSync n q s) :=
  onCore_kept (.ite (runEngine_kept (fun _ _ h1 => .ite (.ok h1) (.ok h1)) h) h)

/-! ## Machine/Own.lean -/

theorem okStatus_kept {q} (h : Kept s₀ s) : KeptReply s₀ (okStatus q s) := .ok h

/-! ### Ownership (R371, R372) -/

theorem takeOwner_kept {m} (h : Kept s₀ s) : Kept s₀ (takeOwner m s) := ownChange_kept (renewLease_kept h)

theorem claimH_kept {q} (h : Kept s₀ s) : KeptReply s₀ (claimH q s) := by
  unfold claimH
  split
  · exact .ite .no (okStatus_kept (takeOwner_kept h))
  · exact .ite (okStatus_kept h) .no
  · exact .ite (okStatus_kept h) (.ite (okStatus_kept (takeOwner_kept h)) .no)

theorem handoverH_kept {q} (h : Kept s₀ s) : KeptReply s₀ (handoverH q s) :=
  checked_kept (.ite (okStatus_kept (.ite (ownChange_kept h) h)) (okStatus_kept (ownChange_kept h)))

theorem clearH_kept {q} (h : Kept s₀ s) : KeptReply s₀ (clearH q s) := checked_kept (.ok (modBox_kept h))

/-- POLICY takes a permutation of the three master kinds only (14 R372). -/
theorem policyH_kept {q} (h : Kept s₀ s) : KeptReply s₀ (policyH q s) := by
  unfold policyH
  dsimp only
  cases hrsv : decide (63 < q.f 0 1 ∨ 3 < q.f 1 1) with
  | true => exact .no
  | false =>
    cases hperm : sortNat [fld (q.f 0 1) 1 0, fld (q.f 0 1) 3 2, fld (q.f 0 1) 5 4] != [1, 2, 3] with
    | true => exact .no
    | false =>
      have hsmall : (BitVec.ofNat 6 (q.f 0 1)).toNat = q.f 0 1 := by
        have := of_decide_eq_false hrsv
        rw [BitVec.toNat_ofNat, Nat.mod_eq_of_lt (by omega)]
      obtain ⟨hform, _, hmode⟩ := h
      refine .ok ⟨hform, fun _ => ?_, hmode⟩
      simpa [prioLegal, hsmall] using hperm

theorem resetH_kept {q} (h : Kept s₀ s) : KeptReply s₀ (resetH q s) := checked_kept (.ok (.ite (cutAll_kept h) h))

/-! ## Machine/Side.lean -/

/-! ### MCTP control (R437) -/

theorem control_kept {via payload} (h : Kept s₀ s) : Kept s₀ (control via payload s) := by
  unfold control
  split
  · exact h
  · exact .ite (emit_kept h) h
  · exact emit_kept h

theorem setEndpointId_kept {via op eid} (h : Kept s₀ s) : Kept s₀ (setEndpointId via op eid s) :=
  .ite h (.ite (control_kept h) (control_kept h))

theorem versionSupport_kept {via t} (h : Kept s₀ s) : Kept s₀ (versionSupport via t s) :=
  .ite (control_kept h) (.ite (control_kept h) (control_kept h))

/-! ### SPDM (R439) -/

theorem spdmSend_kept {via payload} (h : Kept s₀ s) : Kept s₀ (spdmSend via payload s) := by
  unfold spdmSend
  split
  · exact .ite (emit_kept h) h
  · exact .ite (emit_kept h) h
  · exact emit_kept h

theorem spdmError_kept {via code} (h : Kept s₀ s) : Kept s₀ (spdmError via code s) := spdmSend_kept h

theorem spdmAnswer_kept {via req rsp} (h : Kept s₀ s) : Kept s₀ (spdmAnswer via req rsp s) := spdmSend_kept h

theorem spdmRow_kept {via k} (hk : ∀ t, Kept s₀ t → Kept s₀ (k t)) (h : Kept s₀ s) : KeptOut s₀ (spdmRow via k s) :=
  Kept.ite (spdmSend_kept h) (hk s h)

theorem execGetVersion_kept {via} (h : Kept s₀ s) : KeptOut s₀ (execGetVersion via s) := by
  refine spdmRow_kept (fun _ h1 => ?_) h
  exact spdmAnswer_kept h1

theorem execGetCapabilities_kept {via ver} (h : Kept s₀ s) : KeptOut s₀ (execGetCapabilities via ver s) :=
  spdmRow_kept (fun _ h1 => .ite (spdmError_kept h1) (.ite (spdmError_kept h1) (spdmAnswer_kept h1))) h

theorem execNegotiateAlgorithms_kept {via asym hash} (h : Kept s₀ s) : KeptOut s₀ (execNegotiateAlgorithms via asym hash s) :=
  spdmRow_kept (fun _ h1 => .ite (spdmError_kept h1) (spdmAnswer_kept h1)) h

theorem spdmReady_kept {via k} (hk : ∀ t, Kept s₀ t → Kept s₀ (k t)) (h : Kept s₀ s) : KeptOut s₀ (spdmReady via k s) :=
  spdmRow_kept (fun t h1 => .ite (hk t h1) (spdmSend_kept h1)) h

theorem execGetCertificate_kept {via slot off len} (h : Kept s₀ s) : KeptOut s₀ (execGetCertificate via slot off len s) :=
  spdmReady_kept (fun _ h1 => .ite (spdmError_kept h1) (spdmAnswer_kept h1)) h

theorem execChallenge_kept {via slot nonce} (h : Kept s₀ s) : KeptOut s₀ (execChallenge via slot nonce s) :=
  spdmReady_kept (fun _ h1 => .ite (spdmError_kept h1) (spdmAnswer_kept h1)) h

theorem execGetMeasurements_kept {via index nonce} (h : Kept s₀ s) : KeptOut s₀ (execGetMeasurements via index nonce s) :=
  spdmReady_kept (fun _ h1 => .ite (spdmError_kept h1) (spdmAnswer_kept h1)) h

/-! ## Machine/TenCmd.lean -/

theorem tenSetH_kept {q} (h : Kept s₀ s) : KeptReply s₀ (tenSetH q s) := checked_kept (.ok (modTen_kept h))

/-! ### Rings -/

theorem ringCreateH_kept {q} (h : Kept s₀ s) : KeptReply s₀ (ringCreateH q s) := checked_kept (.ok (modRing_kept h))

theorem ringEnableH_kept {q} (h : Kept s₀ s) : KeptReply s₀ (ringEnableH q s) := checked_kept (.ok (flushRing_kept (modRing_kept h)))

theorem ringDisableH_kept {q} (h : Kept s₀ s) : KeptReply s₀ (ringDisableH q s) := checked_kept (.ok (dropBacklog_kept (modRing_kept h)))

theorem ringDestroyH_kept {q} (h : Kept s₀ s) : KeptReply s₀ (ringDestroyH q s) := checked_kept (.ok (modRing_kept h))

/-! ### STATUS -/

theorem tenStatusH_kept {q} (h : Kept s₀ s) : KeptReply s₀ (tenStatusH q s) := checked_kept (.ok h)

/-! ## Machine/Regs.lean -/

/-! ### Writes (00 R9) -/

theorem writeReq_kept {o v m} (h : Kept s₀ s) : Kept s₀ (writeReq o v m s) := h

theorem writeVfwin_kept {o v m} (h : Kept s₀ s) : Kept s₀ (writeVfwin o v m s) := h

theorem regWrite_kept {f r v m} (h : Kept s₀ s) : Kept s₀ (regWrite f r v m s) := by
  unfold regWrite
  dsimp only
  split
  · exact .ite (modFn_kept h) (.ite (.ite (modFn_kept h) (msix_kept (modFn_kept h)))
      (.ite h (.ite h (.ite h (.ite (writeVfwin_kept h) h)))))
  · exact .ite (writeReq_kept h) (.ite (.ite (.ite (sbSet_kept h) (latch_kept h)) h) (.ite (modBox_kept h) h))
  · exact .ite h h
  · exact .ite h h
  · exact .ite (modFn_kept h) h
  · exact .ite (emit_kept (modFn_kept (modFn_kept h))) (modFn_kept h)
  · exact h

theorem bar0Write_kept {f off n v} (h : Kept s₀ s) : Kept s₀ (bar0Write f off n v s) :=
  .ite (rsvWrite_kept (.foldl (fun _ _ => regWrite_kept) h)) (.foldl (fun _ _ => regWrite_kept) h)

theorem registerWrite_kept {f bar off n v} (h : Kept s₀ s) : Kept s₀ (registerWrite f bar off n v s) := by
  unfold registerWrite
  refine .ite h ?_
  split
  · exact .ite (bar0Write_kept h) h
  · exact .ite (.ite (rsvWrite_kept h) h) h
  · exact h

/-! ## Machine/Start.lean -/

/-! ### Resets (13 R353, 15 R388, R389) -/

theorem afterReset_kept {k cause} (h : Kept s₀ s) : Kept s₀ (afterReset k cause s) :=
  .of_wf (keptMem_keeps_wf k s.mem) h rfl rfl rfl

theorem supplyLoss_kept {aon} (h : Kept s₀ s) : Kept s₀ (supplyLoss aon s) := by
  have h1 : Kept s₀ (afterReset .cold 0 s) := afterReset_kept h
  exact .ite h1 (.ite h1 h)

theorem warmReset_kept {cause flushDone} (h : Kept s₀ s) : Kept s₀ (warmReset cause flushDone s) :=
  afterReset_kept (cause := cause) (.ite (cmoWhere_kept (departNotices_kept h)) (departNotices_kept h))

theorem resetTo_kept {k cause flushDone} (h : Kept s₀ s) : Kept s₀ (resetTo k cause flushDone s) :=
  .ite (warmReset_kept h) (afterReset_kept (departNotices_kept h))

/-! ### The images (13 R356, 15 R393) -/

theorem takeStaged_kept (h : Kept s₀ s) : Kept s₀ (takeStaged s) := .ite h h

theorem deviceWatchdog_kept {flushDone} (h : Kept s₀ s) : Kept s₀ (deviceWatchdog flushDone s) := by
  have h1 : ∀ k, Kept s₀ (afterReset k 2 (takeStaged s)) := fun k => afterReset_kept (takeStaged_kept h)
  exact .ite h (.ite (h1 _) (resetTo_kept h))

theorem bootImage_kept {t} (h : Kept s₀ s) (e : bootImage s = some t) : Kept s₀ t := by
  unfold bootImage at e
  dsimp only at e
  repeat' split at e
  all_goals cases e
  all_goals exact h

/-! ### The start (15 R390) -/

theorem writeDir_kept {n} (h : Kept s₀ s) : Kept s₀ (writeDir n s) := by
  unfold writeDir
  dsimp only
  split
  · exact h
  · exact .ite h (ownWrite_kept h)

theorem startRecords_kept {f t} (h : Kept s₀ s) : Kept s₀ (startRecords f t s) :=
  .foldl (fun _ _ => recordErr_kept) (.foldl (fun _ _ => recordErr_kept) h)

theorem postAll_kept {code} (h : Kept s₀ s) : Kept s₀ (postAll code s) := postRec_kept h

theorem catchUp_kept (h : Kept s₀ s) : Kept s₀ (catchUp s) := h

theorem startRestore_kept {f} (h : Kept s₀ s) : Kept s₀ (startRestore f s) := by
  unfold startRestore
  extract_lets u
  refine syncPeers_kept (scuDomains_kept (.foldl (fun _ _ => writeDir_kept) (catchUp_kept ?_)))
  refine .of_wf ?_ h rfl rfl rfl
  exact startMem_keeps_wf f s

theorem ramCheck_kept {f} (h : Kept s₀ s) : Kept s₀ (ramCheck f s) := .ite h (unwrittenRead_kept h)

theorem startReport_kept {f t} (h : Kept s₀ s) : Kept s₀ (startReport f t s) := by
  unfold startReport
  extract_lets s1 s2 s3 s4 s5 s6
  have h1 : Kept s₀ s1 := settleFree_kept (retireCheck_kept (startRecords_kept h))
  have h2 : Kept s₀ s2 := ramCheck_kept (.ite h1 (goDegraded_kept h1))
  have h3 : Kept s₀ s3 := .ite (failDevice_kept h2) h2
  have h4 : Kept s₀ s4 := .ite (postAll_kept h3) h3
  have h5 : Kept s₀ s5 := postAll_kept h4
  have h6 : Kept s₀ s6 := .ite h5 (postAll_kept h5)
  exact h6

theorem startRun_kept {f} (h : Kept s₀ s) : Kept s₀ (startRun f s) := by
  unfold startRun
  refine .ite h (.ite h ?_)
  split
  · exact h
  next s1 e =>
    have h1 : Kept s₀ s1 := bootImage_kept (takeStaged_kept h) e
    exact .ite h1 (startReport_kept (startRestore_kept h1))

theorem startRow_kept {f} (h : Kept s₀ s) : Kept s₀ (startRow f s) := by
  unfold startRow
  refine .ite (.ite h (startRun_kept h)) ?_
  split
  · exact .ite (resetTo_kept h) h
  · exact h

/-! ### The Signal Box (13 R354, R358, R359) -/

theorem sbRestart_kept (h : Kept s₀ s) : Kept s₀ (sbRestart s) :=
  .ite h (.ite (goDegraded_kept (.foldl (fun _ _ => sbSet_kept) h)) (.foldl (fun _ _ => sbSet_kept) h))

theorem sbRestarted_kept (h : Kept s₀ s) : Kept s₀ (sbRestarted s) := .ite h (.foldl (fun _ _ h1 => .ite (respond_kept h1) h1) h)

/-! ## Machine/Dispatch.lean -/

theorem exec_kept {i} (h : Kept s₀ s) : KeptOut s₀ (exec i s) := by
  cases i with
  | matmul => exact onCore_kept (runEngine_kept (fun _ _ => matBody_kept) h)
  | eltwise => exact onCore_kept (runEngine_kept (fun _ _ => eltBody_kept) h)
  | reduce => exact onCore_kept (runEngine_kept (fun _ _ => redBody_kept) h)
  | combine => exact onCore_kept (runEngine_kept (fun _ _ => combBody_kept) h)
  | move => exact onCore_kept (runEngine_kept (fun _ _ => moveBody_kept) h)
  | dispatch => exact execDispatch_kept h
  | dispatchWait => exact execDispatchWait_kept h
  | cmo => exact onCore_kept (runEngine_kept (fun _ _ => cmoBody_kept) h)
  | atomic => exact onCore_kept (runEngine_kept (fun _ _ => atomicBody_kept) h)
  | layout => exact onCore_kept (runEngine_kept (fun _ _ => layoutBody_kept) h)
  | scaleExpand => exact onCore_kept (runEngine_kept (fun _ _ => expandBody_kept) h)
  | sync => exact execSync_kept h
  | haltNotice => exact execHaltNotice_kept h
  | haltComplete => exact onPart_kept (.next (haltComplete_kept h))
  | sbTimeout => exact onCore_kept (.ite (timeoutEff_kept h) h)
  | stopCount => exact onCore_kept (.ite (haltCore_kept h) h)
  | bankStateEffect => exact execBankStateEffect_kept h
  | pushResumes => exact execPushResumes_kept h
  | waitResumes => exact execWaitResumes_kept h
  | alu | movz | movk | slot | mapch => exact onCore_kept (runInsn_kept (fun _ _ => setRd_kept) h)
  | addi | andi | ori | xori | shli | shri | sari | slti => exact onCore_kept (runInsn_kept (fun _ _ => immEff_kept) h)
  | ldc => exact execLdc_kept h
  | stc => exact execStc_kept h
  | lds => exact execLds_kept h
  | sts => exact execSts_kept h
  | beq | bne | blt | bge | bltu | bgeu => exact branch_kept h
  | jal | jalr | pset | pins | padd | wait | bank | endPart => exact onCore_kept (runInsn_kept (fun _ _ => modCore_kept) h)
  | tpl => exact execTpl_kept h
  | push => exact onCore_kept (runInsn_kept (fun _ _ h1 => .ite (modCore_kept h1) (modCore_kept h1)) h)
  | incr => exact onCore_kept (runInsn_kept (fun _ _ h1 => .ite (incrRemote_kept (modCore_kept h1)) (incr_kept (modCore_kept h1))) h)
  | idSel => exact onCore_kept (runInsn_kept (fun _ _ h1 => setRd_kept (.ite h1 h1)) h)
  | insnUndef => exact onCore_kept (runInsn_kept (fun _ _ h1 => h1) h)
  | gemv | gather => exact onChan_kept (runScu_kept (fun _ _ h1 => writeResults_kept (sweep_kept h1)) h)
  | attn => exact onChan_kept (runScu_kept (fun _ _ h1 => writeResults_kept (.foldl_fst (fun _ _ => sweep_kept) h1)) h)
  | scuCopy => exact onChan_kept (runScu_kept (fun _ _ h1 => scuWrite_kept (sweep_kept h1)) h)
  | scuFill => exact onChan_kept (runScu_kept (fun _ _ => scuWrite_kept) h)
  | scuConvert => exact onChan_kept (runScu_kept (fun _ _ => convWork_kept) h)
  | scuElem => exact onChan_kept (runScu_kept (fun _ _ h1 => regionWrite_kept (sweep_kept h1)) h)
  | scuStatus | scuFence => exact onChan_kept (statusOnly_kept h)
  | refresh => exact execRefresh_kept h
  | stepLaunch => exact onPart_kept (.next (stepLaunch_kept h))
  | kernelEnd => exact onPart_kept (.next (kernelEnd_kept h))
  | pointsDecide => exact onPart_kept (.next (pointsDecide_kept h))
  | epochRefill | smbusLineTimeout | powerBrakeRelease | pcieLinkDown => exact .next h
  | turn => exact onRing_kept (.next (turnRow_kept h))
  | cancel => exact onRing_kept (.next (cancelRow_kept h))
  | irqTime => exact onRing_kept (.next (.ite (ringSignal_kept (timeTo_kept h)) h))
  | stepOverrun => exact onPart_kept (.next (stepOverrun_kept h))
  | coreIsolated => exact onCore_kept (coreIsolated_kept h)
  | submissionDoorbell | completionDoorbell => exact onFn_kept (onRing_kept (.next (doorbell_kept h)))
  | hostFlush | hostFlushInv | hostInv => exact onFn_kept (.next (cmoGo_kept h))
  | cmoDone => exact onFn_kept (.next (cmoDone_kept h))
  | bar4Write => exact onFn_kept (.next (bar4Write_kept h))
  | bar4Read => exact onFn_kept (.next (bar4Read_kept h))
  | hiImaskWrite => exact onFn_kept (.next (.ite (bar0Write_kept h) h))
  | registerWrite => exact onFn_kept (.next (registerWrite_kept h))
  | flr => exact onFn_kept (.next (.ite h (flrVf_kept h)))
  | vfEnableClear => exact execVfEnableClear_kept h
  | ownStatus | renew => exact mail_kept (fun _ _ => okStatus_kept) h
  | claim => exact mail_kept (fun _ _ => claimH_kept) h
  | handover => exact mail_kept (fun _ _ => handoverH_kept) h
  | release => exact mail_kept (fun _ _ h1 => .ok (ownChange_kept h1)) h
  | ownClear => exact mail_kept (fun _ _ => clearH_kept) h
  | policy => exact mail_kept (fun _ _ => policyH_kept) h
  | ownReset => exact mail_kept (fun _ _ => resetH_kept) h
  | leaseWarn => exact .next (.ite h (sbSet_kept (timeTo_kept h)))
  | leaseExpired => exact .next (.ite h (ownChange_kept h))
  | handoverTimeout => exact .next (.ite (ownChange_kept h) h)
  | partCreate => exact mail_kept (fun _ _ => partCreateH_kept) h
  | partUnits => exact mail_kept (fun _ _ => partUnitsH_kept) h
  | partDestroy => exact mail_kept (fun _ _ => partDestroyH_kept) h
  | param => exact mail_kept (fun _ _ => paramH_kept) h
  | share => exact mail_kept (fun _ _ => shareH_kept) h
  | rowMode => exact mail_kept (fun _ _ => rowModeH_kept) h
  | pages => exact mail_kept (fun _ _ => pagesH_kept) h
  | pageFreed => exact onUnit_kept (.next (.ite (fillPage_kept h) h))
  | map => exact mail_kept (fun _ _ => mapH_kept) h
  | unmap => exact mail_kept (fun _ _ => unmapH_kept) h
  | unmapDone => exact onPart_kept (.next (.ite (endOps_kept (modPart_kept h)) h))
  | kvPool => exact mail_kept (fun _ _ => kvPoolH_kept) h
  | partStart => exact mail_kept (fun _ _ => partStartH_kept) h
  | partDrain => exact mail_kept (fun _ _ => partDrainH_kept) h
  | drainDone =>
    exact onPart_kept (.next (.ite (endOps_kept (.foldl (fun _ _ => sliceOut_kept) (.foldl (fun _ _ => coreOut_kept) (modPart_kept h)))) h))
  | partResume => exact mail_kept (fun _ _ => partResumeH_kept) h
  | partAbort => exact mail_kept (fun _ _ => partAbortH_kept) h
  | partStatus => exact mail_kept (fun _ _ => partStatusH_kept) h
  | modelLoad => exact mail_kept (fun _ _ => modelLoadH_kept) h
  | modelLoadDone => exact onPart_kept (.next (modelLoadDone_kept h))
  | modelUnload => exact mail_kept (fun _ _ => modelUnloadH_kept) h
  | retain => exact mail_kept (fun _ _ => retainH_kept) h
  | modelMirror => exact mail_kept (fun _ _ => modelMirrorH_kept) h
  | mirrorDone => exact onPart_kept (.next (mirrorDone_kept h))
  | reloaded => exact mail_kept (fun _ _ => reloadedH_kept) h
  | modelInfo => exact mail_kept (fun _ _ => modelInfoH_kept) h
  | tenSet => exact mail_kept (fun _ _ => tenSetH_kept) h
  | ringCreate => exact mail_kept (fun _ _ => ringCreateH_kept) h
  | ringEnable => exact mail_kept (fun _ _ => ringEnableH_kept) h
  | ringDisable => exact mail_kept (fun _ _ => ringDisableH_kept) h
  | ringDestroy => exact mail_kept (fun _ _ => ringDestroyH_kept) h
  | tenStatus => exact mail_kept (fun _ _ => tenStatusH_kept) h
  | sessOpen => exact mail_kept (fun _ _ => sessOpenH_kept) h
  | settings => exact mail_kept (fun _ _ => settingsH_kept) h
  | sessClose => exact mail_kept (fun _ _ => sessCloseH_kept) h
  | sessRead => exact mail_kept (fun _ _ => sessReadH_kept) h
  | sessLog => exact mail_kept (fun _ _ => sessLogH_kept) h
  | adopt => exact mail_kept (fun _ _ => adoptH_kept) h
  | adoptDone => exact .next (adoptDone_kept h)
  | floorplan => exact mail_kept (fun _ _ => floorplanH_kept) h
  | sensors => exact mail_kept (fun _ _ => sensorsH_kept) h
  | telEvents | fabEvents => exact mail_kept (fun _ _ => eventsH_kept) h
  | powerLimit => exact mail_kept (fun _ _ => powerLimitH_kept) h
  | intRecords => exact mail_kept (fun _ _ => intRecordsH_kept) h
  | chkMode => exact mail_kept (fun _ _ => chkModeH_kept) h
  | mapout => exact execMapout_kept h
  | mapoutProceed => exact onUnit_kept (.next (mapoutProceed_kept h))
  | spares => exact mail_kept (fun _ _ => sparesH_kept) h
  | fwInfo => exact mail_kept (fun _ _ => fwInfoH_kept) h
  | stageWrite => exact mail_kept (fun _ _ => stageWriteH_kept) h
  | stageVerify => exact mail_kept (fun _ _ h1 => .op h1) h
  | stageVerifyDone => exact .next (stageVerifyDone_kept h)
  | activate => exact mail_kept (fun _ _ => activateH_kept) h
  | fabIdentity => exact mail_kept (fun _ _ => identityH_kept) h
  | route => exact mail_kept (fun _ _ => routeH_kept) h
  | fabTime => exact mail_kept (fun _ _ => fabTimeH_kept) h
  | fabPort => exact mail_kept (fun _ _ => fabPortH_kept) h
  | buddy => exact mail_kept (fun _ _ => buddyH_kept) h
  | grant => exact mail_kept (fun _ _ => grantH_kept) h
  | groupForm => exact mail_kept (fun _ _ => groupFormCmd_kept) h
  | groupRelease => exact mail_kept (fun _ _ => groupReleaseH_kept) h
  | fabStatus => exact mail_kept (fun _ _ => fabStatusH_kept) h
  | diagLaunch => exact mail_kept (fun _ _ => diagLaunchH_kept) h
  | readStore => exact mail_kept (fun _ _ => readStoreH_kept) h
  | readScoreboard => exact mail_kept (fun _ _ => readScoreboardH_kept) h
  | inject => exact mail_kept (fun _ _ => injectH_kept) h
  | rawRead => exact mail_kept (fun _ _ => rawReadH_kept) h
  | diagDomain => exact mail_kept (fun _ _ => domainH_kept) h
  | mgmtRequestDiscard => exact .next (.ite (sbSet_kept h) h)
  | setEndpointId => exact .next (setEndpointId_kept h)
  | getEndpointId | getEndpointUuid | getMessageTypeSupport | getVendorDefinedMessageSupport => exact .next (control_kept h)
  | getMctpVersionSupport => exact .next (versionSupport_kept h)
  | i3cDynamicAddress | pcieLinkL0 => exact .next (.ite h h)
  | getVersion => exact execGetVersion_kept h
  | getCapabilities => exact execGetCapabilities_kept h
  | negotiateAlgorithms => exact execNegotiateAlgorithms_kept h
  | getDigests => exact spdmReady_kept (fun _ => spdmAnswer_kept) h
  | getCertificate => exact execGetCertificate_kept h
  | challenge => exact execChallenge_kept h
  | getMeasurements => exact execGetMeasurements_kept h
  | portSignalDetect => exact onPort_kept (.next (portSignalDetect_kept h))
  | trainFailed => exact onPort_kept (.next (.ite (jnSet_kept (post_kept (leaveUp_kept h))) h))
  | laneBad => exact onPort_kept (onUnit_kept (.next (.ite (restripe_kept h) h)))
  | laneRetrain => exact onPort_kept (.next (laneRetrain_kept h))
  | codewordReplay => exact execCodewordReplay_kept h
  | linkKeepalive => exact onPort_kept (.next (.ite (sendLink_kept h) h))
  | peerKeepalive => exact .next (.foldl (fun _ _ => sendNotice_kept) h)
  | peerDead => exact .next (peerDead_kept h)
  | peerDeadNotice => exact .next (loseDevice_kept (deadNotices_kept h))
  | departureNotice => exact .next (loseDevice_kept h)
  | abandonNotice => exact .next (.foldl (fun _ _ => breakGroup_kept) h)
  | packetForward => exact onPort_kept (onUnit_kept (.next (packetForward_kept h)))
  | nack => exact onPart_kept (.next (sendWaiting_kept (wake_kept (failReq_kept h))))
  | timeExchange => exact onPort_kept (.next (timeExchange_kept h))
  | holdover => exact .next (holdover_kept h)
  | groupFormationRecord => exact onUnit_kept (.next (formationRecord_kept h))
  | groupTimeout => exact onUnit_kept (.next (groupTimeout_kept h))
  | allReduce | reduceScatter | allGather | allToAll | broadcast | barrier | remoteAtomic => exact onPart_kept (.next (collRow_kept h))
  | collectivePacketArrival => exact onUnit_kept (.next (collArrival_kept h))
  | remoteAtomicArrival => exact onPart_kept (.next (atomicArrival_kept h))
  | collectiveComplete => exact onPart_kept (.next (collComplete_kept h))
  | mirrorEntriesArrival => exact .next (.ite (mirrorArrival_kept h) h)
  | buddyAck => exact onPart_kept (onUnit_kept (.next (.ite h (.ite (modSess_kept (ackSess_kept h)) (ackSess_kept h)))))
  | mirrorAckTimeout => exact onPart_kept (.next (.ite (unprotect_kept h) h))
  | buddySynced => exact onPart_kept (.next (.ite (post_kept (modPart_kept h)) h))
  | patrolScrub =>
    exact onUnit_kept (.next (.ite h (.ite (poisonFound_kept (stackRead_kept (modChan_kept h))) (stackRead_kept (modChan_kept h)))))
  | correctiveWriteBack => exact onUnit_kept (.next (correctiveWriteBack_kept h))
  | backgroundTest => exact onUnit_kept (.next (backgroundTest_kept h))
  | targetedTest => exact onUnit_kept (onUnit_kept (.next (targetedTest_kept h)))
  | weightRepair => exact onPart_kept (.next (weightRepair_kept h))
  | kvPageFreed => exact onUnit_kept (.next (freeKvPage_kept h))
  | channelFailure => exact onUnit_kept (.next (channelFailure_kept h))
  | bridgeLaneFault => exact onUnit_kept (.next (.ite h (.ite h (failDevice_kept h))))
  | powerSample => exact .next (clampStep_kept h)
  | thermalModelUpdate => exact .next (thermalModelUpdate_kept h)
  | diodeCheck => exact .next (diodeCheck_kept h)
  | dutyTick => exact .next (dutyTickRow_kept h)
  | clampRelease => exact execClampRelease_kept h
  | groupAtFloor => exact onUnit_kept (.next (groupAtFloor_kept h))
  | powerBrake => exact .next (.ite h (thSet_kept (post_kept (floorAll_kept h))))
  | thermtrip => exact onUnit_kept (.next (.ite (post_kept (rewriteReport_kept (.foldl (fun _ _ => portEvent_kept) h))) h))
  | pinSample => exact .next (.foldl (fun _ _ h1 => .ite (postRec_kept (.ite h1 (hiSet_kept h1))) h1) h)
  | supplyLoss => exact .next (supplyLoss_kept h)
  | perstNAssert => exact .next (.ite h (.ite (afterReset_kept h) h))
  | deviceWatchdogExpiry => exact .next (deviceWatchdog_kept h)
  | start => exact .next (startRow_kept h)
  | sbWatchdogExpiry | lockstepMismatch => exact .next (sbRestart_kept h)
  | sbRestarted => exact .next (sbRestarted_kept h)
  | sbSelfCheck => exact .next (.ite h (.ite h (goDegraded_kept h)))
  | neighbourArrived => exact onPort_kept (.next (neighbourArrived_kept h))
  | keepaliveReceived => exact .next (modPeer_kept h)
  | remoteAtomicResult => exact onPart_kept (.next (atomicResult_kept h))

/-- Every step keeps both. -/
theorem step_kept {t} (h : step s = .next t) : Kept s t := by
  cases hp : s.pending with
  | nil =>
    cases (step_of_pending_nil hp).symm.trans h
    exact .refl s
  | cons i rest =>
    have hout : KeptOut s (exec i (s.withPending rest)) := exec_kept (.refl s)
    rw [step_of_pending_cons hp] at h
    rw [h] at hout
    exact hout

/-- Settles O5: every operation keeps the form, as the five that write bytes or check bits do (Laws/Memory.lean). -/
theorem memoryFormKept : Obligations.MemoryFormKept := fun _ _ hwf hstep => (step_kept hstep).form hwf

end Sys2Proof.Machine
end


section
/-!
PROOF. What a bank change does and when (03 R79, R80). The banks of its mask are switched one after another; what they leave is read bank by
bank and byte by byte, so their order does not show.
-/

namespace Sys2Proof.Machine

/-! ### Switching banks (R79) -/

theorem spGet?_filter {α : Type} (keep : Nat → Bool) (m : Sp α) (k : Nat) :
    spGet? (m.filter (fun e => keep e.1)) k = if keep k then spGet? m k else none := by
  induction m with
  | nil => simp [spGet?]
  | cons e m ih => by_cases hk : e.1 = k <;> cases hp : keep e.1 <;> simp_all [spGet?]

theorem spGet_filter {α : Type} (d : α) (keep : Nat → Bool) (m : Sp α) (k : Nat) :
    spGet d (m.filter (fun e => keep e.1)) k = if keep k then spGet d m k else d := by
  unfold spGet
  rw [spGet?_filter]
  split <;> rfl

@[simp] theorem switchBank_size (st : BankState) (c : Core) (b : Nat) : (switchBank st c b).size = c.size := by
  unfold switchBank
  split <;> rfl

theorem bankState_switchBank (st : BankState) (c : Core) (b k : Nat) :
    bankState (switchBank st c b) k = if k = b then st else bankState c k := by
  have hbanks : (switchBank st c b).banks = spSet .on c.banks b st := by
    unfold switchBank
    split <;> rfl
  unfold bankState
  rw [hbanks]
  split
  · next h => rw [h, spGet_spSet_same]
  · next h => exact spGet_spSet_other _ _ _ _ _ h

theorem store_switchBank (st : BankState) (c : Core) (b a : Nat) :
    spGet 0 (switchBank st c b).store a = if storeBank c.size a = b ∧ st = .off then 0 else spGet 0 c.store a := by
  unfold switchBank
  by_cases hoff : st = .off
  · rw [if_pos hoff]
    exact (spGet_filter 0 (fun k => storeBank c.size k != b) c.store a).trans (by by_cases hb : storeBank c.size a = b <;> simp [hoff, hb])
  · simp [hoff]

/-- The banks of a list, switched one after another. -/
theorem bankState_switchBanks (st : BankState) (l : List Nat) (c : Core) (k : Nat) :
    bankState (l.foldl (switchBank st) c) k = if k ∈ l then st else bankState c k := by
  induction l generalizing c with
  | nil => simp
  | cons b l ih =>
    rw [List.foldl_cons, ih, bankState_switchBank]
    by_cases hl : k ∈ l <;> simp [hl]

theorem store_switchBanks (st : BankState) (l : List Nat) (c : Core) (a : Nat) :
    spGet 0 (l.foldl (switchBank st) c).store a = if storeBank c.size a ∈ l ∧ st = .off then 0 else spGet 0 c.store a := by
  induction l generalizing c with
  | nil => simp
  | cons b l ih =>
    rw [List.foldl_cons, ih, store_switchBank, switchBank_size]
    by_cases hl : storeBank c.size a ∈ l <;> by_cases hoff : st = .off <;> simp [hl, hoff]

theorem mem_bitsOf_mask (m : BitVec 32) (b : Nat) : b ∈ bitsOf 32 m.toNat ↔ m.getLsbD b = true := by
  simp only [bitsOf, tbit, List.mem_filter, List.mem_range, BitVec.getLsbD]
  refine ⟨And.right, fun h => ⟨Nat.lt_of_not_le fun hb => ?_, h⟩⟩
  have hsmall : m.toNat < 2 ^ b := m.isLt.trans_le (Nat.pow_le_pow_right (by decide) hb)
  simp [Nat.testBit_lt_two_pow hsmall] at h

/-! ### A change and its turn (R80) -/

/-- The core once the oldest change has taken effect. -/
def withChange (r : BankReq) (c : Core) : Core := { (bitsOf 32 r.mask.toNat).foldl (switchBank r.st) c with bankReqs := c.bankReqs.tail }

theorem bankState_withChange (r : BankReq) (c : Core) (b : Nat) :
    bankState (withChange r c) b = if r.mask.getLsbD b then r.st else bankState c b :=
  (bankState_switchBanks r.st _ c b).trans (by simp only [mem_bitsOf_mask])

theorem store_withChange (r : BankReq) (c : Core) (a : Nat) :
    spGet 0 (withChange r c).store a = if r.mask.getLsbD (storeBank c.size a) ∧ r.st = .off then 0 else spGet 0 c.store a :=
  (store_switchBanks r.st _ c a).trans (by simp only [mem_bitsOf_mask])

/-- Every command pushed before the change has completed. -/
def Due (c : Core) (r : BankReq) : Prop := ∀ q, q < 4 → (r.after[q]?).getD 0 ≤ (getEng c q).doneOrd

theorem all_due_iff (c : Core) (r : BankReq) :
    (List.range 4).all (fun q => decide ((r.after[q]?).getD 0 ≤ (getEng c q).doneOrd)) = true ↔ Due c r := by
  simp [Due]

section
variable {n : Nat} {s : State} {r : BankReq} {rest : List BankReq}

theorem bankStateEffect_of_due (hn : n < 144) (hreq : (getCore s n).bankReqs = r :: rest) (hdue : Due (getCore s n) r)
    (hrun : (getCore s n).mode ≠ .halted) : exec (.bankStateEffect n) s = .next (modCore n (withChange r) s) := by
  refine (onUnit_of_lt hn).trans ?_
  rw [hreq]
  exact congrArg _ (if_pos (by rw [(all_due_iff _ _).mpr hdue]; simpa using hrun))

theorem bankStateEffect_of_not_due (hn : n < 144) (hreq : (getCore s n).bankReqs = r :: rest) (hdue : ¬ Due (getCore s n) r) :
    exec (.bankStateEffect n) s = .next s := by
  refine (onUnit_of_lt hn).trans ?_
  rw [hreq]
  exact congrArg _ (if_neg (by rw [← all_due_iff] at hdue; simp [hdue]))

theorem bankReqs_withChange {c : Core} (hreq : c.bankReqs = r :: rest) : (withChange r c).bankReqs = rest := by simp [withChange, hreq]

end

/-- Settles O14: the change switches the banks of its mask, and bytes go with the banks that go Off. -/
theorem bankChangeTakesEffect : Obligations.BankChangeTakesEffect := by
  unfold Obligations.BankChangeTakesEffect
  intro n s r rest hn c hreq hrun hdue
  refine ⟨modCore n (withChange r) s, bankStateEffect_of_due hn hreq hdue hrun, rfl, ?_⟩
  rw [getCore_modCore_same]
  exact ⟨bankReqs_withChange hreq, fun b _ => bankState_withChange r c b, fun a => store_withChange r c a⟩

/-- A command stands behind a waiting change when it was pushed after it. -/
theorem behindBank_iff (c : Core) (q : Nat) (e : QEnt) :
    behindBank c q e = true ↔ ∃ r ∈ c.bankReqs, (r.after[q]?).getD 0 ≤ e.ordinal := by
  simp [behindBank]

theorem readyHead_of_cons {s : State} {n q opc : Nat} {e : QEnt} {rest : List QEnt} (hq : (getEng (getCore s n) q).queue = e :: rest) :
    readyHead s n q opc = if engActive (getCore s n) && fld e.cmd.toNat 5 0 == opc && waitsMet (getCore s n) e.cmd.toNat && !e.waited
      && !behindBank (getCore s n) q e then some e else none := by
  simp only [readyHead, hq]

/-- Settles O24: only what was pushed after a waiting change stands behind it, and the change itself takes its turn by `Due`. -/
theorem bankChangesWaitInOrder : Obligations.BankChangesWaitInOrder := by
  unfold Obligations.BankChangesWaitInOrder
  intro n q s e rest opc hn _ c hq
  refine ⟨fun hbehind => ?_, fun hbefore hact hopc hmet hnew => ?_, fun r rs hreq => ⟨fun hearly => ?_, fun hdue hrun => ?_⟩⟩
  · have hb : behindBank c q e = true := (behindBank_iff c q e).mpr hbehind
    rw [readyHead_of_cons hq, if_neg (by simp [c, hb])]
  · have hb : behindBank c q e = false := by
      rw [Bool.eq_false_iff, ne_eq, behindBank_iff]
      rintro ⟨r, hr, hle⟩
      exact absurd (hbefore r hr) (Nat.not_lt.mpr hle)
    rw [readyHead_of_cons hq, if_pos (by simp [c] at hact hmet hb; simp [hact, hopc, hmet, hnew, hb])]
  · obtain ⟨p, hp, hlt⟩ := hearly
    exact bankStateEffect_of_not_due hn hreq fun hdue => absurd (hdue p hp) (Nat.not_le.mpr hlt)
  · refine ⟨modCore n (withChange r) s, bankStateEffect_of_due hn hreq hdue hrun, ?_⟩
    rw [getCore_modCore_same]
    exact ⟨bankReqs_withChange hreq, fun b _ => bankState_withChange r c b⟩

end Sys2Proof.Machine
end

section
/-!
PROOF. The cache maintenance of the host (17 R436, 03 R75): what GO does on an idle and on a busy SV_CMO, and what the end of an operation
leaves.
-/

namespace Sys2Proof.Machine

/-! ### SV_CMO stands through cache maintenance -/

/-- From s₀ to s the SV_CMO of every function stands: errors found on the way change its flags and counts only. -/
def SameCmo (s₀ s : State) : Prop := ∀ f, (getFn s f).cmo = (getFn s₀ f).cmo

section
variable {s₀ s t : State} {α β : Type} {c : Prop} [Decidable c]

theorem SameCmo.refl (s : State) : SameCmo s s := fun _ => rfl

theorem SameCmo.of_fns (h : SameCmo s₀ s) (e : t.host.fns = s.host.fns) : SameCmo s₀ t := by
  unfold SameCmo getFn
  rw [e]
  exact h

theorem SameCmo.ite (h : SameCmo s₀ s) (k : SameCmo s₀ t) : SameCmo s₀ (if c then s else t) := by
  split
  · exact h
  · exact k

theorem SameCmo.ite_fst {p q : State × α} (h : SameCmo s₀ p.1) (k : SameCmo s₀ q.1) : SameCmo s₀ (if c then p else q).1 := by
  split
  · exact h
  · exact k

theorem SameCmo.foldl {f : State → α → State} {l : List α} (hf : ∀ t x, SameCmo s₀ t → SameCmo s₀ (f t x)) (h : SameCmo s₀ s) :
    SameCmo s₀ (l.foldl f s) := List.foldlRecOn l f h (fun t ht x _ => hf t x ht)

theorem SameCmo.foldl_fst {f : State × β → α → State × β} {l : List α} {a : State × β}
    (hf : ∀ a x, SameCmo s₀ a.1 → SameCmo s₀ (f a x).1) (h : SameCmo s₀ a.1) : SameCmo s₀ (l.foldl f a).1 :=
  List.foldlRecOn (motive := fun a => SameCmo s₀ a.1) l f h (fun a ha x _ => hf a x ha)

theorem SameCmo.of {p q : State × α} (e : p = q) (h : SameCmo s₀ p.1) : SameCmo s₀ q.1 := e ▸ h

end

section
variable {s₀ s : State}

theorem modFn_sameCmo {f g} (hg : ∀ x : HostFn, (g x).cmo = x.cmo) (h : SameCmo s₀ s) : SameCmo s₀ (modFn f g s) := by
  intro k
  by_cases hk : k = f
  · subst hk
    rw [getFn_modFn_same, hg]
    exact h k
  · rw [getFn_modFn_other _ _ _ _ hk]
    exact h k

/-- A change of a function is what it does to that function. -/
theorem modFn_congr {f g g'} (h : g (getFn s f) = g' (getFn s f)) : modFn f g s = modFn f g' s := by
  unfold getFn at h
  simp only [modFn, spMod, h]

theorem msix_sameCmo {f v} (h : SameCmo s₀ s) : SameCmo s₀ (msix f v s) := .ite (modFn_sameCmo (fun _ => rfl) h) h

theorem hiSet_sameCmo {f b} (h : SameCmo s₀ s) : SameCmo s₀ (hiSet f b s) := by
  have h1 := modFn_sameCmo (f := f) (g := fun x => { x with status := x.status ||| bitOf 8 b, evcnt := bump x.evcnt b }) (fun _ => rfl) h
  exact .ite (msix_sameCmo h1) h1

theorem modBox_sameCmo {m g} (h : SameCmo s₀ s) : SameCmo s₀ (modBox m g s) := .ite h (.ite h h)

theorem notify_sameCmo {m b} (h : SameCmo s₀ s) : SameCmo s₀ (notify m b s) := .ite (msix_sameCmo h) (.ite h (.ite h h))

theorem sbSet_sameCmo {m b} (h : SameCmo s₀ s) : SameCmo s₀ (sbSet m b s) := .ite (modBox_sameCmo h) (notify_sameCmo (modBox_sameCmo h))

theorem enqueue_sameCmo {m ev} (h : SameCmo s₀ s) : SameCmo s₀ (enqueue m ev s) := by
  unfold enqueue
  extract_lets _ _ _ s2 s3
  have h2 : SameCmo s₀ s2 := .ite (sbSet_sameCmo (modBox_sameCmo h)) (modBox_sameCmo h)
  have h3 : SameCmo s₀ s3 := .ite h2 h2
  exact sbSet_sameCmo h3

theorem postRec_sameCmo {ev also} (h : SameCmo s₀ s) : SameCmo s₀ (postRec ev also s) :=
  .foldl (fun _ _ h1 => .ite (enqueue_sameCmo h1) h1) h

theorem post_sameCmo {code kind unit} (h : SameCmo s₀ s) : SameCmo s₀ (post code kind unit s) := postRec_sameCmo h

theorem recordErr_sameCmo {r} (h : SameCmo s₀ s) : SameCmo s₀ (recordErr r s) := by
  unfold recordErr
  extract_lets n r1 sb s1 d
  have h1 : SameCmo s₀ s1 := .of_fns h rfl
  clear_value s1
  exact postRec_sameCmo (hiSet_sameCmo h1)

theorem pevtSet_sameCmo {p} (h : SameCmo s₀ s) : SameCmo s₀ (pevtSet p s) := by
  unfold pevtSet
  extract_lets was host s1
  have h1 : SameCmo s₀ s1 := .of_fns h rfl
  exact .ite h1 (hiSet_sameCmo h1)

theorem partEvent_sameCmo {p code} (h : SameCmo s₀ s) : SameCmo s₀ (partEvent p code s) := post_sameCmo (pevtSet_sameCmo h)

theorem pendChannel_sameCmo {c code} (h : SameCmo s₀ s) : SameCmo s₀ (pendChannel c code s) :=
  .ite h (.foldl (fun _ _ => partEvent_sameCmo) (post_sameCmo h))

theorem noteWeightPage_sameCmo {page} (h : SameCmo s₀ s) : SameCmo s₀ (noteWeightPage page s) := by
  unfold noteWeightPage
  split
  · exact h
  · exact .ite h h

theorem noteWeight_sameCmo {chan off} (h : SameCmo s₀ s) : SameCmo s₀ (noteWeight chan off s) := by
  unfold noteWeight
  split
  · exact h
  · exact noteWeightPage_sameCmo h

/-! #### Stack memory -/

theorem chanErr_sameCmo {chan off mis} (h : SameCmo s₀ s) : SameCmo s₀ (chanErr chan off mis s) := by
  unfold chanErr
  extract_lets c es s1
  have h1 : SameCmo s₀ s1 := .of_fns h rfl
  exact .ite h (.ite (pendChannel_sameCmo h1) h1)

theorem dramError_sameCmo {code by_ action corr unc mis delta chan off} (h : SameCmo s₀ s) :
    SameCmo s₀ (dramError code by_ action corr unc mis delta chan off s) :=
  chanErr_sameCmo (recordErr_sameCmo h)

theorem stackWrite_sameCmo {chan off l} (h : SameCmo s₀ s) : SameCmo s₀ (stackWrite chan off l s) := .ite h h

theorem stackRead_sameCmo {by_ chan off} (h : SameCmo s₀ s) : SameCmo s₀ (stackRead by_ chan off s).1 := by
  unfold stackRead
  dsimp only
  refine .ite_fst h ?_
  split
  · exact h
  · exact h
  · exact .of_fns (dramError_sameCmo h) rfl
  · exact dramError_sameCmo h
  · exact .of_fns (noteWeight_sameCmo (dramError_sameCmo h)) rfl

/-! #### The lines of a slice -/

theorem pendSlice_sameCmo {n code} (h : SameCmo s₀ s) : SameCmo s₀ (pendSlice n code s) := .ite h (post_sameCmo h)

theorem sliceError_sameCmo {kind code by_ action corr unc L way byte delta} (h : SameCmo s₀ s) :
    SameCmo s₀ (sliceError kind code by_ action corr unc L way byte delta s) := by
  unfold sliceError
  extract_lets sl st inj q page s1 es cache s2
  have h1 : SameCmo s₀ s1 := recordErr_sameCmo h
  clear_value s1
  have h2 : SameCmo s₀ s2 := .of_fns h1 rfl
  exact .ite h1 (.ite (pendSlice_sameCmo h2) h2)

theorem putLine_sameCmo {L ln} (h : SameCmo s₀ s) : SameCmo s₀ (putLine L ln s) := .of_fns h rfl

theorem dropLine_sameCmo {L} (h : SameCmo s₀ s) : SameCmo s₀ (dropLine L s) := .of_fns h rfl

theorem checkTags_sameCmo {by_ L ln} (h : SameCmo s₀ s) : SameCmo s₀ (checkTags by_ L ln s).1 :=
  .ite_fst h (.ite_fst (putLine_sameCmo (sliceError_sameCmo h))
    (.ite_fst (noteWeightPage_sameCmo (putLine_sameCmo (sliceError_sameCmo h))) (dropLine_sameCmo (sliceError_sameCmo h))))

theorem recordFindings_sameCmo {by_ L ln drop} (h : SameCmo s₀ s) : SameCmo s₀ (recordFindings by_ L ln drop s) := by
  unfold recordFindings
  refine .foldl (fun _ _ h1 => ?_) h
  split
  · exact sliceError_sameCmo h1
  · exact .ite (sliceError_sameCmo h1) (sliceError_sameCmo h1)
  · exact h1

theorem checkData_sameCmo {by_ L ln} (h : SameCmo s₀ s) : SameCmo s₀ (checkData by_ L ln s).1 := by
  unfold checkData
  extract_lets fs bad drop s1 s2
  have h1 : SameCmo s₀ s1 := recordFindings_sameCmo h
  exact .ite_fst h (.ite_fst (dropLine_sameCmo h1) (.ite (noteWeightPage_sameCmo (putLine_sameCmo h1)) (putLine_sameCmo h1)))

theorem checkLine_sameCmo {by_ L ln} (h : SameCmo s₀ s) : SameCmo s₀ (checkLine by_ L ln s).1 := by
  unfold checkLine
  split
  · next e1 => exact .of e1 (checkTags_sameCmo h)
  · next e1 => exact checkData_sameCmo (.of e1 (checkTags_sameCmo h))

theorem writeLine_sameCmo {L ln} (h : SameCmo s₀ s) : SameCmo s₀ (writeLine L ln s) := by
  unfold writeLine
  dsimp only
  split
  · exact h
  · exact .ite (stackWrite_sameCmo h) (stackWrite_sameCmo (stackRead_sameCmo h))

theorem writeBack_sameCmo {L ln} (h : SameCmo s₀ s) : SameCmo s₀ (writeBack L ln s) := by
  unfold writeBack
  split
  · next e1 => exact .of e1 (checkLine_sameCmo h)
  · next s1 ln1 e1 =>
    have h1 : SameCmo s₀ s1 := .of e1 (checkLine_sameCmo h)
    exact writeLine_sameCmo (putLine_sameCmo h1)

theorem cmoLine_sameCmo {op L ln t} (h : SameCmo s₀ t.1) : SameCmo s₀ (cmoLine op L ln t).1 := by
  have h1 := writeBack_sameCmo (L := L) (ln := ln) h
  exact .ite_fst (.ite_fst h1 h) (.ite_fst (.ite_fst h1 h) h)

theorem cmoWhere_sameCmo {op q} (h : SameCmo s₀ s) : SameCmo s₀ (cmoWhere op q s).1 := .foldl_fst (fun _ _ => cmoLine_sameCmo) h

end

/-! ### GO and the end (R436) -/

section
variable {op fn : Nat} {tag : BitVec 32} {s : State}

/-- What keeps an operation from starting: its range, then its pages. -/
def cmoFault (fn : Nat) (s : State) : Option Code :=
  let c := (getFn s fn).cmo
  if c.lines.toNat = 0 ∨ 2 ^ 34 < c.lines.toNat then some 0x2130
  else rangeCode s fn false (windowDpa s fn c.base.toNat) (64 * c.lines.toNat)

/-- SV_CMO once a GO ended in Error, or started over a span. -/
def cmoAnswered (op : Nat) (tag : BitVec 32) (code st : Nat) (run : Option (Nat × Nat)) (h : HostFn) : HostFn :=
  { h with cmo := { h.cmo with tag := tag, op := op, code := code, st := st, written := 0, dropped := 0, run := run } }

theorem cmoGo_of_busy (hup : hostUp s = true) (hbusy : (getFn s fn).cmo.st = 1) :
    cmoGo op fn tag 0 s = hostErr fn true 1 0x2131 0x20000 s := by
  simp [cmoGo, hup, hbusy]

theorem cmoGo_of_fault {k : Code} (hup : hostUp s = true) (hidle : (getFn s fn).cmo.st ≠ 1) (hbad : cmoFault fn s = some k) :
    cmoGo op fn tag 0 s = modFn fn (cmoAnswered op tag k 3 (getFn s fn).cmo.run) s := by
  unfold cmoFault at hbad
  simp only [cmoGo, hup, hidle, hbad, if_neg, Bool.not_true, Bool.false_eq_true, not_false_eq_true, if_true]
  rfl

theorem cmoGo_of_no_fault (hup : hostUp s = true) (hidle : (getFn s fn).cmo.st ≠ 1) (hgood : cmoFault fn s = none) :
    cmoGo op fn tag 0 s = modFn fn (cmoAnswered op tag 0 1
      (some (windowDpa s fn (getFn s fn).cmo.base.toNat, 64 * (getFn s fn).cmo.lines.toNat))) s := by
  unfold cmoFault at hgood
  simp only [cmoGo, hup, hidle, hgood, if_neg, Bool.not_true, Bool.false_eq_true, not_false_eq_true, if_true]
  rfl

theorem cmoFault_of_range (h : (getFn s fn).cmo.lines.toNat = 0 ∨ 2 ^ 34 < (getFn s fn).cmo.lines.toNat) : cmoFault fn s = some 0x2130 :=
  if_pos h

theorem cmoFault_of_lines (hlow : 1 ≤ (getFn s fn).cmo.lines.toNat) (hhigh : (getFn s fn).cmo.lines.toNat ≤ 2 ^ 34) :
    cmoFault fn s = rangeCode s fn false (windowDpa s fn (getFn s fn).cmo.base.toNat) (64 * (getFn s fn).cmo.lines.toNat) :=
  if_neg (by omega)

theorem cmoDone_of_run {d len : Nat} (hrun : (getFn s fn).cmo.run = some (d, len)) :
    let c := (getFn s fn).cmo
    let r := cmoWhere c.op (fun L => decide (d ≤ 64 * L ∧ 64 * L < d + len)) s
    cmoDone fn s = hiSet fn 2 (modFn fn (fun h => { h with cmo := { h.cmo with
      st := 2, run := none, written := r.2.written, dropped := if c.op = 2 then r.2.discarded else r.2.dropped,
      code := if r.2.discarded = 0 then 0 else 0x0210 } }) r.1) := by
  have hsame := cmoWhere_sameCmo (op := (getFn s fn).cmo.op) (q := fun L => decide (d ≤ 64 * L ∧ 64 * L < d + len)) (SameCmo.refl s) fn
  simp only [cmoDone, hrun]
  refine congrArg (hiSet fn 2) (modFn_congr ?_)
  rw [hsame]

end

/-- Settles O33: the fault of a GO decides between Error and the start, and the end carries the operation out. -/
theorem cacheMaintenance : Obligations.CacheMaintenance := by
  unfold Obligations.CacheMaintenance
  refine ⟨fun fn tag s hfn hup => ?_, fun fn d len s hfn hrun => (onFn_of_lt hfn).trans (congrArg _ (cmoDone_of_run hrun))⟩
  intro c d n set goes
  have hgoes : ∀ i op, exec i s = onFn fn (.next (cmoGo op fn tag 0 s)) → goes i op := fun i op hi => by
    rw [onFn_of_lt hfn] at hi
    refine ⟨fun hbusy => ?_, fun hidle hrange => ?_, fun hidle hlow hhigh k hk => ?_, fun hidle hlow hhigh hk => ?_⟩
    · rw [hi, cmoGo_of_busy hup hbusy]
    · rw [hi, cmoGo_of_fault hup hidle (cmoFault_of_range hrange)]
      rfl
    · rw [hi, cmoGo_of_fault hup hidle ((cmoFault_of_lines hlow hhigh).trans hk)]
      rfl
    · rw [hi, cmoGo_of_no_fault hup hidle ((cmoFault_of_lines hlow hhigh).trans hk)]
      rfl
  exact ⟨hgoes _ 0 rfl, hgoes _ 1 rfl, hgoes _ 2 rfl⟩

end Sys2Proof.Machine
end

section
/-!
PROOF. The INT commands (14 R383) and MAPOUT_PROCEED (03 R83): what their handlers answer to a request that passes their checks.
-/

namespace Sys2Proof.Machine

/-! ### What each handler answers -/

section
variable {q : Req} {s : State}

theorem intRecordsH_ok (hlow : 1 ≤ q.f 4 1) (hhigh : q.f 4 1 ≤ 63) :
    let l := (s.sb.errRecs.filter (fun r => decide (q.f 0 4 ≤ r.seq))).take (q.f 4 1)
    intRecordsH q s = .ok s (leBytes l.length 16 ++ l.flatMap (fun r => leBytes r.toNat 64)) :=
  checked_pass (decide_eq_false (by omega))

theorem chkModeH_ok (hmode : q.f 0 1 ≤ 2) : chkModeH q s = .ok { s with cfg := { s.cfg with chkMode := q.f 0 1 } } [] :=
  checked_pass (decide_eq_false (by omega))

/-- The state after a MAPOUT of kind 1 (a core), 2 (a slice) or 3 (a channel) has marked its unit (12 R332). -/
def mapoutMarked (kind n : Nat) (s : State) : State := match kind with
  | 1 => { s with cfg := { s.cfg with pendCores := addOnce n s.cfg.pendCores } }
  | 2 => { s with cfg := { s.cfg with pendSlices := addOnce n s.cfg.pendSlices } }
  | _ => pendChannel n 0x2220 s

/-- The kind and number of a MAPOUT name a unit the device has. -/
def MapoutNamesUnit (kind n : Nat) (s : State) : Prop :=
  (kind = 1 ∧ n < 144 ∧ unitPresent s.units.core n = true) ∨ (kind = 2 ∧ n < 64 ∧ unitPresent s.units.slice n = true)
    ∨ (kind = 3 ∧ unitPresent s.units.chan n = true)

theorem mapoutH_op (hunit : MapoutNamesUnit (q.f 0 1) (q.f 2 1) s) :
    mapoutH q s = .op (mapoutMarked (q.f 0 1) (q.f 2 1) s) none (leBytes (q.f 0 1) 1 ++ leBytes (q.f 2 1) 1) := by
  obtain ⟨hkind, hlt, hpresent⟩ | ⟨hkind, hlt, hpresent⟩ | ⟨hkind, hpresent⟩ := hunit <;>
    simp only [mapoutH, mapoutMarked, hkind] <;>
    exact (checked_pass (decide_eq_false (by omega))).trans (checked_pass (by simp [hpresent]))

end

/-! ### The rows that work beyond their handler -/

/-- MAPOUT starts an operation on the unit it has marked, and what is free proceeds at once. -/
theorem mapout_of_unit {sub : Submission} {s t : State} {q : Req} (hs : Served cmdMapout sub s q t) (hroom : t.sb.ops.length < 16)
    (hunit : MapoutNamesUnit (q.f 0 1) (q.f 2 1) t) :
    exec (.mapout sub) s
      = .next (settleFree (startOp q none (leBytes (q.f 0 1) 1 ++ leBytes (q.f 2 1) 1) (mapoutMarked (q.f 0 1) (q.f 2 1) t))) := by
  obtain ⟨⟨hreach, hnew⟩, hjudge⟩ := hs
  refine congrArg (fun u => Host.Outcome.next (settleFree u)) ?_
  rw [mailRow_eq_serve hreach, serve_eq_replied hnew hjudge, mapoutH_op hunit, replied, if_neg (by omega)]

/-- A channel may be mapped out: it is pending, its home or its memory is gone, and no domain is off or starting again (03 R83). -/
def ChannelLeaves (s : State) (c : Nat) : Prop :=
  mem c s.cfg.pendChannels = true ∧ s.boot.domainsOff = false ∧ s.sb.restarting = false ∧
    (homeOwned s c = false ∨ (getChan s c).failed = true)

theorem mapoutProceed_of_leaves {s : State} {c : Nat} (h : ChannelLeaves s c) :
    mapoutProceed c s = if !freeRow s then post 0x2220 3 c s else chanOut c (relay c s) := by
  obtain ⟨hpend, hon, hup, hfree⟩ := h
  refine if_neg ?_
  obtain hhome | hfailed := hfree
  · simp [hpend, hon, hup, hhome]
  · simp [hpend, hon, hup, hfailed]

/-- Settles O47: each command is its handler's to answer; a map-out marks its unit and starts, and a channel goes while a row is free. -/
theorem integrityCommands : Obligations.IntegrityCommands := by
  unfold Obligations.IntegrityCommands
  refine fun sub s q t => ⟨fun hs hlow hhigh => mail_of_ok hs (intRecordsH_ok hlow hhigh),
    fun hs hmode => mail_of_ok hs (chkModeH_ok hmode), fun hs hroom => ?_, fun c hc hpend hon hup hfree => ?_, fun hs => mail_of_ok hs rfl⟩
  · have hstarts := mapout_of_unit hs hroom
    refine ⟨fun hkind hlt hpresent => ?_, fun hkind hlt hpresent => ?_, fun hkind hpresent => ?_⟩
    · simpa only [hkind, mapoutMarked] using hstarts (.inl ⟨hkind, hlt, hpresent⟩)
    · simpa only [hkind, mapoutMarked] using hstarts (.inr (.inl ⟨hkind, hlt, hpresent⟩))
    · simpa only [hkind, mapoutMarked] using hstarts (.inr (.inr ⟨hkind, hpresent⟩))
  · have hproceeds := mapoutProceed_of_leaves ⟨hpend, hon, hup, hfree⟩
    refine ⟨fun hrow => (onUnit_of_lt hc).trans (congrArg _ (hproceeds.trans ?_)),
      fun hrow => (onUnit_of_lt hc).trans (congrArg _ (hproceeds.trans ?_))⟩
    · exact if_neg (by simp [hrow])
    · exact if_pos (by simp [hrow])

end Sys2Proof.Machine
end

section
/-!
PROOF. Counters (05 R123 to R127): what an increment does in each of its three cases, and the ready bit of an SCU command (04 R88).
-/

namespace Sys2Proof.Machine

/-! ### A counter written -/

/-- The core with counter i at v. -/
def withCtr (i v : Nat) (c : Core) : Core := { c with ctrs := spSet 0 c.ctrs i (BitVec.ofNat 32 v) }

theorem ctr_withCtr_same (i : Nat) {v : Nat} (c : Core) (hv : v < 2 ^ 32) : (ctr (withCtr i v c) i).toNat = v := by
  rw [ctr, withCtr, spGet_spSet_same, BitVec.toNat_ofNat, Nat.mod_eq_of_lt hv]

theorem ctr_withCtr_other (i v : Nat) {j : Nat} (c : Core) (hj : j ≠ i) : ctr (withCtr i v c) j = ctr c j :=
  spGet_spSet_other _ _ _ _ _ hj

/-! ### A halt seen at its core (R139) -/

@[simp] theorem getCore_writeHalt_same (n : Nat) (r : HaltRec) (s : State) :
    getCore (writeHalt n r s) n = { getCore s n with mode := .halted, halt := some r } := by
  unfold writeHalt
  dsimp only
  split
  · exact getCore_modCore_same ..
  · exact (getCore_modPart ..).trans (getCore_modCore_same ..)

theorem haltCore_ctrs (n : Nat) (r : HaltRec) (s : State) : (getCore (haltCore n r s) n).ctrs = (getCore s n).ctrs := by
  unfold haltCore
  split
  · rfl
  · rw [getCore_writeHalt_same]

theorem haltCore_mode (n : Nat) (r : HaltRec) (s : State) : (getCore (haltCore n r s) n).mode = .halted := by
  unfold haltCore
  split
  · assumption
  · rw [getCore_writeHalt_same]

theorem haltCore_record {n : Nat} {s : State} (r : HaltRec) (hrun : (getCore s n).mode ≠ .halted) :
    (getCore (haltCore n r s) n).halt = some r := by
  rw [haltCore, if_neg hrun, getCore_writeHalt_same]

/-! ### The three cases of an increment (R124, R127, R139) -/

section
variable {n i amt : Nat} {r : HaltRec} {s : State}

theorem incr_of_frozen (hfrozen : frozen s n = true) : incr n i amt r s = s := if_pos hfrozen

theorem incr_of_lt (hlive : frozen s n = false) (hv : (ctr (getCore s n) i).toNat + amt < 2 ^ 32) :
    incr n i amt r s = modCore n (withCtr i ((ctr (getCore s n) i).toNat + amt)) s :=
  (if_neg (by simp [hlive])).trans (if_neg (Nat.not_le.mpr hv))

theorem incr_of_overflow (hlive : frozen s n = false) (hv : 2 ^ 32 ≤ (ctr (getCore s n) i).toNat + amt) :
    incr n i amt r s = haltCore n r (modCore n (withCtr i (2 ^ 32 - 1)) s) :=
  (if_neg (by simp [hlive])).trans (if_pos hv)

end

/-- A ready bit whose counter has room, raised when the command has left its SCU. -/
theorem raiseReady_popScu {chan i : Nat} {e : ScuEnt} {s : State} (hctr : e.ctr = some i) (hlive : frozen s e.core = false)
    (hroom : (ctr (getCore s e.core) i).toNat + 1 < 2 ^ 32) :
    raiseReady e (popScu chan s) = modCore e.core (withCtr i ((ctr (getCore s e.core) i).toNat + 1)) (popScu chan s) := by
  simp only [raiseReady, hctr]
  exact incr_of_lt (s := popScu chan s) hlive hroom

/-- Settles O17: an increment is a write of one counter, with a halt when it runs over; a ready bit is one of them. -/
theorem countersAddAndStay : Obligations.CountersAddAndStay := by
  unfold Obligations.CountersAddAndStay
  refine ⟨fun n i amt r s => ⟨incr_of_frozen, fun hlive hv => ?_, fun hlive hv => ?_⟩, fun chan i e s hctr hlive hroom => ?_⟩
  · rw [incr_of_lt hlive hv]
    dsimp only
    rw [getCore_modCore_same]
    exact ⟨ctr_withCtr_same i _ hv, fun j hj => ctr_withCtr_other i _ _ hj, rfl, fun m hm => getCore_modCore_other _ _ _ _ hm, rfl⟩
  · rw [incr_of_overflow hlive hv]
    refine ⟨?_, haltCore_mode .., fun hrun => haltCore_record r ?_⟩
    · rw [ctr, haltCore_ctrs, getCore_modCore_same]
      exact ctr_withCtr_same i _ (by decide)
    · rw [getCore_modCore_same]
      exact hrun
  · rw [raiseReady_popScu hctr hlive hroom]
    dsimp only
    rw [getCore_modCore_same, getChan_modCore]
    refine ⟨ctr_withCtr_same i _ hroom, ?_, fun h hh => (getChan_modCore ..).trans (getChan_modChan_other _ _ _ _ hh),
      fun m hm => getCore_modCore_other _ _ _ _ hm⟩
    rw [popScu, getChan_modChan_same]

end Sys2Proof.Machine
end

section
/-!
PROOF. SCU commands (04 R88 to R107): one frame, `runScu`, runs all that compute; STATUS and FENCE only write their record, and REFRESH only
counts.
-/

namespace Sys2Proof.Machine

theorem onChan_of_lt {chan : Nat} (s : State) (h : chan < 256) : onChan chan s = .next s := if_pos h

section
variable {chan op : Nat} {e : ScuEnt} {s : State}

/-! ### The command at the head of an SCU (R88, R89) -/

theorem ScuStarts.chan_lt (h : ScuStarts chan op e s) : chan < 256 := by
  obtain ⟨hchan, _, _, _⟩ := h
  exact hchan

theorem ScuStarts.queue (h : ScuStarts chan op e s) : ∃ rest, (getChan s chan).queue = e :: rest := by
  obtain ⟨_, hhead, _, _⟩ := h
  exact List.head?_eq_some_iff.mp hhead

/-- The row whose operation it is does not pass it by. -/
theorem ScuStarts.takes (h : ScuStarts chan op e s) : ¬(rOp e.record.toNat ≠ op ∨ (!scuOn s chan) = true) := by
  obtain ⟨_, _, hop, hon⟩ := h
  simp [hop, hon]

/-! ### Commands that compute (R90, R94, R111) -/

section
variable {check : State → ScuEnt → List Code} {work : ScuEnt → State → State × ScuDone}

/-- What a command whose checks find nothing leaves: its record Running, its work, its record Done, its ready bit. -/
def scuRan (chan : Nat) (work : ScuEnt → State → State × ScuDone) (e : ScuEnt) (s : State) : State :=
  let r := work e (writeStatus e chan 1 0 s.ftime 0 0 {} s)
  raiseReady e (popScu chan (writeStatus e chan 2 0 s.ftime r.1.ftime (getChan s chan).refPauses r.2 r.1))

/-- What a command rejected with a code leaves: its record Error, its ready bit, and the halt of the core that dispatched it. -/
def scuRejected (chan : Nat) (code : Code) (e : ScuEnt) (s : State) : State :=
  scuHalt e chan code (raiseReady e (popScu chan (writeStatus e chan 3 code 0 s.ftime 0 {} s)))

/-- What becomes of a command that starts, by the lowest code that its checks find. -/
def scuEnd (chan : Nat) (work : ScuEnt → State → State × ScuDone) (e : ScuEnt) (s : State) : Option Code → State
  | some code => scuRejected chan code e s
  | none => scuRan chan work e s

theorem runScu_of_starts (hstarts : ScuStarts chan op e s) :
    runScu chan op check work s = scuEnd chan work e s (lowest (scuRange s e.part chan needSw (statusVa e) 64 ++ check s e)) := by
  obtain ⟨rest, hqueue⟩ := hstarts.queue
  unfold runScu
  rw [hqueue]
  refine (if_neg hstarts.takes).trans ?_
  -- the two matches on the code agree case by case; with the checks in sight Lean would compute them
  generalize lowest _ = found
  cases found <;> rfl

variable {c : Instr} (hrow : exec c s = onChan chan (runScu chan op check work s)) (hstarts : ScuStarts chan op e s)
include hrow hstarts

theorem exec_of_scuStarts :
    exec c s = .next (scuEnd chan work e s (lowest (scuRange s e.part chan needSw (statusVa e) 64 ++ check s e))) := by
  rw [hrow, onChan_of_lt _ hstarts.chan_lt, runScu_of_starts hstarts]

theorem exec_of_scuAccepts (haccepts : ScuAccepts chan check e s) : exec c s = .next (scuRan chan work e s) :=
  (exec_of_scuStarts hrow hstarts).trans (congrArg (fun codes => Host.Outcome.next (scuEnd chan work e s (lowest codes))) haccepts)

theorem exec_of_scuRejects {code : Code} (hcode : lowest (scuRange s e.part chan needSw (statusVa e) 64 ++ check s e) = some code) :
    exec c s = .next (scuRejected chan code e s) :=
  (exec_of_scuStarts hrow hstarts).trans (congrArg (fun found => Host.Outcome.next (scuEnd chan work e s found)) hcode)

end

/-! ### STATUS, FENCE (R104) and REFRESH (R107) -/

/-- A STATUS or FENCE whose record can be written. -/
theorem statusOnly_of_starts (hstarts : ScuStarts chan op e s) (hwritable : scuRange s e.part chan needSw (statusVa e) 64 = []) :
    statusOnly chan op s = raiseReady e (popScu chan (writeStatus e chan 2 0 s.ftime s.ftime 0 {} s)) := by
  obtain ⟨rest, hqueue⟩ := hstarts.queue
  unfold statusOnly
  rw [hqueue]
  refine (if_neg hstarts.takes).trans ?_
  rw [hwritable]
  rfl

theorem exec_of_statusStarts {c : Instr} (hrow : exec c s = onChan chan (statusOnly chan op s)) (hstarts : ScuStarts chan op e s)
    (hwritable : scuRange s e.part chan needSw (statusVa e) 64 = []) :
    exec c s = .next (raiseReady e (popScu chan (writeStatus e chan 2 0 s.ftime s.ftime 0 {} s))) := by
  rw [hrow, onChan_of_lt _ hstarts.chan_lt, statusOnly_of_starts hstarts hwritable]

theorem exec_refresh_of_busy (hchan : chan < 256) (hbusy : (getChan s chan).queue ≠ []) :
    exec (.refresh chan) s = .next (modChan chan (fun c => { c with refPauses := c.refPauses + 1 }) s) := by
  obtain ⟨e, rest, hqueue⟩ := List.exists_cons_of_ne_nil hbusy
  refine (onChan_of_lt _ hchan).trans ?_
  rw [hqueue]

end

/-- Settles O23: the seven operations that compute are rows of `runScu`; STATUS and FENCE are rows of `statusOnly`. -/
theorem scuCommandsComplete : Obligations.ScuCommandsComplete := by
  unfold Obligations.ScuCommandsComplete
  refine ⟨fun chan s e => ?_, fun chan s e => ⟨exec_of_statusStarts rfl, exec_of_statusStarts rfl, exec_refresh_of_busy⟩⟩
  intro runs
  have hruns : ∀ {c op check work}, exec c s = onChan chan (runScu chan op check work s) → runs c op check work :=
    fun hrow hstarts => ⟨exec_of_scuAccepts hrow hstarts, fun _ => exec_of_scuRejects hrow hstarts⟩
  exact ⟨hruns rfl, hruns rfl, hruns rfl, hruns rfl, hruns rfl, hruns rfl, hruns rfl⟩

end Sys2Proof.Machine
end

section
/-!
PROOF. Commands in their queues (05 R119 to R121, R127, R138, R139, R179): a push that enters, a command that retires or is rejected, and the
events that halt a core.
-/

namespace Sys2Proof.Machine

/-! ### One engine of a core changed (R119) -/

theorem getEng_modEng_same (q : Nat) (g : Engine → Engine) (c : Core) : getEng (modEng q g c) q = g (getEng c q) := by
  unfold modEng getEng
  split_ifs <;> rfl

theorem getEng_modEng_other {q r : Nat} (g : Engine → Engine) (c : Core) (hq : q < 4) (hr : r < 4) (hne : r ≠ q) :
    getEng (modEng q g c) r = getEng c r := by
  unfold modEng getEng
  split_ifs <;> grind

/-- Outside its four engines the core is as before. -/
theorem modEng_frame (q : Nat) (g : Engine → Engine) (c : Core) :
    { modEng q g c with me := c.me, ve := c.ve, mv := c.mv, tt := c.tt } = c := by
  unfold modEng
  split_ifs <;> rfl

/-! ### A push enters its queue (R119, R163) -/

/-- The queue with one more command at its tail. -/
def withPush (p : BitVec 256) (now : Nat) (g : Engine) : Engine :=
  { g with queue := g.queue ++ [{ cmd := p, ordinal := g.nextOrd }], nextOrd := g.nextOrd + 1,
           headSince := if g.queue.isEmpty then now else g.headSince }

theorem getEng_enterPush (n q r : Nat) (s : State) :
    getEng (getCore (enterPush n q s) n) r = getEng (modEng q (withPush (getCore s n).p s.ftime) (getCore s n)) r := by
  rw [enterPush, getCore_modCore_same]
  rfl

/-- A word that the checks of its row let pass has the row's effect. -/
theorem runInsn_of_passes {n w : Nat} {sel : Nat → Bool} {bad : State → Core → Nat → List Code} {eff : Nat → State → State} {s t : State}
    (hfetch : Fetches n w s t) (hsel : sel w = true) (hgood : bad t (getCore t n) w = []) : runInsn n sel bad eff s = eff w t := by
  obtain ⟨_, hword⟩ := hfetch
  simp only [runInsn, hword, hsel, hgood, lowest]
  rfl

theorem exec_push {n w : Nat} {s t : State} (hfetch : Fetches n w s t) (hop : opIs 0x24 w = true) (hgood : pushBad n t (getCore t n) w = []) :
    exec (.push n) s = .next (pushEff n w t) :=
  (onUnit_of_lt hfetch.1).trans (congrArg _ (runInsn_of_passes hfetch hop hgood))

theorem exec_pushResumes {n q : Nat} {s : State} (hn : n < 144) (hstalled : (getCore s n).mode = .stalled q) :
    exec (.pushResumes n) s = .next (if (getEng (getCore s n) q).queue.length < 64 then enterPush n q s else s) := by
  refine (onUnit_of_lt hn).trans ?_
  rw [hstalled]

/-- Settles O11: what entering does is a change of one engine, `withPush`, and of the core's own fields. -/
theorem pushEntersOneQueue : Obligations.PushEntersOneQueue := by
  unfold Obligations.PushEntersOneQueue
  refine ⟨⟨fun n w s t hfetch hop hgood => ?_, fun n q s hn hstalled => ?_⟩, fun n q s hq => ?_⟩
  · rw [exec_push hfetch hop hgood]
    exact ⟨fun hroom => congrArg _ (if_pos hroom), fun hfull => congrArg _ (if_neg (Nat.not_lt.mpr hfull))⟩
  · rw [exec_pushResumes hn hstalled]
    exact ⟨fun hroom => congrArg _ (if_pos hroom), fun hfull => congrArg _ (if_neg (Nat.not_lt.mpr hfull))⟩
  · have hframe := modEng_frame q (withPush (getCore s n).p s.ftime) (getCore s n)
    have hsame : getEng (getCore (enterPush n q s) n) q = withPush (getCore s n).p s.ftime (getEng (getCore s n) q) :=
      (getEng_enterPush n q q s).trans (getEng_modEng_same ..)
    have hother : ∀ r, r < 4 → r ≠ q → getEng (getCore (enterPush n q s) n) r = getEng (getCore s n) r := fun r hr hne =>
      (getEng_enterPush n q r s).trans (getEng_modEng_other _ _ hq hr hne)
    dsimp only
    rw [hsame]
    refine ⟨rfl, rfl, ?_, ?_, ?_, ?_, hother, ?_, ?_, ?_, fun m hm => getCore_modCore_other _ _ _ _ hm, rfl⟩
    all_goals rw [enterPush, getCore_modCore_same]
    · rfl
    · exact congrArg (·.pc + 4) hframe
    · exact congrArg (·.regs) hframe
    · exact congrArg (·.p) hframe
    · exact congrArg (·.ctrs) hframe
    · exact congrArg (·.store) hframe
    · exact congrArg (·.cmem) hframe

/-! ### A command retires (R120, R121) -/

/-- The queue without its head, whose word is in its slot. -/
def withRetired (e : QEnt) (d : Done) (now : Nat) (g : Engine) : Engine :=
  { g with queue := g.queue.tail, doneOrd := e.ordinal + 1, slots := spSet 0 g.slots (e.ordinal % 64) d.word, events := g.events ||| d.ev,
           poison := g.poison || d.poison, headSince := now }

theorem getEng_retire (n q r : Nat) (e : QEnt) (d : Done) (s : State) :
    getEng (getCore (retire n q e d s) n) r = getEng (modEng q (withRetired e d s.ftime) (getCore s n)) r := by
  rw [retire, getCore_modCore_same]
  rfl

/-- The fields of a completion word; INFO loses what does not fit its 16 bits. -/
theorem Done.word_toNat (d : Done) :
    d.word.toNat = (d.info % 2 ^ 16) * 2 ^ 16 + (if d.clamped then 2 ^ 8 else 0) + (if d.poison then 2 ^ 7 else 0)
      + (if d.waited then 2 ^ 6 else 0) + d.ev.toNat := by
  have hev : d.ev.toNat < 2 ^ 5 := d.ev.isLt
  simp only [Done.word, put, b2n, BitVec.toNat_ofNat, Nat.shiftLeft_eq]
  split_ifs <;> omega

/-- Settles O20: retiring is a change of one engine, `withRetired`. -/
theorem retiredCommandLeavesItsWord : Obligations.RetiredCommandLeavesItsWord := by
  unfold Obligations.RetiredCommandLeavesItsWord
  intro n q e d s hq
  have hframe := modEng_frame q (withRetired e d s.ftime) (getCore s n)
  have hsame : getEng (getCore (retire n q e d s) n) q = withRetired e d s.ftime (getEng (getCore s n) q) :=
    (getEng_retire ..).trans (getEng_modEng_same ..)
  dsimp only
  rw [hsame]
  refine ⟨rfl, rfl, ?_, fun i hi => spGet_spSet_other _ _ _ _ _ hi, rfl,
    fun r hr hne => (getEng_retire ..).trans (getEng_modEng_other _ _ hq hr hne), ?_, ?_, fun m hm => getCore_modCore_other _ _ _ _ hm, rfl⟩
  · exact (congrArg BitVec.toNat (spGet_spSet_same ..)).trans d.word_toNat
  all_goals rw [retire, getCore_modCore_same]
  · exact congrArg (·.ctrs) hframe
  · exact congrArg (·.store) hframe

/-! ### A command is rejected (R138, 06 R164) -/

section
variable {n q opc : Nat} {body : QEnt → State → Res EngWork} {c : Instr} {e : QEnt} {code : Code} {s t : State}

theorem runEngine_of_rejected (hready : readyHead s n q opc = some e) (hbody : body e s = .ok t (.error code)) :
    runEngine n q opc body s = haltQueue n q e code false 0 t := by
  simp only [runEngine, hready, hbody]

/-- A row of an engine whose command its checks reject. -/
theorem exec_of_rejected (hrow : exec c s = onCore n (runEngine n q opc body s)) (hstarts : Starts n q opc e s)
    (hbody : body e s = .ok t (.error code)) : exec c s = .next (haltQueue n q e code false 0 t) := by
  obtain ⟨hn, hready⟩ := hstarts
  exact (hrow.trans (onUnit_of_lt hn)).trans (congrArg _ (runEngine_of_rejected hready hbody))

end

/-- A halt leaves the engines of its core as they stand. -/
theorem getEng_haltCore (n q : Nat) (r : HaltRec) (s : State) : getEng (getCore (haltCore n r s) n) q = getEng (getCore s n) q := by
  unfold haltCore
  split
  · rfl
  · rw [getCore_writeHalt_same]
    rfl

/-- Settles O19: every engine command is a row of `runEngine`, which halts the queue of a rejected one. -/
theorem rejectedCommandsHalt : Obligations.RejectedCommandsHalt := by
  unfold Obligations.RejectedCommandsHalt
  intro n s t e code halts
  have hhalts : ∀ {c q opc body}, exec c s = onCore n (runEngine n q opc body s) → halts c q opc body :=
    fun hrow hstarts hbody => ⟨exec_of_rejected hrow hstarts hbody, congrArg (·.queue) (getEng_haltCore ..)⟩
  exact ⟨hhalts rfl, hhalts rfl, hhalts rfl, hhalts rfl, hhalts rfl, hhalts rfl, hhalts rfl, hhalts rfl, hhalts rfl⟩

/-! ### Events that halt a core (R127, R139, R179) -/

section
variable {n : Nat} {s : State} (hn : n < 144)
include hn

theorem exec_sbTimeout {u : Nat} (hu : u < 5) : exec (.sbTimeout n u) s = .next (timeoutEff n u s) :=
  (onUnit_of_lt hn).trans (congrArg _ (if_pos hu))

theorem exec_haltNotice {k : Kernel} {code : Code} {lc : Nat} (hk : coreKernel s n = some k) (hhalting : k.halting = some (code, lc)) :
    exec (.haltNotice n) s = .next (haltCore n { ctrlRec s n 0x1140 with faultVa := lc } s) := by
  refine (onUnit_of_lt hn).trans ?_
  simp only [hk, hhalting]

end

theorem timeoutEff_of_head {n u : Nat} {s : State} {e : QEnt} {rest : List QEnt} (hu : u < 4)
    (hqueue : (getEng (getCore s n) u).queue = e :: rest) (hactive : engActive (getCore s n) = true)
    (hwaits : waitsMet (getCore s n) e.cmd.toNat = false) :
    timeoutEff n u s = haltQueue n u e 0x1113 false 0 (timeTo ((getEng (getCore s n) u).headSince + waitLimit s n + 1) s) := by
  simp [timeoutEff, hu, hqueue, hactive, hwaits]

theorem timeoutEff_of_waiting {n i v : Nat} {s : State} (hmode : (getCore s n).mode = .waiting i v)
    (hlow : (ctr (getCore s n) i).toNat < v) :
    timeoutEff n 4 s = haltCtrl n 0x1113 (timeTo ((getCore s n).waitSince + waitLimit s n + 1) s) := by
  simp [timeoutEff, hmode, hlow]

/-- Settles O15: each event's row under the conditions that let it occur. -/
theorem coreEventsHalt : Obligations.CoreEventsHalt := by
  unfold Obligations.CoreEventsHalt
  refine fun n s hn => ⟨fun u e rest hu hqueue hactive hwaits => ?_, fun i v hmode hlow => ?_, fun hcounted hidle => ?_,
    fun k code lc hk hhalting => exec_haltNotice hn hk hhalting⟩
  · rw [exec_sbTimeout hn (Nat.lt_succ_of_lt hu), timeoutEff_of_head hu hqueue hactive hwaits]
  · rw [exec_sbTimeout hn (by decide), timeoutEff_of_waiting hmode hlow]
  · exact (onUnit_of_lt hn).trans (congrArg _ (if_pos ⟨hcounted, hidle⟩))

end Sys2Proof.Machine
end

section
/-!
PROOF. A launch (06 R165, R175, 05 R119, R121, R123): the cores of the kernel are set one after another, so each stands as `launchCore` left
it, and no other core is named.
-/

namespace Sys2Proof.Machine

/-- Core c stands as a launch of the image on partition p leaves it. -/
def Launched (img : Image) (args : List Byte) (p now : Nat) (c : Core) : Prop := ∃ lc c₀, c = launchCore img args p lc now c₀

/-- The fold of a launch: numbered cores set one after another. -/
def launchAll (img : Image) (args : List Byte) (p now : Nat) (l : List (Nat × Nat)) (s : State) : State :=
  l.foldl (fun t e => modCore e.2 (launchCore img args p e.1 now) t) s

section
variable {img : Image} {args : List Byte} {p now n : Nat} {l : List (Nat × Nat)} {s : State}

theorem launchAll_parts : (launchAll img args p now l s).parts = s.parts :=
  List.foldlRecOn (motive := fun t : State => t.parts = s.parts) l _ rfl (fun _ ht _ _ => ht)

theorem getCore_launchAll_other (hn : n ∉ l.map Prod.snd) : getCore (launchAll img args p now l s) n = getCore s n := by
  refine List.foldlRecOn (motive := fun t => getCore t n = getCore s n) l _ rfl fun t ht e he => ?_
  have hne : n ≠ e.2 := fun h => hn (h ▸ List.mem_map_of_mem he)
  exact (getCore_modCore_other _ _ _ _ hne).trans ht

/-- A core named last stands as set then; one named before and not again keeps what it was set to. -/
theorem launched_launchAll (h : n ∈ l.map Prod.snd ∨ Launched img args p now (getCore s n)) :
    Launched img args p now (getCore (launchAll img args p now l s) n) := by
  induction l generalizing s with
  | nil => exact h.resolve_left List.not_mem_nil
  | cons e l ih =>
    refine ih (s := modCore e.2 (launchCore img args p e.1 now) s) ?_
    by_cases hn : n = e.2
    · subst hn
      exact .inr ⟨e.1, getCore s e.2, getCore_modCore_same ..⟩
    · rw [getCore_modCore_other _ _ _ _ hn]
      exact h.imp_left fun hmem => (List.mem_cons.mp hmem).resolve_left hn

end

theorem reg_launchCore (img : Image) (args : List Byte) (p lc now i : Nat) (c : Core) : reg (launchCore img args p lc now c) i = 0 := by
  unfold reg
  split <;> rfl

theorem getEng_launchCore (img : Image) (args : List Byte) (p lc now q : Nat) (c : Core) :
    getEng (launchCore img args p lc now c) q = freshEngine now := by
  unfold getEng
  split_ifs <;> rfl

/-- The cores that a launch takes, in the order of their logical numbers. -/
def kernelCores (p : Nat) (img : Image) (s : State) : List Nat := (presentOf s.units.core (sortNat (getPart s p).cores)).take img.lcores

/-- The partition when its kernel has been entered, before its cores are set. -/
def launchedPart (p : Nat) (img : Image) (diag : Bool) (stopN stopCore : Nat) (s : State) (x : Part) : Part :=
  { x with
    kernel := some {
      image := img, cores := kernelCores p img s,
      chans := (bindChans img (presentOf s.units.chan (sortNat (getPart s p).chans))).take img.lchannels, diag := diag, stopN := stopN,
      stopCore := stopCore },
    launches := x.launches + 1 }

theorem launchKernel_eq (p : Nat) (img : Image) (args : List Byte) (diag : Bool) (stopN stopCore : Nat) (s : State) :
    launchKernel p img args diag stopN stopCore s =
      launchAll img args p s.ftime ((List.range (kernelCores p img s).length).zip (kernelCores p img s))
        (modPart p (launchedPart p img diag stopN stopCore s) s) := rfl

theorem numbered_snd (cs : List Nat) : ((List.range cs.length).zip cs).map Prod.snd = cs :=
  List.map_snd_zip (by simp)

/-- Settles O26: the cores of the kernel are those that the fold names. -/
theorem launchSetsTheCores : Obligations.LaunchSetsTheCores := by
  unfold Obligations.LaunchSetsTheCores
  intro p n stopN stopCore img args diag s
  have hpart : getPart (launchKernel p img args diag stopN stopCore s) p = launchedPart p img diag stopN stopCore s (getPart s p) := by
    rw [launchKernel_eq, getPart, launchAll_parts]
    exact getPart_modPart_same ..
  dsimp only
  rw [hpart]
  refine ⟨fun hn => ?_, fun hn => ?_, rfl, _, rfl, rfl, rfl, rfl⟩
  · obtain ⟨lc, c₀, hcore⟩ : Launched img args p s.ftime (getCore (launchKernel p img args diag stopN stopCore s) n) := by
      rw [launchKernel_eq]
      exact launched_launchAll (.inl (by rw [numbered_snd]; exact hn))
    rw [hcore]
    refine ⟨rfl, rfl, fun i => reg_launchCore .., rfl, fun _ => rfl, rfl, rfl, rfl, rfl, rfl, fun q _ => ?_⟩
    rw [getEng_launchCore]
    exact ⟨rfl, rfl, fun _ => rfl⟩
  · rw [launchKernel_eq, getCore_launchAll_other (by rw [numbered_snd]; exact hn), getCore_modPart]

end Sys2Proof.Machine
end

section
/-!
PROOF. Halts (05 R138 to R141). A halt of one core is one record; the halt of a kernel ends the partition's step and kernel, and nothing
that this sets off (retries, lost pages, directory writes, events, records) touches a core, or a partition's state or step.
-/

namespace Sys2Proof.Machine

/-! ### The record of a halt (R139, R140) -/

theorem haltCore_of_halted {n : Nat} {r : HaltRec} {s : State} (h : (getCore s n).mode = .halted) : haltCore n r s = s := if_pos h

theorem haltCore_of_running {n : Nat} {r : HaltRec} {s : State} (h : (getCore s n).mode ≠ .halted) : haltCore n r s = writeHalt n r s := if_neg h

theorem getCore_writeHalt_other {n m : Nat} (r : HaltRec) (s : State) (hm : m ≠ n) : getCore (writeHalt n r s) m = getCore s m := by
  unfold writeHalt
  dsimp only
  split
  · exact getCore_modCore_other _ _ _ _ hm
  · exact (getCore_modPart ..).trans (getCore_modCore_other _ _ _ _ hm)

theorem writeHalt_frame (n : Nat) (r : HaltRec) (s : State) : { writeHalt n r s with cores := s.cores, parts := s.parts } = s := by
  unfold writeHalt
  dsimp only
  split <;> rfl

/-- However many records are kept, the last is the one added. -/
theorem getLast?_addHaltRec (pt : Part) (r : HaltRec) (ofKernel : Nat) : (addHaltRec pt r ofKernel).getLast? = some r := by
  have hkept : ¬(pt.haltRecs ++ [r]).length ≤ (pt.haltRecs ++ [r]).length - max 64 ofKernel := by
    rw [List.length_append, List.length_singleton]
    omega
  rw [addHaltRec, lastN, List.getLast?_drop, if_neg hkept, List.getLast?_concat]

theorem haltRecs_writeHalt {n p : Nat} (r : HaltRec) {s : State} (hpart : (getCore s n).part = some p) :
    (getPart (writeHalt n r s) p).haltRecs.getLast? = some r := by
  unfold writeHalt
  dsimp only
  rw [hpart]
  dsimp only
  rw [getPart_modPart_same]
  exact getLast?_addHaltRec ..

/-! ### Cores, states and steps stand -/

/-- From s₀ to s no core has changed, and no partition's state or step. -/
def CoresStand (s₀ s : State) : Prop :=
  s.cores = s₀.cores ∧ ∀ p, (getPart s p).st = (getPart s₀ p).st ∧ (getPart s p).step = (getPart s₀ p).step

section
variable {s₀ s t : State} {α β : Type} {c : Prop} [Decidable c]

theorem CoresStand.refl (s : State) : CoresStand s s := ⟨rfl, fun _ => ⟨rfl, rfl⟩⟩

theorem CoresStand.of_eq (h : CoresStand s₀ s) (hcores : t.cores = s.cores) (hparts : t.parts = s.parts) : CoresStand s₀ t := by
  unfold CoresStand getPart
  rw [hcores, hparts]
  exact h

/-- Flags, messages and records. -/
theorem CoresStand.reported (h : CoresStand s₀ s) (k : Reported s t) : CoresStand s₀ t := h.of_eq k.cores k.parts

theorem CoresStand.ite (h : CoresStand s₀ s) (k : CoresStand s₀ t) : CoresStand s₀ (if c then s else t) := by
  split
  · exact h
  · exact k

theorem CoresStand.ite_fst {x y : State × α} (h : CoresStand s₀ x.1) (k : CoresStand s₀ y.1) : CoresStand s₀ (if c then x else y).1 := by
  split
  · exact h
  · exact k

theorem CoresStand.foldl {f : State → α → State} {l : List α} (hf : ∀ t x, CoresStand s₀ t → CoresStand s₀ (f t x)) (h : CoresStand s₀ s) :
    CoresStand s₀ (l.foldl f s) := List.foldlRecOn l f h (fun t ht x _ => hf t x ht)

theorem CoresStand.foldl_fst {f : State × β → α → State × β} {l : List α} {a : State × β}
    (hf : ∀ a x, CoresStand s₀ a.1 → CoresStand s₀ (f a x).1) (h : CoresStand s₀ a.1) : CoresStand s₀ (l.foldl f a).1 :=
  List.foldlRecOn (motive := fun a => CoresStand s₀ a.1) l f h (fun a ha x _ => hf a x ha)

theorem CoresStand.of_fst {x y : State × α} (e : x = y) (h : CoresStand s₀ x.1) : CoresStand s₀ y.1 := e ▸ h

end

section
variable {s₀ s : State}

/-- A change of a partition that is neither its state nor its step. -/
theorem modPart_coresStand {p g} (hst : ∀ x : Part, (g x).st = x.st) (hstep : ∀ x : Part, (g x).step = x.step) (h : CoresStand s₀ s) :
    CoresStand s₀ (modPart p g s) := by
  obtain ⟨hcores, hparts⟩ := h
  refine ⟨hcores, fun k => ?_⟩
  by_cases hk : k = p
  · subst hk
    rw [getPart_modPart_same, hst, hstep]
    exact hparts k
  · rw [getPart_modPart_other _ _ _ _ hk]
    exact hparts k

/-! #### Stack memory (12 R327 to R332) -/

theorem recordErr_coresStand {r} (h : CoresStand s₀ s) : CoresStand s₀ (recordErr r s) := h.reported (recordErr_reported ..)

theorem pendChannel_coresStand {chan code} (h : CoresStand s₀ s) : CoresStand s₀ (pendChannel chan code s) := by
  refine .ite h (CoresStand.reported ?_ (tellMapout_reported ..))
  exact h

theorem noteWeightPage_coresStand {page} (h : CoresStand s₀ s) : CoresStand s₀ (noteWeightPage page s) := by
  unfold noteWeightPage
  split
  · exact h
  · exact .ite (modPart_coresStand (fun _ => rfl) (fun _ => rfl) h) h

theorem noteWeight_coresStand {chan off} (h : CoresStand s₀ s) : CoresStand s₀ (noteWeight chan off s) := by
  unfold noteWeight
  split
  · exact h
  · exact noteWeightPage_coresStand h

theorem chanErr_coresStand {chan off mis} (h : CoresStand s₀ s) : CoresStand s₀ (chanErr chan off mis s) := by
  unfold chanErr
  extract_lets c es s1
  have h1 : CoresStand s₀ s1 := h
  exact .ite h (.ite (pendChannel_coresStand h1) h1)

theorem dramError_coresStand {code by_ action corr unc mis delta chan off} (h : CoresStand s₀ s) :
    CoresStand s₀ (dramError code by_ action corr unc mis delta chan off s) := chanErr_coresStand (recordErr_coresStand h)

theorem stackWrite_coresStand {chan off l} (h : CoresStand s₀ s) : CoresStand s₀ (stackWrite chan off l s) := .ite h h

theorem modChan_coresStand {c g} (h : CoresStand s₀ s) : CoresStand s₀ (modChan c g s) := h

theorem setChk_coresStand {chan off d} (h : CoresStand s₀ s) : CoresStand s₀ (setChk chan off d s) := h

theorem stackRead_coresStand {by_ chan off} (h : CoresStand s₀ s) : CoresStand s₀ (stackRead by_ chan off s).1 := by
  unfold stackRead
  dsimp only
  refine .ite_fst h ?_
  split
  · exact h
  · exact h
  · exact modChan_coresStand (dramError_coresStand h)
  · exact dramError_coresStand h
  · exact setChk_coresStand (noteWeight_coresStand (dramError_coresStand h))

/-! #### The shared cache (03 R70 to R73, 12 R321, R335) -/

theorem putLine_coresStand {L ln} (h : CoresStand s₀ s) : CoresStand s₀ (putLine L ln s) := h

theorem dropLine_coresStand {L} (h : CoresStand s₀ s) : CoresStand s₀ (dropLine L s) := h

theorem placeLine_coresStand {L ln} (h : CoresStand s₀ s) : CoresStand s₀ (placeLine L ln s) :=
  putLine_coresStand (.ite h h)

theorem pendSlice_coresStand {n code} (h : CoresStand s₀ s) : CoresStand s₀ (pendSlice n code s) := by
  refine .ite h (CoresStand.reported ?_ (post_reported ..))
  exact h

theorem sliceError_coresStand {kind code by_ action corr unc L way byte delta} (h : CoresStand s₀ s) :
    CoresStand s₀ (sliceError kind code by_ action corr unc L way byte delta s) := by
  unfold sliceError
  extract_lets sl st inj q page s1 es cache s2
  have h1 : CoresStand s₀ s1 := recordErr_coresStand h
  clear_value s1
  have h2 : CoresStand s₀ s2 := h1
  exact .ite h1 (.ite (pendSlice_coresStand h2) h2)

theorem checkTags_coresStand {by_ L ln} (h : CoresStand s₀ s) : CoresStand s₀ (checkTags by_ L ln s).1 :=
  .ite_fst h (.ite_fst (putLine_coresStand (sliceError_coresStand h))
    (.ite_fst (noteWeightPage_coresStand (putLine_coresStand (sliceError_coresStand h))) (dropLine_coresStand (sliceError_coresStand h))))

theorem recordFindings_coresStand {by_ L ln drop} (h : CoresStand s₀ s) : CoresStand s₀ (recordFindings by_ L ln drop s) := by
  unfold recordFindings
  refine .foldl (fun _ _ h1 => ?_) h
  split
  · exact sliceError_coresStand h1
  · exact .ite (sliceError_coresStand h1) (sliceError_coresStand h1)
  · exact h1

theorem checkData_coresStand {by_ L ln} (h : CoresStand s₀ s) : CoresStand s₀ (checkData by_ L ln s).1 := by
  unfold checkData
  extract_lets fs bad drop s1 s2
  have h1 : CoresStand s₀ s1 := recordFindings_coresStand h
  exact .ite_fst h (.ite_fst (dropLine_coresStand h1) (.ite (noteWeightPage_coresStand (putLine_coresStand h1)) (putLine_coresStand h1)))

theorem checkLine_coresStand {by_ L ln} (h : CoresStand s₀ s) : CoresStand s₀ (checkLine by_ L ln s).1 := by
  unfold checkLine
  split
  · next e1 => exact .of_fst e1 (checkTags_coresStand h)
  · next e1 => exact checkData_coresStand (.of_fst e1 (checkTags_coresStand h))

theorem writeLine_coresStand {L ln} (h : CoresStand s₀ s) : CoresStand s₀ (writeLine L ln s) := by
  unfold writeLine
  dsimp only
  split
  · exact h
  · exact .ite (stackWrite_coresStand h) (stackWrite_coresStand (stackRead_coresStand h))

theorem writeBack_coresStand {L ln} (h : CoresStand s₀ s) : CoresStand s₀ (writeBack L ln s) := by
  unfold writeBack
  split
  · next e1 => exact .of_fst e1 (checkLine_coresStand h)
  · next s1 ln1 e1 =>
    have h1 : CoresStand s₀ s1 := .of_fst e1 (checkLine_coresStand h)
    exact writeLine_coresStand (putLine_coresStand h1)

theorem evict_coresStand {L ln} (h : CoresStand s₀ s) : CoresStand s₀ (evict L ln s) := dropLine_coresStand (.ite (writeBack_coresStand h) h)

theorem takeWay_coresStand {L} (h : CoresStand s₀ s) : CoresStand s₀ (takeWay L s).1 := by
  unfold takeWay
  extract_lets sl st held off v s1
  have h1 : CoresStand s₀ s1 := h
  refine .ite_fst h1 ?_
  split
  · exact h1
  · exact evict_coresStand h1

theorem lineWriteAlloc_coresStand {L off bytes} (h : CoresStand s₀ s) : CoresStand s₀ (lineWriteAlloc L off bytes s) := by
  unfold lineWriteAlloc
  split
  · exact placeLine_coresStand (takeWay_coresStand h)
  · exact placeLine_coresStand h

theorem lineWriteThrough_coresStand {L off bytes} (h : CoresStand s₀ s) : CoresStand s₀ (lineWriteThrough L off bytes s) := by
  unfold lineWriteThrough
  split
  · exact h
  · split
    · next ln _ =>
      have h1 := writeBack_coresStand (L := L) (ln := { mergeBytes ln off bytes with dirty := true })
        (placeLine_coresStand (L := L) (ln := mergeBytes ln off bytes) h)
      exact .ite h1 (dropLine_coresStand h1)
    · exact .ite (stackWrite_coresStand h) (stackWrite_coresStand (stackRead_coresStand h))

theorem lineWrite_coresStand {L off bytes} (h : CoresStand s₀ s) : CoresStand s₀ (lineWrite L off bytes s) :=
  .ite (lineWriteThrough_coresStand h) (lineWriteAlloc_coresStand h)

/-! #### Entries of the rings (09 R242 to R244) -/

theorem sessPlaced_coresStand {e} (h : CoresStand s₀ s) : CoresStand s₀ (sessPlaced e s) := .ite h (.ite h h)

theorem placeEntry_coresStand {r e} (h : CoresStand s₀ s) : CoresStand s₀ (placeEntry r e s) := by
  unfold placeEntry
  extract_lets x bytes a n s1 s2 s3
  have h3 : CoresStand s₀ s3 := sessPlaced_coresStand (s := s2) h
  refine .ite (CoresStand.reported ?_ (msix_reported ..)) h3
  exact h3

theorem ringPost_coresStand {r e} (h : CoresStand s₀ s) : CoresStand s₀ (ringPost r e s) :=
  .ite (placeEntry_coresStand h) (.ite h (sessPlaced_coresStand h))

theorem postSess_coresStand {n e} (h : CoresStand s₀ s) : CoresStand s₀ (postSess n e s) := .ite h (ringPost_coresStand h)

theorem endWith_coresStand {n e} (h : CoresStand s₀ s) : CoresStand s₀ (endWith n e s) := .ite h (postSess_coresStand h)

theorem retryReqEv_coresStand {ev n code} (h : CoresStand s₀ s) : CoresStand s₀ (retryReqEv ev n code s) := endWith_coresStand h

theorem draftFails_coresStand {d} (h : CoresStand s₀ s) : CoresStand s₀ (draftFails d s) := by
  unfold draftFails
  split
  · exact h
  · exact .ite h h

/-! #### Sessions that lose pages (08 R210, R230) -/

theorem ownWrite_coresStand {p va bytes} (h : CoresStand s₀ s) : CoresStand s₀ (ownWrite p va bytes s) := by
  refine .foldl_fst (fun a _ h1 => ?_) h
  dsimp only
  split
  · exact h1
  · exact lineWrite_coresStand h1

theorem syncDir_coresStand {p n old} (h : CoresStand s₀ s) : CoresStand s₀ (syncDir p n old s) := by
  unfold syncDir
  dsimp only
  split
  · exact h
  · exact .ite h (.foldl (fun _ _ h1 => .ite h1 (ownWrite_coresStand h1)) (ownWrite_coresStand h))

theorem releasePages_coresStand {p pages} (h : CoresStand s₀ s) : CoresStand s₀ (releasePages p pages s) :=
  modPart_coresStand (fun _ => rfl) (fun _ => rfl) h

theorem cutPages_coresStand {p n i} (h : CoresStand s₀ s) : CoresStand s₀ (cutPages p n i s) := by
  unfold cutPages
  split
  · exact h
  · exact syncDir_coresStand (releasePages_coresStand h)

theorem logShort_coresStand {n} (h : CoresStand s₀ s) : CoresStand s₀ (logShort n s) := endWith_coresStand h

theorem loseFrom_coresStand {ev p n i} (h : CoresStand s₀ s) : CoresStand s₀ (loseFrom ev p n i s) := by
  have h1 := cutPages_coresStand (p := p) (n := n) (i := i / max 1 (getPart s p).params.run * max 1 (getPart s p).params.run) h
  unfold loseFrom
  dsimp only
  refine CoresStand.reported ?_ (post_reported ..)
  split
  · exact .ite h1 h1
  · exact .ite h1 (.ite (logShort_coresStand h1) h1)
  · exact retryReqEv_coresStand h1
  · exact retryReqEv_coresStand h1
  · exact h1

theorem loseSessionsEv_coresStand {ev p} (h : CoresStand s₀ s) : CoresStand s₀ (loseSessionsEv ev p s) := by
  unfold loseSessionsEv
  refine .foldl (fun _ _ h1 => .ite h1 ?_) h
  split
  · exact loseFrom_coresStand h1
  · exact h1

/-! #### What ends with a step (09 R241, R252, R253) -/

theorem doCancels_coresStand {ev p} (h : CoresStand s₀ s) : CoresStand s₀ (doCancels ev p s) :=
  .foldl (fun _ _ h1 => .ite (endWith_coresStand h1) h1) h

theorem settleDrafts_coresStand {es} (h : CoresStand s₀ s) : CoresStand s₀ (settleDrafts es s) := .foldl (fun _ _ h1 => h1) h

end

/-! ### A step that fails (09 R253) -/

/-- The partition once its step is over. -/
def withoutStep (x : Part) : Part := { x with step := none }

theorem addStepRec_coresStand (p : Nat) (r : StepRec) (s : State) :
    CoresStand (modPart p withoutStep s) (modPart p (fun x => addStepRec r (withoutStep x)) s) := by
  refine ⟨(modPart_cores ..).trans (modPart_cores ..).symm, fun k => ?_⟩
  by_cases hk : k = p
  · subst hk
    rw [getPart_modPart_same, getPart_modPart_same]
    exact ⟨rfl, rfl⟩
  · rw [getPart_modPart_other _ _ _ _ hk, getPart_modPart_other _ _ _ _ hk]
    exact ⟨rfl, rfl⟩

theorem failStep_coresStand {p : Nat} (code : Code) {s : State} {st : Step} (hstep : (getPart s p).step = some st) :
    CoresStand (modPart p withoutStep s) (failStep p code s) := by
  unfold failStep
  split
  · next hnone => exact absurd (hstep.symm.trans hnone) (Option.some_ne_none st)
  · extract_lets ks evs pos r ev s1 s2
    have h1 : CoresStand (modPart p withoutStep s) s1 := settleDrafts_coresStand (addStepRec_coresStand p r s)
    have h2 : CoresStand (modPart p withoutStep s) s2 := .foldl (fun _ _ h => .ite (draftFails_coresStand h) (retryReqEv_coresStand h)) h1
    exact loseSessionsEv_coresStand (doCancels_coresStand h2)

theorem failStep_of_none {p : Nat} (code : Code) {s : State} (hstep : (getPart s p).step = none) : failStep p code s = s := by
  rw [failStep, hstep]

/-- What a failed step leaves: the cores and the partition's state as before, and no step. -/
theorem failStep_leaves (p : Nat) (code : Code) (s : State) :
    (failStep p code s).cores = s.cores ∧ (getPart (failStep p code s) p).st = (getPart s p).st ∧ (getPart (failStep p code s) p).step = none := by
  cases hstep : (getPart s p).step with
  | none =>
    rw [failStep_of_none code hstep]
    exact ⟨rfl, rfl, hstep⟩
  | some st =>
    obtain ⟨hcores, hparts⟩ := failStep_coresStand code hstep
    obtain ⟨hst, hnone⟩ := hparts p
    rw [getPart_modPart_same] at hst hnone
    exact ⟨hcores, hst, hnone⟩

/-! ### The halt of a kernel is complete (R139, R141) -/

theorem opDone_reported (o : LongOp) (code : Code) (detail : BitVec 256) (s : State) : Reported s (opDone o code detail s) := by
  have hposted : ∀ (sb : SigBox) ev also, Reported s (postRec ev also { s with sb := sb }) := fun sb ev also =>
    Reported.trans (t := { s with sb := sb }) rfl (postRec_reported ..)
  exact hposted _ _ _

theorem endOps_reported (p opcode : Nat) (code : Code) (s : State) : Reported s (endOps p opcode code s) :=
  .foldl (fun t o => opDone_reported o code 0 t) _ s

/-- Every core of the kernel has halted, no command runs and no SCU command is outstanding: the halt is carried out. -/
theorem haltComplete_of_done {p : Nat} {s : State} {k : Kernel} {code : Code} {lc : Nat} (hk : (getPart s p).kernel = some k)
    (hhalting : k.halting = some (code, lc)) (hdone : ∀ n ∈ k.cores, (getCore s n).mode = .halted ∧ inProgress (getCore s n) = false)
    (hscu : scuBusy s p = false) :
    haltComplete p s =
      let s1 := failStep p 0x4120 (modPart p (fun x => { x with st := .halted, drainCut := false }) s)
      let s2 := modPart p (fun x => { x with kernel := none, coll := x.coll.map (fun r => { r with stale := true }) }) s1
      endOps p 0x020C 0x4120 (endOps p 0x0A01 code (partEvent p code s2)) := by
  have hall : k.cores.all (fun n => (getCore s n).mode == .halted) = true := by
    simpa using fun n hn => (hdone n hn).1
  have hnone : k.cores.any (fun n => inProgress (getCore s n)) = false := by
    simpa using fun n hn => (hdone n hn).2
  simp [haltComplete, hk, hhalting, hall, hnone, hscu]

/-- Settles O16: a halt writes one record (`writeHalt`), and what completes the halt of a kernel leaves the cores (`CoresStand`). -/
theorem haltsFreezeTheCores : Obligations.HaltsFreezeTheCores := by
  unfold Obligations.HaltsFreezeTheCores
  refine ⟨fun n r s => ⟨haltCore_of_halted, fun hrun => ?_⟩, fun p s k code lc hp hk hhalting hdone hscu =>
    ⟨haltComplete p s, onUnit_of_lt hp, ?_⟩⟩
  · rw [haltCore_of_running hrun]
    exact ⟨getCore_writeHalt_same .., fun m hm => getCore_writeHalt_other r s hm, writeHalt_frame .., fun p hpart => haltRecs_writeHalt r hpart⟩
  · rw [haltComplete_of_done hk hhalting hdone hscu]
    extract_lets s1 s2
    have htold : Reported s2 (endOps p 0x020C 0x4120 (endOps p 0x0A01 code (partEvent p code s2))) :=
      ((partEvent_reported ..).trans (endOps_reported ..)).trans (endOps_reported ..)
    obtain ⟨hcores, hst, hstep⟩ := failStep_leaves p 0x4120 (modPart p (fun x => { x with st := .halted, drainCut := false }) s)
    rw [getPart_modPart_same] at hst
    rw [getPart, htold.parts, htold.cores]
    change (getPart s2 p).st = _ ∧ (getPart s2 p).kernel = _ ∧ (getPart s2 p).step = _ ∧ s1.cores = _
    rw [getPart_modPart_same]
    exact ⟨hst, rfl, hstep, hcores⟩

end Sys2Proof.Machine
end

section
/-!
PROOF. Instructions of the control core (06 R165 to R169): one rule for a word that its row's checks let pass and one for a word that they
fault; from these the results of arithmetic, branches and jumps, identity and END, and what an instruction leaves unchanged.
-/

namespace Sys2Proof.Machine

/-! ### A fetched word in its row (R169) -/

/-- Two changes of a core that agree on it are the same change of the state. -/
theorem modCore_congr {n : Nat} {g h : Core → Core} {s : State} (hcore : g (getCore s n) = h (getCore s n)) : modCore n g s = modCore n h s := by
  unfold modCore spMod
  exact congrArg (fun c => { s with cores := spSet {} s.cores n c }) hcore

/-- Checks that name no lowest code find nothing. -/
theorem eq_nil_of_lowest {l : List Code} (h : lowest l = none) : l = [] := by
  cases l with
  | nil => rfl
  | cons c t =>
    unfold lowest at h
    split at h <;> cases h

section
variable {i : Instr} {n w : Nat} {sel : Nat → Bool} {bad : State → Core → Nat → List Code} {eff : Nat → State → State} {s t u : State}

/-- A word that the checks of its row fault halts the control core. -/
theorem runInsn_of_faults {c : Code} (hfetch : Fetches n w s t) (hsel : sel w = true) (hcode : lowest (bad t (getCore t n) w) = some c) :
    runInsn n sel bad eff s = haltCtrl n c t := by
  obtain ⟨_, hword⟩ := hfetch
  simp only [runInsn, hword, hsel, hcode]
  rfl

variable (hrow : exec i s = onCore n (runInsn n sel bad eff s)) (hfetch : Fetches n w s t) (hsel : sel w = true)
include hrow hfetch hsel

/-- A word that its checks let pass has its effect. -/
theorem exec_of_passes (hgood : bad t (getCore t n) w = []) : exec i s = .next (eff w t) := by
  rw [hrow, onCore, onUnit_of_lt hfetch.1, runInsn_of_passes hfetch hsel hgood]

/-- A word that its checks fault halts the control core with the lowest code. -/
theorem exec_of_faults {c : Code} (hcode : lowest (bad t (getCore t n) w) = some c) : exec i s = .next (haltCtrl n c t) := by
  rw [hrow, onCore, onUnit_of_lt hfetch.1, runInsn_of_faults hfetch hsel hcode]

/-- A core that still runs has had the effect. -/
theorem eff_of_running (hexec : exec i s = .next u) (hrun : (getCore u n).mode = .run) : u = eff w t := by
  cases hcode : lowest (bad t (getCore t n) w) with
  | none =>
    have hgood := exec_of_passes hrow hfetch hsel (eq_nil_of_lowest hcode)
    exact Host.Outcome.next.inj (hexec.symm.trans hgood)
  | some c =>
    have hhalt := Host.Outcome.next.inj (hexec.symm.trans (exec_of_faults hrow hfetch hsel hcode))
    rw [hhalt, haltCtrl, haltCore_mode] at hrun
    cases hrun

end

/-! ### Checks (R169) -/

theorem when_eq_nil {b : Bool} {c : Code} (h : b = false) : when_ b c = [] := by simp [when_, h]

theorem when_of_true {b : Bool} {c : Code} (h : b = true) : when_ b c = [c] := by simp [when_, h]

theorem resv_eq_nil {b : Bool} (h : b = false) : resv b = [] := when_eq_nil h

theorem badVal_eq_nil {b : Bool} (h : b = false) : badVal b = [] := when_eq_nil h

/-! ### ALU (R167) -/

/-- The high half of a product fits a register. -/
theorem aluOp_mulHigh_toNat (a b : Word) : (aluOp 3 a b).toNat = a.toNat * b.toNat / 2 ^ 64 := by
  have hhigh : a.toNat * b.toNat / 2 ^ 64 < 2 ^ 64 :=
    Nat.div_lt_of_lt_mul (Nat.mul_lt_mul'' a.isLt b.isLt)
  exact (BitVec.toNat_ofNat ..).trans (Nat.mod_eq_of_lt hhigh)

theorem aluOp_shiftLeft_getLsbD (a b : Word) {i : Nat} (hi : i < 64) :
    (aluOp 7 a b).getLsbD i = (decide (b.toNat % 64 ≤ i) && a.getLsbD (i - b.toNat % 64)) := by
  rw [aluOp, BitVec.getLsbD_shiftLeft, decide_eq_true hi, Bool.true_and, ← decide_not]
  simp only [Nat.not_lt]

theorem aluOp_shiftRight_toNat (a b : Word) : (aluOp 8 a b).toNat = a.toNat / 2 ^ (b.toNat % 64) := by
  rw [aluOp, BitVec.toNat_ushiftRight, Nat.shiftRight_eq_div_pow]

theorem aluOp_shiftRightSigned_toInt (a b : Word) : (aluOp 9 a b).toInt = a.toInt / 2 ^ (b.toNat % 64) := by
  rw [aluOp, BitVec.toInt_sshiftRight, Int.shiftRight_eq_div_pow]
  norm_cast

theorem aluOp_minSigned_toInt (a b : Word) : (aluOp 12 a b).toInt = min a.toInt b.toInt := by
  simp only [aluOp]
  split <;> omega

theorem aluOp_maxSigned_toInt (a b : Word) : (aluOp 13 a b).toInt = max a.toInt b.toInt := by
  simp only [aluOp]
  split <;> omega

theorem aluOp_min_toNat (a b : Word) : (aluOp 14 a b).toNat = min a.toNat b.toNat := by
  simp only [aluOp]
  split <;> omega

theorem aluOp_max_toNat (a b : Word) : (aluOp 15 a b).toNat = max a.toNat b.toNat := by
  simp only [aluOp]
  split <;> omega

theorem aluOp_div_toNat (a b : Word) : (aluOp 16 a b).toNat = if b.toNat = 0 then 2 ^ 64 - 1 else a.toNat / b.toNat := by
  have hzero : b = 0 ↔ b.toNat = 0 := BitVec.toNat_eq
  simp only [aluOp, hzero]
  split
  · rfl
  · exact BitVec.toNat_udiv

theorem aluOp_rem_toNat (a b : Word) : (aluOp 17 a b).toNat = if b.toNat = 0 then a.toNat else a.toNat % b.toNat := by
  have hzero : b = 0 ↔ b.toNat = 0 := BitVec.toNat_eq
  simp only [aluOp, hzero]
  split
  · rfl
  · exact BitVec.toNat_umod

section
variable {n w f : Nat} {s t : State} (hfetch : Fetches n w s t) (hop : opIs 1 w = true)
include hfetch hop

theorem exec_alu (hf : f ≤ 17) (hfunc : fld w 10 0 = f) :
    exec (.alu n) s = .next (setRd n (fRd w) (aluOp f (reg (getCore t n) (fRa w)) (reg (getCore t n) (fRb w))) t) := by
  subst hfunc
  exact exec_of_passes (sel := isAlu) (bad := fun _ _ _ => []) (eff := aluEff n) rfl hfetch (by simp [isAlu, hop, hf]) rfl

theorem exec_insnUndef_of_func (hf : 18 ≤ fld w 10 0) : exec (.insnUndef n) s = .next (haltCtrl n 0x1120 t) :=
  exec_of_faults (sel := isUndef) (bad := fun _ _ _ => [0x1120]) rfl hfetch (by simp [isUndef, hop]; omega) rfl

end

/-- Settles O6: each defined FUNC is `aluOp`, whose value the lemmas above give; the others are words of the row of undefined instructions. -/
theorem aluFunctions : Obligations.AluFunctions := by
  unfold Obligations.AluFunctions
  intro n w s t hfetch hop a b gives
  have hgives : ∀ f, f ≤ 17 → fld w 10 0 = f → gives (aluOp f a b) := fun f => exec_alu hfetch hop
  exact ⟨hgives 0 (by decide), hgives 1 (by decide), hgives 2 (by decide), fun h => ⟨_, hgives 3 (by decide) h, aluOp_mulHigh_toNat a b⟩,
    hgives 4 (by decide), hgives 5 (by decide), hgives 6 (by decide),
    fun h => ⟨_, hgives 7 (by decide) h, fun i => aluOp_shiftLeft_getLsbD a b⟩, fun h => ⟨_, hgives 8 (by decide) h, aluOp_shiftRight_toNat a b⟩,
    fun h => ⟨_, hgives 9 (by decide) h, aluOp_shiftRightSigned_toInt a b⟩, hgives 10 (by decide), hgives 11 (by decide),
    fun h => ⟨_, hgives 12 (by decide) h, aluOp_minSigned_toInt a b⟩, fun h => ⟨_, hgives 13 (by decide) h, aluOp_maxSigned_toInt a b⟩,
    fun h => ⟨_, hgives 14 (by decide) h, aluOp_min_toNat a b⟩, fun h => ⟨_, hgives 15 (by decide) h, aluOp_max_toNat a b⟩,
    fun h => ⟨_, hgives 16 (by decide) h, aluOp_div_toNat a b⟩, fun h => ⟨_, hgives 17 (by decide) h, aluOp_rem_toNat a b⟩,
    exec_insnUndef_of_func hfetch hop⟩

/-! ### Registers (R165) -/

theorem reg_setReg_same {i : Nat} (v : Word) (c : Core) (hi : i ≠ 0) : reg (setReg i v c) i = v := by
  rw [reg, setReg, if_neg hi, if_neg hi]
  exact spGet_spSet_same ..

theorem reg_setReg_other {i j : Nat} (v : Word) (c : Core) (hj : j ≠ i) : reg (setReg i v c) j = reg c j := by
  unfold reg setReg
  split
  · rfl
  · split
    · rfl
    · exact spGet_spSet_other _ _ _ _ _ hj

/-! ### Immediates (R166) -/

theorem fld_lt (x hi lo : Nat) : fld x hi lo < 2 ^ (hi + 1 - lo) := Nat.mod_lt _ (Nat.two_pow_pos _)

/-- MOVK replaces the 16 bits of one quarter. -/
theorem getLsbD_putQuarter (v : Word) (k : Nat) {imm i : Nat} (himm : imm < 2 ^ 16) (hi : i < 64) :
    (putQuarter v k imm).getLsbD i = if i / 16 = k then imm.testBit (i % 16) else v.getLsbD i := by
  have hmask : ∀ j, (0xFFFF : Word).getLsbD j = decide (j < 16) := fun j =>
    (BitVec.getLsbD_ofNat 64 0xFFFF j).trans (by rw [show 0xFFFF = 2 ^ 16 - 1 from rfl, Nat.testBit_two_pow_sub_one]; grind)
  have himm' : ∀ j, 16 ≤ j → imm.testBit j = false := fun j hj =>
    Nat.testBit_lt_two_pow (himm.trans_le (Nat.pow_le_pow_right (by decide) hj))
  simp only [putQuarter, BitVec.getLsbD_or, BitVec.getLsbD_and, BitVec.getLsbD_not, BitVec.getLsbD_shiftLeft, BitVec.getLsbD_ofNat, hmask, hi,
    decide_true, Bool.true_and]
  obtain hlow | hin | hhigh : i < 16 * k ∨ (16 * k ≤ i ∧ i < 16 * k + 16) ∨ 16 * k + 16 ≤ i := by omega
  · have hne : i / 16 ≠ k := by omega
    simp [hlow, hne]
  · have heq : i / 16 = k := by omega
    have hoff : i - 16 * k = i % 16 := by omega
    have hmod : i % 16 < 16 := Nat.mod_lt _ (by decide)
    have hoff64 : i % 16 < 64 := by omega
    simp [Nat.not_lt.mpr hin.1, heq, hoff, hmod, hoff64]
  · have hne : i / 16 ≠ k := by omega
    have hout : ¬ i - 16 * k < 16 := by omega
    simp [hne, hout, himm' (i - 16 * k) (by omega)]

theorem shiftResv_eq_nil {w : Nat} (t : State) (c : Core) (h : fld w 15 6 = 0) : shiftResv t c w = [] := resv_eq_nil (by simp [h])

theorem movResv_eq_nil {w : Nat} (t : State) (c : Core) (h : fld w 20 18 = 0) : movResv t c w = [] := resv_eq_nil (by simp [h])

/-- Settles O7: each word passes its checks and writes rd; a written register is `setReg`'s. -/
theorem immediatesAndRegisterZero : Obligations.ImmediatesAndRegisterZero := by
  unfold Obligations.ImmediatesAndRegisterZero
  refine ⟨fun n w s t hfetch => ?_, fun c i j v => ⟨rfl, rfl, reg_setReg_same v c, reg_setReg_other v c⟩⟩
  intro a gives
  have hgives : ∀ {c k bad f}, exec c s = onCore n (runInsn n (opIs k) bad (immEff n f) s) → opIs k w = true → bad t (getCore t n) w = [] →
      gives c (f a w) := fun hrow => exec_of_passes hrow hfetch
  refine ⟨fun hop => hgives (f := fun a w => a + sImm w) rfl hop rfl, fun hop => hgives (f := fun a w => a &&& zImm w) rfl hop rfl,
    fun hop => hgives (f := fun a w => a ||| zImm w) rfl hop rfl, fun hop => hgives (f := fun a w => a ^^^ zImm w) rfl hop rfl,
    fun hop hr => hgives (f := fun a w => a <<< fld w 5 0) rfl hop (shiftResv_eq_nil t _ hr),
    fun hop hr => hgives (f := fun a w => a >>> fld w 5 0) rfl hop (shiftResv_eq_nil t _ hr),
    fun hop hr => hgives (f := fun a w => a.sshiftRight (fld w 5 0)) rfl hop (shiftResv_eq_nil t _ hr),
    fun hop => hgives (f := fun a w => if a.toInt < sx 16 (fImm w) then 1 else 0) rfl hop rfl,
    fun hop hr => exec_of_passes (eff := fun w => setRd n (fRd w) (zImm w <<< (16 * fld w 17 16))) rfl hfetch hop (movResv_eq_nil t _ hr),
    fun hop hr => ⟨_, ?_, fun i hi => getLsbD_putQuarter _ _ (fld_lt w 15 0) hi⟩⟩
  exact exec_of_passes (eff := fun w s => setRd n (fRd w) (putQuarter (reg (getCore s n) (fRd w)) (fld w 17 16) (fImm w)) s) rfl hfetch hop
    (movResv_eq_nil t _ hr)

/-! ### Branches and jumps (R166, R169) -/

/-- A target inside the image's code and at an instruction. -/
def Inside (c : Core) (target : Int) : Prop := 0 ≤ target ∧ target + 4 ≤ c.code.length ∧ target % 4 = 0

theorem goodTarget_iff (c : Core) (target : Int) : goodTarget c target = true ↔ Inside c target := decide_eq_true_iff

section
variable {i : Instr} {n w k : Nat} {s t : State}

/-- A branch row under its comparison. -/
theorem exec_branch {test : Word → Word → Bool} {taken : Prop} (hrow : exec i s = branch k test n s) (hfetch : Fetches n w s t)
    (hop : opIs k w = true) (htest : test (reg (getCore t n) (pRa w)) (reg (getCore t n) (pRb w)) = true ↔ taken) :
    let c := getCore t n
    (taken → Inside c (brTarget c w) → exec i s = .next (modCore n (fun c' => { c' with pc := (brTarget c w).toNat }) t))
    ∧ (taken → ¬Inside c (brTarget c w) → exec i s = .next (haltCtrl n 0x1122 t))
    ∧ (¬taken → exec i s = .next (modCore n nextPc t)) := by
  refine ⟨fun htaken hinside => ?_, fun htaken hout => ?_, fun hnot => ?_⟩
  · rw [exec_of_passes hrow hfetch hop (when_eq_nil (by simp [(goodTarget_iff ..).mpr hinside]))]
    exact congrArg _ (modCore_congr (if_pos (htest.mpr htaken)))
  · have hbad : goodTarget (getCore t n) (brTarget (getCore t n) w) = false := by
      rw [Bool.eq_false_iff, ne_eq, goodTarget_iff]
      exact hout
    refine exec_of_faults hrow hfetch hop ?_
    rw [brBad, when_of_true (by simp [htest.mpr htaken, hbad])]
    rfl
  · have htest' : test (reg (getCore t n) (pRa w)) (reg (getCore t n) (pRb w)) = false := by
      rw [Bool.eq_false_iff, ne_eq, htest]
      exact hnot
    rw [exec_of_passes hrow hfetch hop (when_eq_nil (by simp [htest']))]
    exact congrArg _ (modCore_congr (if_neg (by simp [htest'])))

/-- A jump row to its target. -/
theorem exec_jump {target : Core → Nat → Int}
    (hrow : exec i s = onCore n (runInsn n (opIs k) (fun _ c w => when_ (!goodTarget c (target c w)) 0x1122)
      (fun w s => jumpTo n (fRd w) (fun c => target c w) s) s))
    (hfetch : Fetches n w s t) (hop : opIs k w = true) :
    let c := getCore t n
    (Inside c (target c w) → exec i s
      = .next (modCore n (fun c' => { setReg (fRd w) (BitVec.ofNat 64 (c.pc + 4)) c' with pc := (target c w).toNat }) t))
    ∧ (¬Inside c (target c w) → exec i s = .next (haltCtrl n 0x1122 t)) := by
  refine ⟨fun hinside => ?_, fun hout => ?_⟩
  · rw [exec_of_passes hrow hfetch hop (when_eq_nil (by simp [(goodTarget_iff ..).mpr hinside]))]
    exact congrArg _ (modCore_congr rfl)
  · have hbad : goodTarget (getCore t n) (target (getCore t n) w) = false := by
      rw [Bool.eq_false_iff, ne_eq, goodTarget_iff]
      exact hout
    refine exec_of_faults hrow hfetch hop ?_
    rw [when_of_true (by simp [hbad])]
    rfl

end

/-- Settles O9: every branch is a row of `branch`, every jump one of `jumpTo`. -/
theorem branchesAndJumps : Obligations.BranchesAndJumps := by
  unfold Obligations.BranchesAndJumps
  refine ⟨fun n w s t hfetch => ?_, fun n w s t hfetch => ?_⟩
  · intro c a b target inside goes
    have hgoes : ∀ {i k test taken}, exec i s = branch k test n s → (test a b = true ↔ taken) → opIs k w = true → goes i taken :=
      fun hrow htest hop => exec_branch hrow hfetch hop htest
    exact ⟨hgoes rfl beq_iff_eq, hgoes rfl bne_iff_ne, hgoes rfl decide_eq_true_iff, hgoes rfl decide_eq_true_iff, hgoes rfl decide_eq_true_iff,
      hgoes rfl decide_eq_true_iff⟩
  · exact ⟨exec_jump (target := jalTarget) rfl hfetch, exec_jump (target := jalrTarget) rfl hfetch⟩

/-! ### Banks, identity, END, undefined opcodes (R166, R168, R175, 03 R80) -/

section
variable {n w : Nat} {s t : State} (hfetch : Fetches n w s t)
include hfetch

/-- The change that BANK enters: it waits for the commands pushed so far. -/
def bankReq (m st : Nat) (c : Core) : BankReq :=
  { mask := BitVec.ofNat 32 m, st := bankOfCode st, after := [c.me.nextOrd, c.ve.nextOrd, c.mv.nextOrd, c.tt.nextOrd] }

theorem exec_bank {m : Nat} (hm : (reg (getCore t n) (pRa w)).toNat % 2 ^ 32 = m) (hop : opIs 0x2B w = true) (hrb : pRb w = 0)
    (hrest : fld w 15 2 = 0) (hst : fld w 1 0 ≠ 3) (hmask : m % 2 ^ banksUsed (getCore t n).size = 0 ∨ enginesIdle (getCore t n) = true) :
    exec (.bank n) s = .next (modCore n (fun c => nextPc { c with bankReqs := c.bankReqs ++ [bankReq m (fld w 1 0) c] }) t) := by
  have hval : (fld w 1 0 == 3 || (m % 2 ^ banksUsed (getCore t n).size != 0 && !enginesIdle (getCore t n))) = false := by
    obtain hzero | hidle := hmask
    · simp [hst, hzero]
    · simp [hst, hidle]
  subst hm
  have hpass := exec_of_passes (rfl : exec (.bank n) s = execBank n s) hfetch hop
    (by dsimp only; rw [resv_eq_nil (by simp [hrb, hrest]), badVal_eq_nil hval, List.append_nil])
  exact hpass.trans (congrArg _ (modCore_congr rfl))

/-- The selectors 0 to 8 read their values. -/
theorem exec_idSel (hop : opIs 0x2C w = true) (hra : fRa w = 0) (hsel : fImm w < 9) :
    exec (.idSel n) s = .next (setRd n (fRd w) (idValue t n (fImm w)) (if fImm w = 5 then { t with free := t.free + 1 } else t)) := by
  have hpass := exec_of_passes (rfl : exec (.idSel n) s = execIdSel n s) hfetch hop (by simp [resv_eq_nil, badVal_eq_nil, hra, hsel])
  exact hpass

theorem exec_idSel_of_ne (hop : opIs 0x2C w = true) (hra : fRa w = 0) {sel : Nat} (hlt : sel < 9) (hne : sel ≠ 5) (hsel : fImm w = sel) :
    exec (.idSel n) s = .next (setRd n (fRd w) (idValue t n sel) t) := by
  subst hsel
  rw [exec_idSel hfetch hop hra hlt, if_neg hne]

theorem exec_idSel_of_range (hop : opIs 0x2C w = true) (hra : fRa w = 0) (hsel : 9 ≤ fImm w) :
    exec (.idSel n) s = .next (haltCtrl n 0x1124 t) :=
  exec_of_faults (rfl : exec (.idSel n) s = execIdSel n s) hfetch hop (by simp [resv_eq_nil, badVal, when_of_true, hra, hsel, lowest])

theorem exec_mapch {h : Nat} (hop : opIs 0x2D w = true) (himm : fImm w = 0) (hbound : physChan t n (reg (getCore t n) (fRa w)).toNat = some h) :
    exec (.mapch n) s = .next (setRd n (fRd w) (BitVec.ofNat 64 h) t) := by
  have hpass := exec_of_passes (rfl : exec (.mapch n) s = execMapch n s) hfetch hop (by simp [resv_eq_nil, when_eq_nil, himm, hbound])
  rw [hpass, hbound]
  rfl

theorem exec_mapch_of_unbound (hop : opIs 0x2D w = true) (himm : fImm w = 0) (hbound : physChan t n (reg (getCore t n) (fRa w)).toNat = none) :
    exec (.mapch n) s = .next (haltCtrl n 0x1123 t) :=
  exec_of_faults (rfl : exec (.mapch n) s = execMapch n s) hfetch hop (by simp [resv_eq_nil, when_of_true, himm, hbound, lowest])

theorem exec_endPart (hop : opIs 0x2E w = true) (hzero : fld w 25 0 = 0) :
    exec (.endPart n) s = .next (modCore n (fun c => { c with mode := .ended }) t) :=
  exec_of_passes (rfl : exec (.endPart n) s = execEndPart n s) hfetch hop (resv_eq_nil (by simp [hzero]))

theorem exec_insnUndef_of_opcode (hop : opDefined w = false) : exec (.insnUndef n) s = .next (haltCtrl n 0x1120 t) :=
  exec_of_faults (sel := isUndef) (bad := fun _ _ _ => [0x1120]) rfl hfetch (by simp [isUndef, hop]) rfl

end

/-- Settles O12: each word passes the checks of its row, or the fault named is the only one they find. -/
theorem bankIdentityAndEnd : Obligations.BankIdentityAndEnd := by
  unfold Obligations.BankIdentityAndEnd
  intro n w s t hfetch c m ch k gives
  refine ⟨exec_bank hfetch rfl, fun hop hra => ?_, fun hop himm => ⟨?_, ?_⟩,
    fun hop hzero => exec_endPart hfetch hop hzero, exec_insnUndef_of_opcode hfetch⟩
  · have hgives := fun sel => exec_idSel_of_ne hfetch hop hra (sel := sel)
    refine ⟨hgives 0 (by decide) (by decide), hgives 1 (by decide) (by decide), hgives 2 (by decide) (by decide), hgives 3 (by decide) (by decide),
      hgives 4 (by decide) (by decide), fun hsel => ⟨idValue t n 5, ?_⟩, hgives 6 (by decide) (by decide), hgives 7 (by decide) (by decide),
      hgives 8 (by decide) (by decide), exec_idSel_of_range hfetch hop hra⟩
    rw [exec_idSel hfetch hop hra (by omega), if_pos hsel, hsel]
  · exact fun h hbound => exec_mapch hfetch hop himm hbound
  · exact exec_mapch_of_unbound hfetch hop himm

/-! ### What an instruction leaves unchanged (R165 to R167) -/

/-- From t to u nothing outside core n has changed. -/
def OnlyCore (n : Nat) (t u : State) : Prop := { u with cores := t.cores } = t ∧ ∀ m, m ≠ n → getCore u m = getCore t m

theorem modCore_onlyCore (n : Nat) (g : Core → Core) (t : State) : OnlyCore n t (modCore n g t) :=
  ⟨rfl, fun _ hm => getCore_modCore_other _ _ _ _ hm⟩

/-- From c to d only register rd and the program counter have changed. -/
def ResultOnly (rd : Nat) (c d : Core) : Prop := (∀ j, j ≠ rd → reg d j = reg c j) ∧ { d with regs := c.regs, pc := c.pc } = c

/-- A write of rd and of the program counter. -/
theorem setReg_resultOnly (rd pc : Nat) (v : Word) (c : Core) : ResultOnly rd c { setReg rd v c with pc := pc } := by
  refine ⟨fun j hj => reg_setReg_other v c hj, ?_⟩
  unfold setReg
  split <;> rfl

/-- An effect that leaves all but rd and the program counter of its core. -/
def GivesResult (n rd : Nat) (eff : State → State) : Prop := ∀ t, OnlyCore n t (eff t) ∧ ResultOnly rd (getCore t n) (getCore (eff t) n)

theorem setRd_givesResult {n rd : Nat} {v : State → Word} : GivesResult n rd (fun s => setRd n rd (v s) s) := by
  refine fun t => ⟨modCore_onlyCore .., ?_⟩
  dsimp only
  rw [setRd, getCore_modCore_same]
  exact setReg_resultOnly ..

theorem jumpTo_givesResult {n rd : Nat} {target : Core → Int} : GivesResult n rd (jumpTo n rd target) := by
  refine fun t => ⟨modCore_onlyCore .., ?_⟩
  rw [jumpTo, getCore_modCore_same]
  exact setReg_resultOnly ..

/-- A branch changes the program counter of its core. -/
theorem brEff_pcOnly (test : Word → Word → Bool) (n w : Nat) (t : State) :
    OnlyCore n t (brEff test n w t) ∧ { getCore (brEff test n w t) n with pc := (getCore t n).pc } = getCore t n := by
  refine ⟨modCore_onlyCore .., ?_⟩
  rw [brEff, getCore_modCore_same]
  split <;> rfl

/-- Settles O13: an instruction after which its core still runs has had its effect, which writes rd or moves the program counter. -/
theorem instructionFrame : Obligations.InstructionFrame := by
  unfold Obligations.InstructionFrame
  intro n w k i s t u hfetch hop hexec hrun
  have hresult : ∀ {sel bad eff}, exec i s = onCore n (runInsn n sel bad eff s) → sel w = true → GivesResult n (fRd w) (eff w) →
      OnlyCore n t u ∧ ResultOnly (fRd w) (getCore t n) (getCore u n) := fun hrow hsel hgives => by
    rw [eff_of_running hrow hfetch hsel hexec hrun]
    exact hgives t
  have hbranch : ∀ {test}, exec i s = branch k test n s → OnlyCore n t u ∧ { getCore u n with pc := (getCore t n).pc } = getCore t n :=
    fun hrow => by
      rw [eff_of_running hrow hfetch hop hexec hrun]
      exact brEff_pcOnly ..
  refine ⟨fun hi => ?_, fun hi => ?_⟩
  · simp only [List.mem_cons, List.not_mem_nil, Prod.mk.injEq, or_false] at hi
    obtain ⟨rfl, halu⟩ | ⟨rfl, rfl⟩ | ⟨rfl, rfl⟩ | ⟨rfl, rfl⟩ | ⟨rfl, rfl⟩ | ⟨rfl, rfl⟩ | ⟨rfl, rfl⟩ | ⟨rfl, rfl⟩ | ⟨rfl, rfl⟩ | ⟨rfl, rfl⟩
      | ⟨rfl, rfl⟩ | ⟨rfl, rfl⟩ | ⟨rfl, rfl⟩ | ⟨rfl, rfl⟩ | ⟨rfl, rfl⟩ := hi
    · exact hresult (rfl : _ = execAlu n s) halu setRd_givesResult
    · exact hresult (rfl : _ = execAddi n s) hop setRd_givesResult
    · exact hresult (rfl : _ = execAndi n s) hop setRd_givesResult
    · exact hresult (rfl : _ = execOri n s) hop setRd_givesResult
    · exact hresult (rfl : _ = execXori n s) hop setRd_givesResult
    · exact hresult (rfl : _ = execShli n s) hop setRd_givesResult
    · exact hresult (rfl : _ = execShri n s) hop setRd_givesResult
    · exact hresult (rfl : _ = execSari n s) hop setRd_givesResult
    · exact hresult (rfl : _ = execSlti n s) hop setRd_givesResult
    · exact hresult (rfl : _ = execMovz n s) hop setRd_givesResult
    · exact hresult (rfl : _ = execMovk n s) hop setRd_givesResult
    · exact hresult (rfl : _ = execSlot n s) hop setRd_givesResult
    · exact hresult (rfl : _ = execMapch n s) hop setRd_givesResult
    · exact hresult (rfl : _ = execJal n s) hop jumpTo_givesResult
    · exact hresult (rfl : _ = execJalr n s) hop jumpTo_givesResult
  · simp only [List.mem_cons, List.not_mem_nil, Prod.mk.injEq, or_false] at hi
    obtain ⟨rfl, rfl⟩ | ⟨rfl, rfl⟩ | ⟨rfl, rfl⟩ | ⟨rfl, rfl⟩ | ⟨rfl, rfl⟩ | ⟨rfl, rfl⟩ := hi
    · exact hbranch (rfl : _ = execBeq n s)
    · exact hbranch (rfl : _ = execBne n s)
    · exact hbranch (rfl : _ = execBlt n s)
    · exact hbranch (rfl : _ = execBge n s)
    · exact hbranch (rfl : _ = execBltu n s)
    · exact hbranch (rfl : _ = execBgeu n s)

end Sys2Proof.Machine
end

section
/-!
PROOF. Loads and stores of the control core (06 R166, R169): what a word that passes its checks reads or writes, and what a store leaves
unchanged.
-/

namespace Sys2Proof.Machine

/-! ### Bytes of a sparse memory -/

@[simp] theorem leBytes_length (x n : Nat) : (leBytes x n).length = n := by
  induction n generalizing x with
  | zero => rfl
  | succ n ih => exact congrArg (· + 1) (ih _)

@[simp] theorem pbData_pbOf (p : Bool) (l : List Byte) : pbData (pbOf p l) = l := by
  simp [pbData, pbOf, Function.comp_def]

theorem spGet_spWrite_outside {m : Sp Byte} {a b : Nat} {l : List Byte} (hb : b < a ∨ a + l.length ≤ b) :
    spGet 0 (spWrite m a l) b = spGet 0 m b := by
  induction l generalizing m a with
  | nil => rfl
  | cons x l ih =>
    rw [List.length_cons] at hb
    rw [spWrite, ih (by omega), spGet_spSet_other _ _ _ _ _ (by omega)]

/-- Bytes written are the bytes that stand there. -/
theorem spBytes_spWrite (m : Sp Byte) (a : Nat) (l : List Byte) : spBytes (spWrite m a l) a l.length = l := by
  induction l generalizing m a with
  | nil => rfl
  | cons x l ih =>
    rw [List.length_cons, spBytes, spWrite, ih, spGet_spWrite_outside (.inl (Nat.lt_succ_self a)), spGet_spSet_same]

/-! ### Checks of an address (R169) -/

theorem ldcBad_eq_nil {w : Nat} {c : Core} (t : State) (halign : memAddr c w % 8 = 0) (hrange : memAddr c w + 8 ≤ 0x4000) :
    ldcBad t c w = [] :=
  badVal_eq_nil (decide_eq_false (by omega))

theorem ldsBad_eq_nil {w : Nat} {c : Core} (t : State) (halign : memAddr c w % 8 = 0) (hrange : memAddr c w + 8 ≤ c.size)
    (hon : storeCode c (memAddr c w : Int) 8 = none) : ldsBad t c w = [] := by
  have hin : ¬(memAddr c w % 8 ≠ 0 ∨ c.size < memAddr c w + 8) := by omega
  simp only [ldsBad, if_neg hin, hon]

/-! ### Loads -/

section
variable {i : Instr} {n w : Nat} {sel : Nat → Bool} {bad : State → Core → Nat → List Code} {read : Nat → State → State × List PB} {s t : State}

/-- A load row whose address passes: the word read, or the halt at a poisoned byte. -/
theorem exec_load (hrow : exec i s = onCore n (runInsn n sel bad (fun w s => loadRd n (fRd w) (read w s)) s)) (hfetch : Fetches n w s t)
    (hsel : sel w = true) (hgood : bad t (getCore t n) w = []) :
    (pbPoison (read w t).2 = false → exec i s = .next (setRd n (fRd w) (BitVec.ofNat 64 (ofLe (pbData (read w t).2))) (read w t).1))
    ∧ (pbPoison (read w t).2 = true → exec i s = .next (haltCtrl n 0x1125 (read w t).1)) := by
  rw [exec_of_passes hrow hfetch hsel hgood]
  exact ⟨fun hclean => congrArg _ (if_neg (by simp [hclean])), fun hpoison => congrArg _ (if_pos hpoison)⟩

end

/-! ### Stores -/

section
variable {n w : Nat} {s t : State} (hfetch : Fetches n w s t)
include hfetch

theorem exec_stc (hop : opIs 0x0D w = true) (halign : memAddr (getCore t n) w % 8 = 0) (hrange : memAddr (getCore t n) w + 8 ≤ 0x4000) :
    exec (.stc n) s
      = .next (modCore n nextPc (cmemWrite n (memAddr (getCore t n) w) (leBytes (reg (getCore t n) (fRd w)).toNat 8) t)) :=
  exec_of_passes (rfl : exec (.stc n) s = execStc n s) hfetch hop (ldcBad_eq_nil t halign hrange)

theorem exec_sts (hop : opIs 0x0F w = true) (halign : memAddr (getCore t n) w % 8 = 0)
    (hrange : memAddr (getCore t n) w + 8 ≤ (getCore t n).size) (hon : storeCode (getCore t n) (memAddr (getCore t n) w : Int) 8 = none) :
    exec (.sts n) s
      = .next (modCore n nextPc (storeWrite n (memAddr (getCore t n) w) (pbOf false (leBytes (reg (getCore t n) (fRd w)).toNat 8)) t)) :=
  exec_of_passes (rfl : exec (.sts n) s = execSts n s) hfetch hop (ldsBad_eq_nil t halign hrange hon)

end

theorem OnlyCore.trans {n : Nat} {s t u : State} (h : OnlyCore n s t) (k : OnlyCore n t u) : OnlyCore n s u := by
  obtain ⟨hdevice, hothers⟩ := h
  obtain ⟨kdevice, kothers⟩ := k
  exact ⟨(congrArg (fun x : State => { x with cores := s.cores }) kdevice).trans hdevice, fun m hm => (kothers m hm).trans (hothers m hm)⟩

theorem cmemWrite_onlyCore (n a : Nat) (l : List Byte) (t : State) : OnlyCore n t (cmemWrite n a l t) := modCore_onlyCore ..

theorem storeWrite_onlyCore (n a : Nat) (l : List PB) (t : State) : OnlyCore n t (storeWrite n a l t) := modCore_onlyCore ..

/-- The core store after a write and the next instruction. -/
theorem getCore_sts (n a : Nat) (l : List Byte) (t : State) :
    let c := getCore t n
    let d := getCore (modCore n nextPc (storeWrite n a (pbOf false l) t)) n
    d.regs = c.regs ∧ d.p = c.p ∧ d.pc = c.pc + 4 ∧ d.cmem = c.cmem ∧ d.store = spWrite c.store a l := by
  dsimp only
  rw [getCore_modCore_same, storeWrite, getCore_modCore_same, pbData_pbOf]
  exact ⟨rfl, rfl, rfl, rfl, rfl⟩

/-- Control memory after a write and the next instruction. -/
theorem getCore_stc (n a : Nat) (l : List Byte) (t : State) :
    let c := getCore t n
    let d := getCore (modCore n nextPc (cmemWrite n a l t)) n
    d.regs = c.regs ∧ d.p = c.p ∧ d.pc = c.pc + 4 ∧ d.store = c.store ∧ d.cmem = spWrite c.cmem a l := by
  dsimp only
  rw [getCore_modCore_same, cmemWrite, getCore_modCore_same]
  exact ⟨rfl, rfl, rfl, rfl, rfl⟩

/-- Eight bytes written: the bytes outside are as before, and those inside are the ones written. -/
theorem spWrite_leBytes (m : Sp Byte) (a x : Nat) :
    (∀ b, b < a ∨ a + 8 ≤ b → spGet 0 (spWrite m a (leBytes x 8)) b = spGet 0 m b) ∧ spBytes (spWrite m a (leBytes x 8)) a 8 = leBytes x 8 := by
  have hbytes := spBytes_spWrite m a (leBytes x 8)
  rw [leBytes_length] at hbytes
  exact ⟨fun b hb => spGet_spWrite_outside (by rwa [leBytes_length]), hbytes⟩

/-- Settles O8: a word in range is read or written where it stands, and a store is a write of eight bytes and of the program counter. -/
theorem loadsAndStores : Obligations.LoadsAndStores := by
  unfold Obligations.LoadsAndStores
  refine ⟨fun n w s t hfetch => ?_, fun n w s t u hfetch => ?_⟩
  · exact ⟨fun hop halign hrange => exec_load (read := fun w s => cmemRead n (memAddr (getCore s n) w) 8 s) rfl hfetch hop
        (ldcBad_eq_nil t halign hrange), exec_stc hfetch,
      fun hop ⟨halign, hrange, hon⟩ => exec_load (read := fun w s => storeRead n (memAddr (getCore s n) w) 8 s) rfl hfetch hop
        (ldsBad_eq_nil t halign hrange hon), fun hop ⟨halign, hrange, hon⟩ => exec_sts hfetch hop halign hrange hon⟩
  · refine ⟨fun hop halign hrange hon hexec => ?_, fun hop halign hrange hexec => ?_⟩
    · obtain rfl := Host.Outcome.next.inj (hexec.symm.trans (exec_sts hfetch hop halign hrange hon))
      obtain ⟨hregs, hp, hpc, hcmem, hstore⟩ := getCore_sts n (memAddr (getCore t n) w) (leBytes (reg (getCore t n) (fRd w)).toNat 8) t
      obtain ⟨hdevice, hothers⟩ := (storeWrite_onlyCore ..).trans (modCore_onlyCore n nextPc _)
      refine ⟨⟨hdevice, hothers, hregs, hp, hpc⟩, hcmem, ?_⟩
      exact hstore ▸ spWrite_leBytes ..
    · obtain rfl := Host.Outcome.next.inj (hexec.symm.trans (exec_stc hfetch hop halign hrange))
      obtain ⟨hregs, hp, hpc, hstore, hcmem⟩ := getCore_stc n (memAddr (getCore t n) w) (leBytes (reg (getCore t n) (fRd w)).toNat 8) t
      obtain ⟨hdevice, hothers⟩ := (cmemWrite_onlyCore ..).trans (modCore_onlyCore n nextPc _)
      refine ⟨⟨hdevice, hothers, hregs, hp, hpc⟩, hstore, ?_⟩
      exact hcmem ▸ spWrite_leBytes ..

end Sys2Proof.Machine
end

section
/-!
PROOF. The push register (06 R166) and the scoreboard (05 R123 to R125): what TPL, PSET, PINS and PADD write into P, and what WAIT, INCR, SLOT
and the end of a wait do.
-/

namespace Sys2Proof.Machine

/-! ### A field of the push register -/

/-- The three parts of a number put together from a low part, a field and a high part. -/
theorem splice_parts {A B L V : Nat} (H : Nat) (hL : L < A) (hV : V < B) :
    (L + A * (V + B * H)) / A % B = V ∧ (L + A * (V + B * H)) % A = L ∧ (L + A * (V + B * H)) / (A * B) = H := by
  have hA : 0 < A := Nat.zero_lt_of_lt hL
  have hB : 0 < B := Nat.zero_lt_of_lt hV
  have hdiv : (L + A * (V + B * H)) / A = V + B * H := by
    rw [Nat.add_mul_div_left _ _ hA, Nat.div_eq_of_lt hL, Nat.zero_add]
  refine ⟨?_, ?_, ?_⟩
  · rw [hdiv, Nat.add_mul_mod_self_left, Nat.mod_eq_of_lt hV]
  · rw [Nat.add_mul_mod_self_left, Nat.mod_eq_of_lt hL]
  · rw [← Nat.div_div_eq_div_mul, hdiv, Nat.add_mul_div_left _ _ hB, Nat.div_eq_of_lt hV, Nat.zero_add]

/-- A number as its low part, a field and its high part. -/
theorem eq_splice (x A B : Nat) : x = x % A + A * (x / A % B + B * (x / (A * B))) := by
  rw [← Nat.div_div_eq_div_mul, Nat.mod_add_div, Nat.mod_add_div]

/-- Such a number stays below the product of its parts' ranges. -/
theorem splice_lt {A B C L V H : Nat} (hL : L < A) (hV : V < B) (hH : H < C) : L + A * (V + B * H) < A * (B * C) :=
  calc L + A * (V + B * H) < A + A * (V + B * H) := Nat.add_lt_add_right hL _
    _ = A * (V + 1 + B * H) := by ring
    _ ≤ A * (B + B * H) := Nat.mul_le_mul_left _ (Nat.add_le_add_right hV _)
    _ = A * (B * (H + 1)) := by ring
    _ ≤ A * (B * C) := Nat.mul_le_mul_left _ (Nat.mul_le_mul_left _ hH)

/-- A field replaced within 256 bits. -/
theorem putField_toNat (p : BitVec 256) {pos wid : Nat} (v : Nat) (hfits : pos + wid ≤ 256) :
    (putField p pos wid v).toNat = p.toNat % 2 ^ pos + 2 ^ pos * (v % 2 ^ wid + 2 ^ wid * (p.toNat / (2 ^ pos * 2 ^ wid))) := by
  have hsize : 2 ^ pos * (2 ^ wid * 2 ^ (256 - (pos + wid))) = 2 ^ 256 := by
    rw [← pow_add, ← pow_add, ← Nat.add_assoc, Nat.add_sub_cancel' hfits]
  have hhigh : p.toNat / (2 ^ pos * 2 ^ wid) < 2 ^ (256 - (pos + wid)) :=
    Nat.div_lt_of_lt_mul (by rw [Nat.mul_assoc, hsize]; exact p.isLt)
  have hlt := splice_lt (Nat.mod_lt p.toNat (Nat.two_pow_pos pos)) (Nat.mod_lt v (Nat.two_pow_pos wid)) hhigh
  rw [hsize] at hlt
  rw [putField, BitVec.toNat_ofNat, Nat.shiftRight_eq_div_pow]
  refine (congrArg (· % 2 ^ 256) ?_).trans (Nat.mod_eq_of_lt hlt)
  have hold := eq_splice p.toNat (2 ^ pos) (2 ^ wid)
  rw [Nat.mul_add] at hold ⊢
  rw [Nat.mul_comm _ (2 ^ pos), Nat.mul_comm _ (2 ^ pos)]
  omega

/-- What a field replaced leaves: its own bits are the value's, those below and above are as before. -/
theorem putField_parts (p : BitVec 256) {pos wid : Nat} (v : Nat) (hfits : pos + wid ≤ 256) :
    (putField p pos wid v).toNat / 2 ^ pos % 2 ^ wid = v % 2 ^ wid ∧ (putField p pos wid v).toNat % 2 ^ pos = p.toNat % 2 ^ pos
      ∧ (putField p pos wid v).toNat / 2 ^ (pos + wid) = p.toNat / 2 ^ (pos + wid) := by
  rw [putField_toNat p v hfits, pow_add]
  exact splice_parts _ (Nat.mod_lt _ (Nat.two_pow_pos _)) (Nat.mod_lt _ (Nat.two_pow_pos _))

/-! ### Instructions of the push register (R166) -/

/-- PINS and PADD let a field within P pass. -/
theorem pinsBad_eq_nil {w : Nat} {c : Core} (t : State) (hrb : pRb w = 0) (hrest : fld w 1 0 = 0) (hfits : fPos w + fWid w ≤ 256) : pinsBad t c w = [] := by
  rw [pinsBad, resv_eq_nil (by simp [hrb, hrest]), badVal_eq_nil (decide_eq_false (Nat.not_lt.mpr hfits)), List.append_nil]

section
variable {n w : Nat} {s t : State} (hfetch : Fetches n w s t)
include hfetch

theorem exec_tpl (hop : opIs 0x20 w = true) (hrd : fRd w = 0)
    (hrange : tplNo (getCore t n) w < (getCore t n).tmpl.length) :
    let r := tmplRead n (tplNo (getCore t n) w) t
    (pbPoison r.2 = false → exec (.tpl n) s = .next (modCore n (fun c => nextPc { c with p := BitVec.ofNat 256 (ofLe (pbData r.2)) }) r.1))
    ∧ (pbPoison r.2 = true → exec (.tpl n) s = .next (haltCtrl n 0x1125 r.1)) := by
  have hpass := exec_of_passes (rfl : exec (.tpl n) s = execTpl n s) hfetch hop
    (by rw [resv_eq_nil (by simp [hrd]), badVal_eq_nil (decide_eq_false (Nat.not_le.mpr hrange)), List.append_nil])
  rw [hpass]
  exact ⟨fun hclean => congrArg _ (if_neg (by simp [hclean])), fun hpoison => congrArg _ (if_pos hpoison)⟩

theorem exec_pset (hop : opIs 0x21 w = true) (hrb : pRb w = 0) (hrest : fld w 15 3 = 0) :
    exec (.pset n) s = .next (modCore n (fun c => nextPc { c with p := putField c.p (32 * fld w 2 0) 32 (reg c (pRa w)).toNat }) t) :=
  exec_of_passes (rfl : exec (.pset n) s = execPset n s) hfetch hop (resv_eq_nil (by simp [hrb, hrest]))

end

/-- A row that writes a field of P: the field holds the value, the other bits of P are as before. -/
theorem exec_putField {i : Instr} {n pos wid x : Nat} {g : Core → Core} {s t : State} (hexec : exec i s = .next (modCore n g t))
    (hg : g (getCore t n) = nextPc { getCore t n with p := putField (getCore t n).p pos wid x }) (hfits : pos + wid ≤ 256) :
    ∃ q : BitVec 256, exec i s = .next (modCore n (fun c => nextPc { c with p := q }) t) ∧ q.toNat / 2 ^ pos % 2 ^ wid = x % 2 ^ wid
      ∧ q.toNat % 2 ^ pos = (getCore t n).p.toNat % 2 ^ pos ∧ q.toNat / 2 ^ (pos + wid) = (getCore t n).p.toNat / 2 ^ (pos + wid) :=
  ⟨putField (getCore t n).p pos wid x, hexec.trans (congrArg _ (modCore_congr hg)), putField_parts _ _ hfits⟩

/-! ### The scoreboard (R123 to R126, R166) -/

section
variable {n w : Nat} {s t : State} (hfetch : Fetches n w s t)
include hfetch

theorem exec_wait {v : Nat} (hv : (reg (getCore t n) (pRa w)).toNat = v) (hop : opIs 0x28 w = true) (hrb : pRb w = 0) (hrest : fld w 15 6 = 0)
    (hrange : v < 2 ^ 32) :
    exec (.wait n) s = .next (modCore n (fun c =>
      if v ≤ (ctr c (fld w 5 0)).toNat then nextPc c else { c with mode := .waiting (fld w 5 0) v, waitSince := t.ftime }) t) := by
  subst hv
  have hpass := exec_of_passes (rfl : exec (.wait n) s = execWait n s) hfetch hop
    (by rw [resv_eq_nil (by simp [hrb, hrest]), badVal_eq_nil (decide_eq_false (Nat.not_le.mpr hrange)), List.append_nil])
  exact hpass.trans (congrArg _ (modCore_congr rfl))

/-- INCR with its amount in range, of a local counter or of a core that the kernel holds. -/
theorem exec_incr (hop : opIs 0x29 w = true) (hrest : fld w 15 7 = 0) (hlow : 1 ≤ (reg (getCore t n) (pRb w)).toNat)
    (hhigh : (reg (getCore t n) (pRb w)).toNat ≤ 65535)
    (htarget : (fld w 6 6 = 0 ∧ pRa w = 0) ∨ (fld w 6 6 = 1 ∧ (physCore t n (reg (getCore t n) (pRa w)).toNat).isSome = true)) :
    exec (.incr n) s = .next (incrEff n w t) := by
  have hamount : badVal ((reg (getCore t n) (pRb w)).toNat == 0 || decide (65535 < (reg (getCore t n) (pRb w)).toNat)) = [] :=
    badVal_eq_nil (by simp; omega)
  refine exec_of_passes (rfl : exec (.incr n) s = execIncr n s) hfetch hop ?_
  obtain ⟨hlocal, hra⟩ | ⟨hremote, hcore⟩ := htarget
  · simp [incrBad, hlocal, hra, hrest, hamount, when_eq_nil]
  · simp [incrBad, hremote, hcore, hrest, hamount, when_eq_nil]

theorem exec_slot (hop : opIs 0x2A w = true) (hrest : fld w 15 2 = 0) :
    exec (.slot n) s = .next (setRd n (fRd w)
      (BitVec.ofNat 64 (spGet 0 (getEng (getCore t n) (fld w 1 0)).slots ((reg (getCore t n) (fRa w)).toNat % 64)).toNat) t) :=
  exec_of_passes (rfl : exec (.slot n) s = execSlot n s) hfetch hop (resv_eq_nil (by simp [hrest]))

end

/-- The record of an overflow speaks of what moving on leaves alone. -/
theorem ctrlRec_modCore_nextPc (n : Nat) (code : Code) (t : State) : ctrlRec (modCore n nextPc t) n code = ctrlRec t n code := by
  simp only [ctrlRec, haltBase, getCore_modCore_same]
  rfl

theorem incrEff_of_local {n w : Nat} {t : State} (hlocal : fld w 6 6 = 0) :
    incrEff n w t = incr n (fld w 5 0) (reg (getCore t n) (pRb w)).toNat (ctrlRec t n 0x1110) (modCore n nextPc t) := by
  rw [← ctrlRec_modCore_nextPc]
  exact if_neg (by simp [hlocal])

theorem incrEff_of_remote {n w : Nat} {t : State} (hremote : fld w 6 6 = 1) :
    incrEff n w t = incrRemote n (reg (getCore t n) (pRa w)).toNat (fld w 5 0) (reg (getCore t n) (pRb w)).toNat (modCore n nextPc t) :=
  if_pos hremote

theorem exec_waitResumes {n i v : Nat} {s : State} (hn : n < 144) (hwaits : (getCore s n).mode = .waiting i v) :
    exec (.waitResumes n) s
      = .next (if v ≤ (ctr (getCore s n) i).toNat then modCore n (fun c => nextPc { c with mode := .run }) s else s) := by
  refine (onUnit_of_lt hn).trans ?_
  rw [hwaits]

/-- Settles O10: what P holds after each write of a field, and each step of the scoreboard. -/
theorem pushRegisterAndScoreboard : Obligations.PushRegisterAndScoreboard := by
  unfold Obligations.PushRegisterAndScoreboard
  refine ⟨fun n w s t hfetch => ?_, fun n w s t hfetch => ?_, fun n i v s hn hwaits => ?_⟩
  · have hword : fld w 2 0 < 8 := fld_lt w 2 0
    refine ⟨exec_tpl hfetch, fun hop hrb hrest => ?_, fun hop hrb hrest hfits => ?_, fun hop hrb hrest hfits => ?_⟩
    · exact exec_putField (exec_pset hfetch hop hrb hrest) rfl (by omega)
    · exact exec_putField (exec_of_passes (rfl : exec (.pins n) s = execPins n s) hfetch hop (pinsBad_eq_nil t hrb hrest hfits)) rfl hfits
    · exact exec_putField (exec_of_passes (rfl : exec (.padd n) s = execPadd n s) hfetch hop (pinsBad_eq_nil t hrb hrest hfits))
        (by rw [Nat.shiftRight_eq_div_pow]; rfl) hfits
  · refine ⟨exec_wait hfetch rfl, fun hop hrest hlow hhigh => ⟨fun hlocal hra => ?_, fun hremote hcore => ?_⟩, exec_slot hfetch⟩
    · rw [exec_incr hfetch hop hrest hlow hhigh (.inl ⟨hlocal, hra⟩), incrEff_of_local hlocal]
      rfl
    · rw [exec_incr hfetch hop hrest hlow hhigh (.inr ⟨hremote, hcore⟩), incrEff_of_remote hremote]
      rfl
  · rw [exec_waitResumes hn hwaits]
    exact ⟨fun hmet => congrArg _ (if_pos hmet), fun hshort => congrArg _ (if_neg (Nat.not_le.mpr hshort))⟩

end Sys2Proof.Machine
end

section
/-!
PROOF. Engine commands that start (06 R146, R151 to R162, 05 R135, R138): which bodies no access stops, what becomes of a command that is
neither rejected nor stopped, and DISPATCH (06 R159, 04 R88, R89).
-/

namespace Sys2Proof.Machine

/-! ### A command that its body ends (R138) -/

section
variable {n q opc : Nat} {body : QEnt → State → Res EngWork} {c : Instr} {e : QEnt} {s t : State}

theorem runEngine_of_done {d : Done} (hready : readyHead s n q opc = some e) (hbody : body e s = .ok t (.ok d)) :
    runEngine n q opc body s = complete n q e d t := by
  simp only [runEngine, hready, hbody]

theorem runEngine_of_stopped {code : Code} {va : Nat} (hready : readyHead s n q opc = some e) (hbody : body e s = .err t code va) :
    runEngine n q opc body s = haltQueue n q e code true va t := by
  simp only [runEngine, hready, hbody]

/-- A body that neither rejects nor is stopped ends with its work done. -/
theorem done_of_accepts (haccepts : Accepts body e s) (hfree : Unstopped body e s) : ∃ t d, body e s = .ok t (.ok d) := by
  cases hbody : body e s with
  | err t code va => exact absurd hbody (hfree t code va)
  | ok t r =>
    cases r with
    | error code => exact absurd hbody (haccepts t code)
    | ok d => exact ⟨t, d, rfl⟩

variable (hrow : exec c s = onCore n (runEngine n q opc body s)) (hstarts : Starts n q opc e s)
include hrow hstarts

theorem exec_of_done {d : Done} (hbody : body e s = .ok t (.ok d)) : exec c s = .next (complete n q e d t) := by
  obtain ⟨hn, hready⟩ := hstarts
  rw [hrow, onCore, onUnit_of_lt hn, runEngine_of_done hready hbody]

theorem exec_of_stopped {code : Code} {va : Nat} (hbody : body e s = .err t code va) :
    exec c s = .next (haltQueue n q e code true va t) := by
  obtain ⟨hn, hready⟩ := hstarts
  rw [hrow, onCore, onUnit_of_lt hn, runEngine_of_stopped hready hbody]

theorem exec_completes (haccepts : Accepts body e s) (hfree : Unstopped body e s) :
    ∃ t d, body e s = .ok t (.ok d) ∧ exec c s = .next (complete n q e d t) := by
  obtain ⟨t, d, hbody⟩ := done_of_accepts haccepts hfree
  exact ⟨t, d, hbody, exec_of_done hrow hstarts hbody⟩

end

/-! ### Bodies that no access stops (R134, R135, R160) -/

theorem ok_ne_err {α : Type} {s u : State} {a : α} {c : Code} {va : Nat} : Res.ok s a ≠ .err u c va := nofun

/-- Work that is not stopped is not stopped behind its checks either. -/
theorem orReject_ne_err {codes : List Code} {s : State} {k : State → Res EngWork} (hk : ∀ t u c va, k t ≠ .err u c va) (u : State) (c : Code)
    (va : Nat) : orReject codes s k ≠ .err u c va := by
  unfold orReject
  split
  · exact ok_ne_err
  · exact hk s u c va

theorem matBody_unstopped (n : Nat) (e : QEnt) (s : State) : Unstopped (matBody n) e s := by
  unfold Unstopped matBody
  dsimp only
  exact orReject_ne_err fun _ _ _ _ => ok_ne_err

theorem eltBody_unstopped (n : Nat) (e : QEnt) (s : State) : Unstopped (eltBody n) e s := by
  unfold Unstopped eltBody
  dsimp only
  exact orReject_ne_err fun _ _ _ _ => ok_ne_err

theorem redBody_unstopped (n : Nat) (e : QEnt) (s : State) : Unstopped (redBody n) e s := by
  unfold Unstopped redBody
  dsimp only
  exact orReject_ne_err fun _ _ _ _ => ok_ne_err

theorem combBody_unstopped (n : Nat) (e : QEnt) (s : State) : Unstopped (combBody n) e s := by
  unfold Unstopped combBody
  dsimp only
  exact orReject_ne_err fun _ _ _ _ => ok_ne_err

theorem cmoBody_unstopped (n : Nat) (e : QEnt) (s : State) : Unstopped (cmoBody n) e s := by
  unfold Unstopped cmoBody
  dsimp only
  exact orReject_ne_err fun _ _ _ _ => ok_ne_err

/-! ### SYNC (R146) -/

section
variable {n q : Nat} {e : QEnt} {s : State} (hq : q < 4) (hstarts : Starts n q 0x3F e s)
include hq

theorem exec_sync_row : exec (.sync n q) s = onCore n (runEngine n q 0x3F syncBody s) := congrArg (onCore n) (if_pos hq)

include hstarts

theorem exec_sync_of_clean (hclean : e.cmd.toNat < 2 ^ 128) : exec (.sync n q) s = .next (complete n q e {} s) :=
  exec_of_done (exec_sync_row hq) hstarts (if_neg (Nat.not_le.mpr hclean))

theorem exec_sync_of_reserved (hset : 2 ^ 128 ≤ e.cmd.toNat) : exec (.sync n q) s = .next (haltQueue n q e 0x1101 false 0 s) :=
  exec_of_rejected (exec_sync_row hq) hstarts (if_pos hset)

end

/-- Settles O18: every engine command is a row of `runEngine`; those of the ME and the VE and a CMO have bodies that no access stops. -/
theorem engineCommandsComplete : Obligations.EngineCommandsComplete := by
  unfold Obligations.EngineCommandsComplete
  refine ⟨fun n s e => ?_, fun n q s e hq hstarts => ⟨exec_sync_of_clean hq hstarts, exec_sync_of_reserved hq hstarts⟩, fun n s e => ?_⟩
  · intro runs
    have hruns : ∀ {c q opc body}, exec c s = onCore n (runEngine n q opc body s) → Unstopped body e s → runs c q opc body :=
      fun hrow hfree hstarts haccepts => exec_completes hrow hstarts haccepts hfree
    exact ⟨hruns rfl (matBody_unstopped n e s), hruns rfl (eltBody_unstopped n e s), hruns rfl (redBody_unstopped n e s),
      hruns rfl (combBody_unstopped n e s), hruns rfl (cmoBody_unstopped n e s)⟩
  · intro runs
    have hruns : ∀ {c q opc body}, exec c s = onCore n (runEngine n q opc body s) → runs c q opc body :=
      fun hrow hstarts haccepts => ⟨exec_completes hrow hstarts haccepts, fun _ _ _ => exec_of_stopped hrow hstarts⟩
    exact ⟨hruns rfl, hruns rfl, hruns rfl, hruns rfl⟩

/-! ### DISPATCH (R159, 04 R88, R89) -/

section
variable {n : Nat} {e : QEnt} {rest : List QEnt} {recs : List (Nat × Bool)} {s t : State}

theorem exec_dispatch (hstarts : Starts n 2 0x02 e s) (hown : dispatchCodes s n e.cmd.toNat = [])
    (hload : loadRecs n (fld e.cmd.toNat 147 128) (fld e.cmd.toNat 153 148) s = (t, recs))
    (hrecs : recs.flatMap (fun r => recCodes t n r.1) = []) : exec (.dispatch n) s = .next (dispatchGo n e recs t) := by
  obtain ⟨hn, hready⟩ := hstarts
  refine (onUnit_of_lt hn).trans (congrArg _ ?_)
  simp only [hready, hown, List.isEmpty_nil, if_true, hload, hrecs, List.append_nil, lowest]

theorem exec_dispatchWait (hn : n < 144) (hqueue : (getCore s n).mv.queue = e :: rest) (hwaited : e.waited = true)
    (hload : loadRecs n (fld e.cmd.toNat 147 128) (fld e.cmd.toNat 153 148) s = (t, recs)) :
    exec (.dispatchWait n) s = .next (dispatchGo n e recs t) := by
  refine (onUnit_of_lt hn).trans (congrArg _ ?_)
  simp only [hqueue, hwaited, if_true, hload]

end

/-- Settles O22: nothing is found by the checks, so the records go out; a held command goes on from its progress. -/
theorem dispatchSends : Obligations.DispatchSends := by
  unfold Obligations.DispatchSends
  exact ⟨fun n s t e recs => exec_dispatch, fun n s t e rest recs => exec_dispatchWait⟩

end Sys2Proof.Machine
end

section
/-!
PROOF. Commands of the ME and the VE touch memory only in their own core store (06 R144, R151 to R155, 05 R134, R135): reading the store marks
and records errors, writing it writes bytes, and nothing else that these bodies do is about memory or about another core.
-/

namespace Sys2Proof.Machine

/-! ### The relation -/

/-- A core with the store of another, its check bits and its errors. -/
def withStoreOf (c d : Core) : Core :=
  { d with store := c.store, storeChk := c.storeChk, injected := c.injected, testQ := c.testQ, errs := c.errs }

/-- From s to t at most the store of core n and the bookkeeping of its errors have changed, as far as memory, partitions, sessions, rings and
cores go. -/
structure InStore (n : Nat) (s t : State) : Prop where
  mem : t.mem = s.mem
  cache : t.cache = s.cache
  parts : t.parts = s.parts
  sess : t.sess = s.sess
  rings : t.rings = s.rings
  others : ∀ m, m ≠ n → getCore t m = getCore s m
  own : withStoreOf (getCore s n) (getCore t n) = getCore s n

section
variable {n : Nat} {s₀ s t : State} {α β : Type} {c : Prop} [Decidable c]

theorem InStore.refl (n : Nat) (s : State) : InStore n s s := ⟨rfl, rfl, rfl, rfl, rfl, fun _ _ => rfl, rfl⟩

theorem InStore.trans (h : InStore n s₀ s) (k : InStore n s t) : InStore n s₀ t where
  mem := k.mem.trans h.mem
  cache := k.cache.trans h.cache
  parts := k.parts.trans h.parts
  sess := k.sess.trans h.sess
  rings := k.rings.trans h.rings
  others := fun m hm => (k.others m hm).trans (h.others m hm)
  own := (congrArg (withStoreOf (getCore s₀ n)) k.own).trans h.own

/-- Flags, messages and records. -/
theorem InStore.reported (h : InStore n s₀ s) (k : Reported s t) : InStore n s₀ t := by
  have hrest : t.cache = s.cache ∧ t.sess = s.sess ∧ t.rings = s.rings := by
    unfold Reported at k
    rw [← k]
    exact ⟨rfl, rfl, rfl⟩
  obtain ⟨hcache, hsess, hrings⟩ := hrest
  have hcore : ∀ m, getCore t m = getCore s m := fun m => by rw [getCore, k.cores, getCore]
  exact h.trans ⟨k.mem, hcache, k.parts, hsess, hrings, fun m _ => hcore m, by rw [hcore]; rfl⟩

/-- A change of the core's store, its check bits and its errors. -/
theorem InStore.modCore {g : Core → Core} (hg : ∀ x, withStoreOf x (g x) = x) (h : InStore n s₀ s) : InStore n s₀ (modCore n g s) :=
  h.trans ⟨rfl, rfl, rfl, rfl, rfl, fun _ hm => getCore_modCore_other _ _ _ _ hm, by rw [getCore_modCore_same, hg]⟩

theorem InStore.ite (h : InStore n s₀ s) (k : InStore n s₀ t) : InStore n s₀ (if c then s else t) := by
  split
  · exact h
  · exact k

theorem InStore.ite_fst {p q : State × α} (h : InStore n s₀ p.1) (k : InStore n s₀ q.1) : InStore n s₀ (if c then p else q).1 := by
  split
  · exact h
  · exact k

theorem InStore.foldl {f : State → α → State} {l : List α} (hf : ∀ t x, InStore n s₀ t → InStore n s₀ (f t x)) (h : InStore n s₀ s) :
    InStore n s₀ (l.foldl f s) := List.foldlRecOn l f h (fun t ht x _ => hf t x ht)

/-- The same where a result is carried along. -/
theorem InStore.foldl_fst {f : State × β → α → State × β} {l : List α} {a : State × β}
    (hf : ∀ a x, InStore n s₀ a.1 → InStore n s₀ (f a x).1) (h : InStore n s₀ a.1) : InStore n s₀ (l.foldl f a).1 :=
  List.foldlRecOn (motive := fun a => InStore n s₀ a.1) l f h (fun a ha x _ => hf a x ha)

end

section
variable {n : Nat} {s₀ s : State}

/-! ### The core store (03 R78, 12 R315, R316, R332) -/

theorem pendCore_inStore {m code} (h : InStore n s₀ s) : InStore n s₀ (pendCore m code s) := by
  refine .ite h (InStore.reported ?_ (post_reported ..))
  exact h.trans ⟨rfl, rfl, rfl, rfl, rfl, fun _ _ => rfl, rfl⟩

theorem coreError_inStore {code by_ m action corr unc a delta} (h : InStore n s₀ s) :
    InStore n s₀ (coreError code by_ m action corr unc n a delta s) := by
  unfold coreError
  extract_lets c w fs inj s1 es s2
  have h1 : InStore n s₀ s1 := h.reported (recordErr_reported ..)
  have h2 : InStore n s₀ s2 := h1.modCore fun _ => rfl
  exact .ite h1 (.ite (pendCore_inStore h2) h2)

theorem sramErrors_inStore {by_ k m hits} (h : InStore n s₀ s) : InStore n s₀ (sramErrors by_ k n m hits s) := by
  unfold sramErrors
  refine .foldl (fun _ _ h1 => ?_) h
  split
  · exact coreError_inStore h1
  · exact coreError_inStore h1
  · exact h1

theorem storeRead_inStore {a len} (h : InStore n s₀ s) : InStore n s₀ (storeRead n a len s).1 :=
  .ite_fst h (.modCore (fun _ => rfl) (sramErrors_inStore h))

theorem storeWrite_inStore {a l} (h : InStore n s₀ s) : InStore n s₀ (storeWrite n a l s) := h.modCore fun _ => rfl

/-! ### Loop records and free bytes (06 R147, R150, R157) -/

theorem loadLoop_inStore {a} (h : InStore n s₀ s) : InStore n s₀ (loadLoop n a s).1 := by
  unfold loadLoop
  dsimp only
  refine .ite_fst h ?_
  split
  · exact h
  · split
    · exact storeRead_inStore h
    · exact storeRead_inStore h

theorem loadLoops_inStore {as_} (h : InStore n s₀ s) : InStore n s₀ (loadLoops n as_ s).1 := by
  unfold loadLoops
  exact .foldl_fst (fun _ _ h1 => loadLoop_inStore h1) h

/-- Free values drawn. -/
theorem drawn_inStore {k} (h : InStore n s₀ s) : InStore n s₀ { s with free := k } :=
  h.trans ⟨rfl, rfl, rfl, rfl, rfl, fun _ _ => rfl, rfl⟩

theorem maybeFree_inStore {undef l} (h : InStore n s₀ s) : InStore n s₀ (maybeFree undef l s).1 := .ite_fst (drawn_inStore h) h

theorem writeOuts_inStore {undef zs outs} (h : InStore n s₀ s) : InStore n s₀ (writeOuts n undef zs outs s) :=
  .foldl (fun _ _ h1 => storeWrite_inStore (maybeFree_inStore h1)) h

/-! ### MATMUL (R151 to R153) -/

theorem readBlocks_inStore {size as_} (h : InStore n s₀ s) : InStore n s₀ (readBlocks n size as_ s).1 :=
  .foldl_fst (fun _ _ => storeRead_inStore) h

theorem matTile_inStore {m ctl a b c} {t : State × Done} (h : InStore n s₀ t.1) : InStore n s₀ (matTile n m ctl a b c t).1 := by
  refine storeWrite_inStore (drawn_inStore ?_)
  change InStore n s₀ (if m.cin = true then _ else (_, _)).1
  exact .ite_fst (storeRead_inStore (readBlocks_inStore (readBlocks_inStore h))) (readBlocks_inStore (readBlocks_inStore h))

/-! ### The bodies -/

theorem ok_inStore {α : Type} {a : α} (h : InStore n s₀ s) : InStore n s₀ (Res.ok s a).state := h

/-- The work behind the checks of a command. -/
theorem orReject_inStore {codes k} (hk : ∀ t, InStore n s₀ t → InStore n s₀ (k t).state) (h : InStore n s₀ s) :
    InStore n s₀ (orReject codes s k).state := by
  unfold orReject
  split
  · exact h
  · exact hk s h

theorem matBody_inStore {e} (h : InStore n s₀ s) : InStore n s₀ (matBody n e s).state := by
  unfold matBody
  dsimp only
  exact orReject_inStore (fun _ h1 => ok_inStore (.foldl_fst (fun _ _ => matTile_inStore) h1)) (loadLoops_inStore h)

theorem readIns_inStore {us i} (h : InStore n s₀ s) : InStore n s₀ (readIns n us i s).1 := .foldl_fst (fun _ _ => storeRead_inStore) h

theorem eltAll_inStore {e us zs} (h : InStore n s₀ s) : InStore n s₀ (eltAll n e us zs s).1 := by
  unfold eltAll
  refine .foldl_fst (fun _ _ h1 => ?_) h
  dsimp only
  exact .ite_fst (storeRead_inStore (readIns_inStore h1)) (readIns_inStore h1)

theorem eltBody_inStore {e} (h : InStore n s₀ s) : InStore n s₀ (eltBody n e s).state := by
  unfold eltBody
  dsimp only
  exact orReject_inStore (fun _ h1 => ok_inStore (writeOuts_inStore (eltAll_inStore h1))) (loadLoops_inStore h)

theorem readBlocksV_inStore {size as_} (h : InStore n s₀ s) : InStore n s₀ (redBody.readBlocksV n size as_ s).1 :=
  .foldl_fst (fun _ _ => storeRead_inStore) h

theorem redBody_inStore {e} (h : InStore n s₀ s) : InStore n s₀ (redBody n e s).state := by
  unfold redBody
  dsimp only
  exact orReject_inStore (fun _ h1 => ok_inStore (writeOuts_inStore (readBlocksV_inStore (readBlocksV_inStore h1)))) (loadLoops_inStore h)

theorem readRec_inStore {kind L e po} (h : InStore n s₀ s) : InStore n s₀ (readRec n kind L e po s).1 := storeRead_inStore h

theorem combBody_inStore {e} (h : InStore n s₀ s) : InStore n s₀ (combBody n e s).state := by
  unfold combBody
  dsimp only
  refine orReject_inStore (fun _ h1 => ok_inStore (writeOuts_inStore ?_)) (.ite_fst (storeRead_inStore h) h)
  exact .foldl_fst (fun _ r => readRec_inStore (po := r.2)) h1

end

/-- Settles O21: each of the four bodies reads and writes the store of its own core only (`InStore`). -/
theorem engineCommandsStayInTheStore : Obligations.EngineCommandsStayInTheStore := by
  unfold Obligations.EngineCommandsStayInTheStore
  intro n s t e w body hbody hend
  have hstays : InStore n s (body e s).state := by
    obtain rfl | rfl | rfl | rfl := hbody
    · exact matBody_inStore (.refl n s)
    · exact eltBody_inStore (.refl n s)
    · exact redBody_inStore (.refl n s)
    · exact combBody_inStore (.refl n s)
  rw [hend] at hstays
  exact ⟨hstays.mem, hstays.cache, hstays.parts, hstays.sess, hstays.rings, hstays.others, hstays.own⟩

end Sys2Proof.Machine
end

section
/-!
PROOF. A TURN entry (09 R241, R260, 08 R228): the outcome of `turnEntry` at each of its checks, in their order, and the request that opens past
the last one.
-/

namespace Sys2Proof.Machine

/-- A TURN asks for no row: it brings no input, and its session has no token pending (09 R241, 0x4132). -/
abbrev NoRows (v : Nat) (l : List Nat) (t : State) : Prop :=
  l = [] ∧ (getSess t (fld v 31 16)).pend = none

/-- The session's log has no room for the inputs (09 R241, 0x4130); the frames of a feature model are not logged. -/
abbrev LogFull (r v : Nat) (l : List Nat) (t : State) : Prop :=
  takesFeatures (getPart t (getRing t r).part) = false
    ∧ (getSess t (fld v 31 16)).logCap < (getSess t (fld v 31 16)).log.length + l.length

/-- The session is Sided with fewer tokens in its log than it has committed, so that no rebuild is possible (08 R228). -/
abbrev LogLost (v : Nat) (t : State) : Prop :=
  (getSess t (fld v 31 16)).st = .sided ∧ (getSess t (fld v 31 16)).log.length < (getSess t (fld v 31 16)).committed

/-- An accepted TURN's request opened in t2, the state that reading the inputs in t leaves. -/
def turnOpened (r v : Nat) (l : List Nat) (t t2 : State) : State :=
  modSess (fld v 31 16) (openReq t.ftime (getTen t2 (getRing t r).tenant).slack (getRing t r).pair v l) t2

section
variable {r v : Nat} {poison : Bool} {l : List Nat} {s s1 t t2 : State}

/-- An entry that is no CANCEL is examined in the state that has consumed it. -/
theorem exec_turn (hr : r < 16384) (hnext : nextEntry r s = some (s1, v, poison)) (hkind : fld v 7 0 ≠ 2) :
    exec (.turn r) s = .next (turnEntry r v poison (consumeEntry r s1)) := by
  have hrow : turnRow r s = turnEntry r v poison (consumeEntry r s1) := by simp only [turnRow, hnext, if_neg hkind]
  exact (onUnit_of_lt hr).trans (congrArg _ hrow)

theorem turnEntry_of_refused {code : Code} (hfirst : turnFirst t r v poison = some code) :
    turnEntry r v poison t = refuseEntry r v code t := by
  simp only [turnEntry, hfirst]

theorem turnEntry_of_unusable (hfirst : turnFirst t r v poison = none) (hinputs : turnInputs (getRing t r).part v t = (t2, none)) :
    turnEntry r v poison t = refuseEntry r v 0x4132 t2 := by
  simp only [turnEntry, hfirst, hinputs]

/-- With usable inputs, what is left to decide is whether there are rows, room for them, and a log to rebuild from. -/
theorem turnEntry_of_inputs (hfirst : turnFirst t r v poison = none) (hinputs : turnInputs (getRing t r).part v t = (t2, some l)) :
    turnEntry r v poison t =
      if NoRows v l t then refuseEntry r v 0x4132 t2
      else if LogFull r v l t then refuseEntry r v 0x4130 t2
      else if LogLost v t then logShort (fld v 31 16) (turnOpened r v l t t2)
      else followDraft (fld v 31 16) (turnOpened r v l t t2) := by
  simp only [turnEntry, hfirst, hinputs, Bool.and_eq_true, Bool.not_eq_true', decide_eq_true_eq, beq_iff_eq, List.isEmpty_iff,
    Option.isNone_iff_eq_none]
  rfl

end

theorem not_noRows_iff {v : Nat} {l : List Nat} {t : State} : ¬ NoRows v l t ↔ l ≠ [] ∨ (getSess t (fld v 31 16)).pend ≠ none :=
  not_and_or

theorem not_logFull_iff {r v : Nat} {l : List Nat} {t : State} :
    ¬ LogFull r v l t ↔ takesFeatures (getPart t (getRing t r).part) = true
      ∨ (getSess t (fld v 31 16)).log.length + l.length ≤ (getSess t (fld v 31 16)).logCap := by
  rw [not_and_or, Bool.not_eq_false, Nat.not_lt]

/-- Settles O30: the row is `turnEntry` after the entry is consumed, and each premise selects one of its outcomes. -/
theorem turnCompletes : Obligations.TurnCompletes := by
  unfold Obligations.TurnCompletes
  intro r v poison s s1 hr hnext hkind t x z
  rw [exec_turn hr hnext hkind]
  refine ⟨fun code hfirst => congrArg _ (turnEntry_of_refused hfirst), fun hfirst t2 =>
    ⟨fun hinputs => congrArg _ (turnEntry_of_unusable hfirst hinputs), fun l hinputs => ?_⟩⟩
  rw [turnEntry_of_inputs hfirst hinputs]
  refine ⟨fun hempty hpend => ?_, fun hrows hfeat hfull => ?_, fun hrows hroom => ⟨fun hkept => ?_, fun hlost => ?_⟩⟩
  · rw [if_pos ⟨hempty, hpend⟩]
  · rw [if_neg (not_noRows_iff.mpr hrows), if_pos ⟨hfeat, hfull⟩]
  · rw [if_neg (not_noRows_iff.mpr hrows), if_neg (not_logFull_iff.mpr hroom), if_neg hkept]
    rfl
  · rw [if_neg (not_noRows_iff.mpr hrows), if_neg (not_logFull_iff.mpr hroom), if_pos hlost]
    rfl

end Sys2Proof.Machine
end

section
/-!
PROOF. Sparse maps read by their lists of entries: what a map holds at a number that has an entry, or none, and after every entry has changed.
-/

namespace Sys2Proof.Machine

theorem spGet_cons_same {α : Type} (d : α) (n : Nat) (v : α) (m : Sp α) : spGet d ((n, v) :: m) n = v := by
  simp [spGet, spGet?]

theorem spGet_cons_other {α : Type} (d : α) {n k : Nat} (v : α) (m : Sp α) (h : k ≠ n) : spGet d ((n, v) :: m) k = spGet d m k := by
  simp [spGet, spGet?, Ne.symm h]

theorem spGet_of_notMem {α : Type} (d : α) {m : Sp α} {n : Nat} (h : n ∉ m.map (·.1)) : spGet d m n = d := by
  induction m with
  | nil => rfl
  | cons e t ih =>
    obtain ⟨hne, hrest⟩ := not_or.mp (mt List.mem_cons.mpr h)
    exact (spGet_cons_other d e.2 t hne).trans (ih hrest)

theorem spGet_of_mem {α : Type} [DecidableEq α] {d : α} {m : Sp α} (hm : spWf d m = true) {e : Nat × α} (he : e ∈ m) : spGet d m e.1 = e.2 := by
  induction m with
  | nil => exact absurd he List.not_mem_nil
  | cons a t ih =>
    obtain ⟨-, hkeys, ht⟩ := (spWf_cons d a.1 a.2 t).mp hm
    rcases List.mem_cons.mp he with rfl | he
    · exact spGet_cons_same ..
    · exact (spGet_cons_other _ _ _ (Nat.ne_of_gt (hkeys e he))).trans (ih ht he)

theorem spWf_keys_nodup {α : Type} [DecidableEq α] {d : α} {m : Sp α} (hm : spWf d m = true) : (m.map (·.1)).Nodup := by
  induction m with
  | nil => exact List.nodup_nil
  | cons a t ih =>
    obtain ⟨-, hkeys, ht⟩ := (spWf_cons d a.1 a.2 t).mp hm
    refine List.nodup_cons.mpr ⟨fun hmem => ?_, ih ht⟩
    obtain ⟨e, he, heq⟩ := List.mem_map.mp hmem
    exact Nat.lt_irrefl _ (heq ▸ hkeys e he)

/-- Where no number has two entries, an entry lost to a change that makes it the default still reads as the change of what it was. -/
theorem spGet_map_filter {α : Type} [DecidableEq α] {d : α} {f : α → α} (hd : f d = d) {m : Sp α} (hm : (m.map (·.1)).Nodup) (n : Nat) :
    spGet d ((m.map (fun e => (e.1, f e.2))).filter (fun e => e.2 != d)) n = f (spGet d m n) := by
  induction m with
  | nil => exact hd.symm
  | cons e t ih =>
    obtain ⟨k, v⟩ := e
    obtain ⟨hk, ht⟩ := List.nodup_cons.mp hm
    rw [List.map_cons]
    by_cases hn : n = k
    · subst hn
      rw [spGet_cons_same]
      by_cases hv : f v = d
      · rw [List.filter_cons_of_neg (by simp [hv]), ih ht, spGet_of_notMem d hk, hd, hv]
      · rw [List.filter_cons_of_pos (by simp [hv]), spGet_cons_same]
    · rw [spGet_cons_other d v t hn]
      by_cases hv : f v = d
      · rw [List.filter_cons_of_neg (by simp [hv]), ih ht]
      · rw [List.filter_cons_of_pos (by simp [hv]), spGet_cons_other _ _ _ hn, ih ht]

end Sys2Proof.Machine
end

section
/-!
PROOF. 09 R249: the boundary that refills every tenant's balance.
-/

namespace Sys2Proof.Machine

/-- A tenant that no TEN command has set up stays so. -/
theorem refill_default : refill {} = {} := by decide

/-- Settles O29: the boundary changes every entry of the tenants' table by `refill`, and a tenant without an entry is unchanged by it. -/
theorem epochRefillsEveryTenant : Obligations.EpochRefillsEveryTenant := by
  unfold Obligations.EpochRefillsEveryTenant
  intro s hkeys
  exact ⟨_, rfl, rfl, rfl, rfl, fun n => spGet_map_filter refill_default hkeys n⟩

end Sys2Proof.Machine
end

section
/-!
PROOF. Doorbells and interrupt moderation (09 R244, 17 R434, R435).
-/

namespace Sys2Proof.Machine

section
variable {fn r : Nat} {v : BitVec 32} {s : State}

/-! ### A whole value from the ring's function (R435) -/

theorem takeProduced_of_ahead (hahead : ((getRing s r).doorbell - (getRing s r).consumed).toNat ≤ (v - (getRing s r).consumed).toNat)
    (hroom : (v - (getRing s r).consumed).toNat ≤ 2 ^ (getRing s r).log2) :
    takeProduced r v s = modRing r (fun x => { x with doorbell := v }) s := by
  rw [takeProduced, Ring.entries, if_pos hroom, if_pos hahead]

theorem takeProduced_of_held (hheld : (v - (getRing s r).consumed).toNat < ((getRing s r).doorbell - (getRing s r).consumed).toNat)
    (hroom : (v - (getRing s r).consumed).toNat ≤ 2 ^ (getRing s r).log2) : takeProduced r v s = dbIgnore r s := by
  rw [takeProduced, Ring.entries, if_pos hroom, if_neg (Nat.not_le.mpr hheld)]

theorem takeProduced_of_behind (hbeyond : 2 ^ (getRing s r).log2 < (v - (getRing s r).consumed).toNat)
    (hbehind : ((getRing s r).consumed - v).toNat ≤ 2 ^ (getRing s r).log2) : takeProduced r v s = dbIgnore r s := by
  rw [takeProduced, Ring.entries, if_neg (Nat.not_le.mpr hbeyond), if_pos hbehind]

theorem takeProduced_of_wrong (hbeyond : 2 ^ (getRing s r).log2 < (v - (getRing s r).consumed).toNat)
    (hfar : 2 ^ (getRing s r).log2 < ((getRing s r).consumed - v).toNat) : takeProduced r v s = ringError r 0x4102 s := by
  rw [takeProduced, Ring.entries, if_neg (Nat.not_le.mpr hbeyond), if_neg (Nat.not_le.mpr hfar)]

theorem takeConsumed_of_posted (hposted : (v - (getRing s r).consumed).toNat ≤ ((getRing s r).posted - (getRing s r).consumed).toNat) :
    takeConsumed r v s = flushBacklog r (modRing r (fun x => { x with consumed := v, doorbell := v }) s) := by
  rw [takeConsumed, if_pos hposted]

theorem takeConsumed_of_behind (hbeyond : ((getRing s r).posted - (getRing s r).consumed).toNat < (v - (getRing s r).consumed).toNat)
    (hbehind : ((getRing s r).consumed - v).toNat ≤ 2 ^ (getRing s r).log2) : takeConsumed r v s = dbIgnore r s := by
  rw [takeConsumed, Ring.entries, if_neg (Nat.not_le.mpr hbeyond), if_pos hbehind]

theorem takeConsumed_of_wrong (hbeyond : ((getRing s r).posted - (getRing s r).consumed).toNat < (v - (getRing s r).consumed).toNat)
    (hfar : 2 ^ (getRing s r).log2 < ((getRing s r).consumed - v).toNat) : takeConsumed r v s = ringError r 0x4102 s := by
  rw [takeConsumed, Ring.entries, if_neg (Nat.not_le.mpr hbeyond), if_neg (Nat.not_le.mpr hfar)]

/-! ### The doorbell's own checks (R434) -/

section
variable {completion : Bool}

theorem doorbell_taken (hup : hostUp s = true) (hkind : (getRing s r).completion = completion) (hst : (getRing s r).st = .enabled)
    (hfn : (getRing s r).fn = fn) :
    doorbell completion fn r true v 0 s = if completion then takeConsumed r v s else takeProduced r v s := by
  simp [doorbell, hup, hkind, hst, hfn]

/-- The row of a kind serves the doorbells to rings of its kind, and those to rings that take none. -/
abbrev OwnDoorbell (completion : Bool) (r : Nat) (s : State) : Prop := (getRing s r).completion = completion ∨ (getRing s r).st ≠ .enabled

theorem OwnDoorbell.passes (hkind : OwnDoorbell completion r s) : ((getRing s r).completion != completion && (getRing s r).st == .enabled) = false := by
  rcases hkind with h | h <;> simp [h]

theorem doorbell_of_part (hup : hostUp s = true) (hkind : OwnDoorbell completion r s) : doorbell completion fn r false v 0 s = dbIgnore r s := by
  simp [doorbell, hup, hkind.passes]

theorem doorbell_of_function (hup : hostUp s = true) (hkind : OwnDoorbell completion r s) (hfn : (getRing s r).fn ≠ fn) :
    doorbell completion fn r true v 0 s = hostErr fn true 1 0x4170 (8 * r) (dbIgnore r s) := by
  simp [doorbell, hup, hkind.passes, hfn]

theorem doorbell_of_state (hup : hostUp s = true) (hfn : (getRing s r).fn = fn) (hst : (getRing s r).st ≠ .enabled) :
    doorbell completion fn r true v 0 s = dbIgnore r s := by
  simp [doorbell, hup, hfn, hst]

end

/-! ### The rows -/

theorem exec_submissionDoorbell {whole : Bool} (hfn : fn < 64) (hr : r < 16384) :
    exec (.submissionDoorbell fn r whole v 0) s = .next (doorbell false fn r whole v 0 s) := (onFn_of_lt hfn).trans (onUnit_of_lt hr)

theorem exec_completionDoorbell {whole : Bool} (hfn : fn < 64) (hr : r < 16384) :
    exec (.completionDoorbell fn r whole v 0) s = .next (doorbell true fn r whole v 0 s) := (onFn_of_lt hfn).trans (onUnit_of_lt hr)

/-- Both rows answer a doorbell that no ring takes alike. -/
theorem exec_doorbells {whole : Bool} {t : State} (hfn : fn < 64) (hr : r < 16384)
    (h : ∀ completion, OwnDoorbell completion r s → doorbell completion fn r whole v 0 s = t) :
    (OwnDoorbell false r s → exec (.submissionDoorbell fn r whole v 0) s = .next t)
      ∧ (OwnDoorbell true r s → exec (.completionDoorbell fn r whole v 0) s = .next t) :=
  ⟨fun hkind => (exec_submissionDoorbell hfn hr).trans (congrArg _ (h false hkind)),
    fun hkind => (exec_completionDoorbell hfn hr).trans (congrArg _ (h true hkind))⟩

/-- The moderated message goes out when its time has come (09 R244). -/
theorem irqTimeRow_of_waiting (hkind : (getRing s r).completion = true) (hst : (getRing s r).st = .enabled) (hsince : (getRing s r).sinceIrq ≠ 0)
    (htime : (getRing s r).irqTime ≠ 0) :
    irqTimeRow r s = ringSignal r (timeTo ((getRing s r).firstAt + 1000 * (getRing s r).irqTime) s) := by
  simp [irqTimeRow, hkind, hst, hsince, htime]

end

/-- Settles O32: a doorbell's checks in their order, and the value that a ring takes past them. -/
theorem doorbellsComplete : Obligations.DoorbellsComplete := by
  unfold Obligations.DoorbellsComplete
  constructor
  · intro fn r v s hf hr hup x hfn hst ignored
    refine ⟨fun hkind => ?_, fun hkind => ?_⟩
    · intro c
      have hrow : exec c s = .next (takeProduced r v s) :=
        (exec_submissionDoorbell hf hr).trans (congrArg _ (doorbell_taken hup hkind hst hfn))
      rw [hrow]
      exact ⟨fun hahead hroom => congrArg _ (takeProduced_of_ahead hahead hroom),
        fun hheld hroom => congrArg _ (takeProduced_of_held hheld hroom),
        fun hbeyond hbehind => congrArg _ (takeProduced_of_behind hbeyond hbehind),
        fun hbeyond hfar => congrArg _ (takeProduced_of_wrong hbeyond hfar)⟩
    · intro c
      have hrow : exec c s = .next (takeConsumed r v s) :=
        (exec_completionDoorbell hf hr).trans (congrArg _ (doorbell_taken hup hkind hst hfn))
      rw [hrow]
      exact ⟨fun hposted => congrArg _ (takeConsumed_of_posted hposted),
        fun hbeyond hbehind => congrArg _ (takeConsumed_of_behind hbeyond hbehind),
        fun hbeyond hfar => congrArg _ (takeConsumed_of_wrong hbeyond hfar)⟩
  · intro fn r v s hf hr hup x ignored drops
    refine ⟨?_, fun hfn => ?_, fun hfn hst => ?_, fun hkind hst hsince htime => ?_⟩
    · exact exec_doorbells hf hr fun _ hkind => doorbell_of_part hup hkind
    · exact exec_doorbells hf hr fun _ hkind => doorbell_of_function hup hkind hfn
    · exact exec_doorbells hf hr fun _ _ => doorbell_of_state hup hfn hst
    · exact (onUnit_of_lt hr).trans (congrArg _ (irqTimeRow_of_waiting hkind hst hsince htime))

end Sys2Proof.Machine
end

section
/-!
PROOF. The steps of a partition (09 R246, R250, R251, R254 to R259, 10 R268): what STEP_LAUNCH, KERNEL_END and POINTS_DECIDE come to, one
equation for each outcome.
-/

namespace Sys2Proof.Machine

/-! ### Launching (R246, R250) -/

section
variable {p : Nat} {s s1 : State} {b : Build}

theorem stepLaunch_of_not (h : canLaunch s p = false) : stepLaunch p s = s := by
  simp [stepLaunch, h]

/-- The candidates considered one after another; what they build is launched, or nothing is. -/
theorem stepLaunch_of_built (h : canLaunch s p = true)
    (hbuild : (candidates (queueDrafts p (readForStep p s)) p).foldl (fun acc n => considerOne p n acc) (queueDrafts p (readForStep p s), {}) = (s1, b)) :
    stepLaunch p s = if b.entries = [] then s1 else launchStep p (withRows 0 (sortBy entryLe b.entries)) s1 := by
  simp [stepLaunch, h, hbuild]

/-- The state with the Timetable written and the step entered under its number. -/
def stepEntered (p : Nat) (es : List Entry) (s : State) : State :=
  modPart p (fun pt => { pt with
    stepNo := (getPart s p).stepNo + 1, step := some { no := (getPart s p).stepNo, entries := es, tLaunch := s.ftime } })
    (writeTimetable p (getPart s p).stepNo es s).1

theorem launchStep_of_image {es : List Entry} {img : Image} (himg : imageOf (getPart (writeTimetable p (getPart s p).stepNo es s).1 p) = some img) :
    launchStep p es s = if workSick (stepEntered p es s) p = true then workFails p (stepEntered p es s)
      else launchKernel p img (writeTimetable p (getPart s p).stepNo es s).2 false 0 0xFF (stepEntered p es s) := by
  unfold launchStep
  dsimp only
  rw [himg]
  rfl

end

/-- Settles O25: the building of the step decides whether one is launched, and its working state whether the launch fails. -/
theorem stepLaunchCompletes : Obligations.StepLaunchCompletes := by
  unfold Obligations.StepLaunchCompletes
  intro p s s1 b hp
  rw [show exec (.stepLaunch p) s = .next (stepLaunch p s) from onPart_of_lt hp]
  refine ⟨fun h => congrArg _ (stepLaunch_of_not h), fun h => ?_⟩
  intro s0 hbuild
  rw [stepLaunch_of_built h hbuild]
  refine ⟨fun hnone => congrArg _ (if_pos hnone), fun hsome => ?_⟩
  intro es no w v img himg
  rw [if_neg hsome, launchStep_of_image himg]
  exact ⟨fun hwork => congrArg _ (if_neg (by rw [← Bool.not_eq_true] at hwork; exact hwork)), fun hsick => congrArg _ (if_pos hsick)⟩

/-! ### The end of a kernel (10 R268, 09 R251) -/

section
variable {p : Nat} {s : State} {k : Kernel}

/-- Every core of the kernel is at END with empty queues, and nothing that it issued is outstanding. -/
abbrev KernelReady (p : Nat) (s : State) (k : Kernel) : Prop :=
  k.halting = none ∧ (∀ n ∈ k.cores, (getCore s n).mode = .ended ∧ enginesIdle (getCore s n) = true)
    ∧ scuBusy s p = false ∧ (∀ r ∈ (getPart s p).coll, r.stale = true) ∧ nextColl p s = none

theorem kernelReady_iff : KernelReady p s k ↔
    (k.halting.isSome || !kernelDone s k || scuBusy s p || (getPart s p).coll.any (fun r => !r.stale) || (nextColl p s).isSome) = false := by
  simp [KernelReady, kernelDone, and_assoc]

/-- The state once the kernel has ended: the partition without it, and its cores idle. -/
def kernelGone (p : Nat) (k : Kernel) (s : State) : State :=
  k.cores.foldl (fun t n => modCore n (fun c => { c with mode := .idle }) t) (modPart p (fun x => { x with kernel := none }) s)

/-- The step with what its kernel leaves of it. -/
def stepOver (st : Step) (k : Kernel) (s : State) : Step :=
  { st with
    ended := true, tEnd := s.ftime, events := (List.range 4).map (fun q => orEv (k.cores.map (fun n => (getEng (getCore s n) q).events))),
    poison := (List.range 4).map (fun q => k.cores.any (fun n => (getEng (getCore s n) q).poison)) }

/-- The step's entries committed in their order. -/
def stepCommitted (p : Nat) (st : Step) (k : Kernel) (s : State) : State :=
  st.entries.foldl (commitEntry (orEv (stepOver st k s).events) p) (modPart p (fun x => { x with step := some (stepOver st k s) }) (kernelGone p k s))

theorem kernelEnd_of_waiting (hk : (getPart s p).kernel = some k) (h : ¬KernelReady p s k) : kernelEnd p s = s := by
  rw [kernelReady_iff, Bool.not_eq_false] at h
  simp only [kernelEnd, hk, if_pos h]

section
variable (hk : (getPart s p).kernel = some k) (h : KernelReady p s k)
include hk h

theorem kernelEnd_of_diag (hdiag : k.diag = true) : kernelEnd p s = endOps p 0x0A01 0 (kernelGone p k s) := by
  simp only [kernelEnd, hk, kernelReady_iff.mp h, hdiag]
  rfl

theorem kernelEnd_of_none (hdiag : k.diag = false) (hstep : (getPart s p).step = none) : kernelEnd p s = kernelGone p k s := by
  simp only [kernelEnd, hk, kernelReady_iff.mp h, hdiag, hstep]
  rfl

theorem kernelEnd_of_step {st : Step} (hdiag : k.diag = false) (hstep : (getPart s p).step = some st) :
    kernelEnd p s = if st.entries.any sampled = true then stepCommitted p st k s else finishStep p (stepCommitted p st k s) := by
  simp only [kernelEnd, hk, kernelReady_iff.mp h, hdiag, hstep]
  rfl

end

end

/-! ### The Points (09 R254 to R259, 12 R337) -/

section
variable {p i : Nat} {s t : State} {st : Step} {e : Entry}

theorem pointsDecide_of_ended (hstep : (getPart s p).step = some st) (hended : st.ended = true) :
    pointsDecide p s = if workSick (readForStep p s) p = true then workFails p (readForStep p s) else pointsNext p (readForStep p s) := by
  simp [pointsDecide, hstep, hended]

theorem pointsNext_of_last (hstep : (getPart t p).step = some st) (hended : st.ended = true) (hnext : nextSampled st.entries st.next = none) :
    pointsNext p t = finishStep p t := by
  simp [pointsNext, hstep, hended, hnext]

theorem pointsNext_of_entry (hstep : (getPart t p).step = some st) (hended : st.ended = true) (hnext : nextSampled st.entries st.next = some i)
    (hentry : st.entries[i]? = some e) :
    pointsNext p t =
      let s1 := modPart p (fun pt => { pt with step := pt.step.map (fun x =>
        { x with next := i + 1, row := st.row + if e.kind = .verify then e.nodes else 1 }) }) t
      let s2 := decideEntry p e st.row (orEv st.events) s1
      if nextSampled st.entries (i + 1) = none then finishStep p s2 else s2 := by
  simp only [pointsNext, hstep, hended, hnext, hentry]
  cases nextSampled st.entries (i + 1) <;> rfl

end

/-- Settles O27: `kernelEnd` past the conditions of R268, and `pointsDecide` past those of R337, each by the case that its premise names. -/
theorem kernelEndAndSampling : Obligations.KernelEndAndSampling := by
  unfold Obligations.KernelEndAndSampling
  constructor
  · intro p s k hp hk ready idle
    rw [show exec (.kernelEnd p) s = .next (kernelEnd p s) from onPart_of_lt hp]
    exact ⟨fun hwait => congrArg _ (kernelEnd_of_waiting hk hwait), fun hready hdiag => congrArg _ (kernelEnd_of_diag hk hready hdiag),
      fun hready hdiag hstep => congrArg _ (kernelEnd_of_none hk hready hdiag hstep),
      fun st hready hdiag hstep => congrArg _ (kernelEnd_of_step hk hready hdiag hstep)⟩
  · intro p i s st0 st e hp hstep0 hended0 t
    rw [show exec (.pointsDecide p) s = .next (pointsDecide p s) from onPart_of_lt hp, pointsDecide_of_ended hstep0 hended0]
    refine ⟨fun hsick => congrArg _ (if_pos hsick), fun hwork hstep hended => ?_⟩
    rw [if_neg (ne_true_of_eq_false hwork)]
    exact ⟨fun hnext hentry => congrArg _ (pointsNext_of_entry hstep hended hnext hentry),
      fun hnext => congrArg _ (pointsNext_of_last hstep hended hnext)⟩

end Sys2Proof.Machine
end

section
/-!
PROOF. The TEN commands (09 R238, R239, R249, 14 R380): each handler's reply past its checks.
-/

namespace Sys2Proof.Machine

section
variable {q : Req} {s : State}

/-! ### Tenants (09 R249) -/

theorem setTenant_first (rate burst slack guar : Nat) {t : Tenant} (h : t.wasSet = false) :
    setTenant rate burst slack guar t =
      { t with slack := slack, kvGuar := guar, wasSet := true, rate := rate, burst := burst, bal := burst } := by
  simp [setTenant, h]

theorem setTenant_later (rate burst slack guar : Nat) {t : Tenant} (h : t.wasSet = true) :
    setTenant rate burst slack guar t = { t with slack := slack, kvGuar := guar, next := some (rate, burst) } := by
  simp [setTenant, h]

theorem tenSetH_ok (hn : q.f 0 2 < 4096) (hrate : q.f 8 8 < 2 ^ 63) (hburst : q.f 16 8 < 2 ^ 63) :
    tenSetH q s = .ok (modTen (q.f 0 2) (setTenant (q.f 8 8) (q.f 16 8) (q.f 24 4) (q.f 28 4)) s) [] := by
  rw [tenSetH, checked_pass (decide_eq_false (by omega)), checked_nil]

/-! ### STATUS (R380) -/

theorem tenStatusH_tenant (hwhat : q.f 0 1 = 0) (hm : q.f 2 2 < 4096) : tenStatusH q s = .ok s (tenPayload (q.f 2 2) (getTen s (q.f 2 2))) := by
  rw [tenStatusH, checked_pass (decide_eq_false (by omega)), checked_nil, if_pos hwhat]

theorem tenStatusH_ring (hwhat : q.f 0 1 = 1) (hm : q.f 2 2 < 16384) : tenStatusH q s = .ok s (ringPayload (q.f 2 2) (getRing s (q.f 2 2))) := by
  rw [tenStatusH, checked_pass (decide_eq_false (by omega)), checked_nil, if_neg (by omega)]

/-! ### Rings (09 R238, R239) -/

theorem ringCreateH_ok (hr : q.f 0 2 < 16384) (hpart : (getPart s (ringOf q (getRing s (q.f 0 2))).part).st ≠ .absent)
    (hst : (getRing s (q.f 0 2)).st = .absent ∨ (getRing s (q.f 0 2)).st = .disabled)
    (hfields : ringFieldBad s q (ringOf q (getRing s (q.f 0 2))) = false)
    (hpages : (ringOf q (getRing s (q.f 0 2))).completion = true ∨ ∀ g ∈ ringPages (ringOf q (getRing s (q.f 0 2))),
      pageOwner s g = .part (ringOf q (getRing s (q.f 0 2))).part ∧ pagePinned s g = false) :
    ringCreateH q s = .ok (modRing (q.f 0 2) (ringOf q) s) [] := by
  have hidle : ((getRing s (q.f 0 2)).st == .enabled || (getRing s (q.f 0 2)).st == .error) = false := by
    rcases hst with h | h <;> simp [h]
  have howned : (!(ringOf q (getRing s (q.f 0 2))).completion && (ringPages (ringOf q (getRing s (q.f 0 2)))).any
      (fun g => pageOwner s g != .part (ringOf q (getRing s (q.f 0 2))).part)) = false := by
    rcases hpages with hcompletion | hpages
    · simp [hcompletion]
    · rw [List.any_eq_false.mpr fun g hg => by simp [(hpages g hg).1], Bool.and_false]
  have hspread : (!(ringOf q (getRing s (q.f 0 2))).completion && (ringPages (ringOf q (getRing s (q.f 0 2)))).any (pagePinned s)) = false := by
    rcases hpages with hcompletion | hpages
    · simp [hcompletion]
    · rw [List.any_eq_false.mpr fun g hg => by simp [(hpages g hg).2], Bool.and_false]
  rw [ringCreateH, checked_pass (decide_eq_false (by omega)), checked_pass (by simp [hpart]), checked_pass hidle, checked_pass hfields,
    checked_pass howned, checked_pass hspread, checked_nil]

/-- A ring that exists and is not Enabled: past its first checks, ENABLE asks for an Enabled PAIR of a submission ring. -/
theorem ringEnableH_eq (hr : q.f 0 2 < 16384) (hst : (getRing s (q.f 0 2)).st = .disabled ∨ (getRing s (q.f 0 2)).st = .error) :
    ringEnableH q s = checked [(!(getRing s (q.f 0 2)).completion && (getRing s (getRing s (q.f 0 2)).pair).st != .enabled, 0x5132)]
      (.ok (flushBacklog (q.f 0 2) (modRing (q.f 0 2) freshRing s)) []) := by
  rw [ringEnableH, checked_pass (decide_eq_false (by omega)), checked_pass (by rcases hst with h | h <;> simp [h])]

theorem ringEnableH_ok (hr : q.f 0 2 < 16384) (hst : (getRing s (q.f 0 2)).st = .disabled ∨ (getRing s (q.f 0 2)).st = .error)
    (hpair : (getRing s (q.f 0 2)).completion = true ∨ (getRing s (getRing s (q.f 0 2)).pair).st = .enabled) :
    ringEnableH q s = .ok (flushBacklog (q.f 0 2) (modRing (q.f 0 2) freshRing s)) [] := by
  rw [ringEnableH_eq hr hst, checked_pass (by rcases hpair with h | h <;> simp [h]), checked_nil]

theorem ringEnableH_no (hr : q.f 0 2 < 16384) (hst : (getRing s (q.f 0 2)).st = .disabled ∨ (getRing s (q.f 0 2)).st = .error)
    (hkind : (getRing s (q.f 0 2)).completion = false) (hpair : (getRing s (getRing s (q.f 0 2)).pair).st ≠ .enabled) :
    ringEnableH q s = .no 0x5132 := by
  rw [ringEnableH_eq hr hst, checked_fail (by simp [hkind, hpair])]

theorem ringDisableH_eq (hr : q.f 0 2 < 16384) (hst : (getRing s (q.f 0 2)).st ≠ .absent) :
    ringDisableH q s = checked [((getRing s (q.f 0 2)).completion && ringInUse s (q.f 0 2), 0x5132)]
      (.ok (dropBacklog (q.f 0 2) (modRing (q.f 0 2) (fun x => { x with st := .disabled }) s)) []) := by
  rw [ringDisableH, checked_pass (decide_eq_false (by omega)), checked_pass (by simp [hst])]

theorem ringDisableH_ok (hr : q.f 0 2 < 16384) (hst : (getRing s (q.f 0 2)).st ≠ .absent)
    (hfree : (getRing s (q.f 0 2)).completion = false ∨ ringInUse s (q.f 0 2) = false) :
    ringDisableH q s = .ok (dropBacklog (q.f 0 2) (modRing (q.f 0 2) (fun x => { x with st := .disabled }) s)) [] := by
  rw [ringDisableH_eq hr hst, checked_pass (by rcases hfree with h | h <;> simp [h]), checked_nil]

theorem ringDisableH_no (hr : q.f 0 2 < 16384) (hst : (getRing s (q.f 0 2)).st ≠ .absent)
    (hkind : (getRing s (q.f 0 2)).completion = true) (huse : ringInUse s (q.f 0 2) = true) : ringDisableH q s = .no 0x5132 := by
  rw [ringDisableH_eq hr hst, checked_fail (by simp [hkind, huse])]

theorem ringDestroyH_ok (hr : q.f 0 2 < 16384) (hst : (getRing s (q.f 0 2)).st = .disabled) :
    ringDestroyH q s = .ok (modRing (q.f 0 2) (fun x => { ignored := x.ignored }) s) [] := by
  rw [ringDestroyH, checked_pass (decide_eq_false (by omega)), checked_pass (by simp [hst]), checked_nil]

end

/-- Settles O44: each command's reply past its checks; SET changes the tenant that it names alone, by `setTenant`. -/
theorem tenantAndRingCommands : Obligations.TenantAndRingCommands := by
  unfold Obligations.TenantAndRingCommands
  refine ⟨fun sub s q t => ⟨fun hs hn hrate hburst => ?_, fun hs => ⟨fun hwhat hm => ?_, fun hwhat hm => ?_⟩⟩,
    fun sub s q t => ⟨fun hs hr hpart hst hfields hpages => ?_,
      fun hs hr hst => ⟨fun hpair => ?_, fun hkind hpair => ?_⟩, fun hs hr hst => ⟨fun hfree => ?_, fun hkind huse => ?_⟩,
      fun hs hr hst => ?_⟩⟩
  · refine ⟨_, mail_of_ok hs (tenSetH_ok hn hrate hburst), rfl, fun m hm => getTen_modTen_other _ _ _ _ hm, ?_⟩
    rw [getTen_modTen_same]
    cases hset : (getTen t (q.f 0 2)).wasSet with
    | false =>
      rw [setTenant_first _ _ _ _ hset]
      exact ⟨rfl, rfl, rfl, fun _ => ⟨rfl, rfl, rfl⟩, fun h => absurd h Bool.false_ne_true⟩
    | true =>
      rw [setTenant_later _ _ _ _ hset]
      exact ⟨hset, rfl, rfl, fun h => absurd h.symm Bool.false_ne_true, fun _ => ⟨rfl, rfl, rfl, rfl⟩⟩
  · exact mail_of_ok hs (tenStatusH_tenant hwhat hm)
  · exact mail_of_ok hs (tenStatusH_ring hwhat hm)
  · exact mail_of_ok hs (ringCreateH_ok hr hpart hst hfields hpages)
  · exact mail_of_ok hs (ringEnableH_ok hr hst hpair)
  · exact mail_of_no hs (ringEnableH_no hr hst hkind hpair)
  · exact mail_of_ok hs (ringDisableH_ok hr hst hfree)
  · exact mail_of_no hs (ringDisableH_no hr hst hkind huse)
  · exact mail_of_ok hs (ringDestroyH_ok hr hst)

end Sys2Proof.Machine
end

section
/-!
PROOF. A CANCEL entry (09 R241): the first of its checks that fails, and what becomes of the request of a session that passes them.
-/

namespace Sys2Proof.Machine

section
variable {r v : Nat} {poison : Bool} {s s1 t : State}

/-- A CANCEL is examined in the state that has consumed it. -/
theorem exec_cancel (hr : r < 16384) (hnext : nextEntry r s = some (s1, v, poison)) (hkind : fld v 7 0 = 2) :
    exec (.cancel r) s = .next (cancelEntry r v poison (consumeEntry r s1)) := by
  have hrow : cancelRow r s = cancelEntry r v poison (consumeEntry r s1) := by simp only [cancelRow, hnext, if_pos hkind]
  exact (onUnit_of_lt hr).trans (congrArg _ hrow)

/-- The entry arrived whole, with its reserved fields zero. -/
abbrev CancelClean (v : Nat) (poison : Bool) : Prop := poison = false ∧ fld v 15 10 = 0 ∧ fld v 255 240 = 0 ∧ fld v 319 304 = 0

/-- The ring's partition holds a model. -/
abbrev RingLoaded (r : Nat) (t : State) : Prop :=
  (getPart t (getRing t r).part).st ≠ .empty ∧ (getPart t (getRing t r).part).st ≠ .absent

/-- The session that the entry names is in use, and of the ring's tenant and partition. -/
abbrev SessOfRing (r v : Nat) (t : State) : Prop :=
  (getSess t (fld v 31 16)).st ≠ .free ∧ (getSess t (fld v 31 16)).tenant = (getRing t r).tenant
    ∧ (getSess t (fld v 31 16)).part = (getRing t r).part

/-- The end of the request: at once, or with the step in progress. -/
def cancelled (r v : Nat) (t : State) : State :=
  if (getSess t (fld v 31 16)).opened = false then
    ringPost (getRing t r).pair { sess := fld v 31 16, code := 0x0420, final := true, reason := 4, tag := BitVec.ofNat 64 (fld v 127 64),
                                  own := false, mark := true } t
  else if (getPart t (getRing t r).part).step ≠ none then modSess (fld v 31 16) (fun z => { z with work := { z.work with cancel := true } }) t
  else endReq (fld v 31 16) 0x0420 4 false t

theorem cancelEntry_of_unclean (h : ¬CancelClean v poison) : cancelEntry r v poison t = refuseEntry r v 0x4101 t := by
  have hfails : (poison || fld v 15 10 != 0 || fld v 255 240 != 0 || fld v 319 304 != 0) = true := by
    simpa [Classical.or_iff_not_imp_left] using h
  simp [cancelEntry, firstFail, hfails]

theorem cancelEntry_of_unloaded (hclean : CancelClean v poison) (h : ¬RingLoaded r t) : cancelEntry r v poison t = refuseEntry r v 0x4110 t := by
  obtain ⟨hpoison, hlow, hmid, hhigh⟩ := hclean
  have hfails : ((getPart t (getRing t r).part).st == .empty || (getPart t (getRing t r).part).st == .absent) = true := by
    simpa [Classical.or_iff_not_imp_left] using h
  simp [cancelEntry, firstFail, hpoison, hlow, hmid, hhigh, hfails]

theorem cancelEntry_of_foreign (hclean : CancelClean v poison) (hloaded : RingLoaded r t) (h : ¬SessOfRing r v t) :
    cancelEntry r v poison t = refuseEntry r v 0x4103 t := by
  obtain ⟨hpoison, hlow, hmid, hhigh⟩ := hclean
  obtain ⟨hempty, habsent⟩ := hloaded
  have hfails : ((getSess t (fld v 31 16)).st == .free || (getSess t (fld v 31 16)).tenant != (getRing t r).tenant
      || (getSess t (fld v 31 16)).part != (getRing t r).part) = true := by
    simpa [Classical.or_iff_not_imp_left] using h
  simp [cancelEntry, firstFail, hpoison, hlow, hmid, hhigh, hempty, habsent, hfails]

theorem cancelEntry_of_passes (hclean : CancelClean v poison) (hloaded : RingLoaded r t) (hits : SessOfRing r v t) :
    cancelEntry r v poison t = cancelled r v t := by
  obtain ⟨hpoison, hlow, hmid, hhigh⟩ := hclean
  obtain ⟨hempty, habsent⟩ := hloaded
  obtain ⟨hused, htenant, hpart⟩ := hits
  simp [cancelEntry, cancelled, firstFail, hpoison, hlow, hmid, hhigh, hempty, habsent, hused, htenant, hpart, Option.isSome_iff_ne_none]

end

/-- Settles O31: each premise selects one outcome of the entry. -/
theorem cancelCompletes : Obligations.CancelCompletes := by
  unfold Obligations.CancelCompletes
  intro r v poison s s1 hr hnext hkind t x n z st clean loaded its
  rw [exec_cancel hr hnext hkind]
  refine ⟨fun h => congrArg _ (cancelEntry_of_unclean h), fun hclean h => congrArg _ (cancelEntry_of_unloaded hclean h),
    fun hclean hloaded h => congrArg _ (cancelEntry_of_foreign hclean hloaded h), fun hclean hloaded hits hopen => ?_,
    fun hclean hloaded hits hopen hstep => ?_, fun hclean hloaded hits hopen hstep => ?_⟩
  · rw [cancelEntry_of_passes hclean hloaded hits, cancelled, if_pos hopen]
  · rw [cancelEntry_of_passes hclean hloaded hits, cancelled, if_neg (by simpa using hopen), if_pos hstep]
  · rw [cancelEntry_of_passes hclean hloaded hits, cancelled, if_neg (by simpa using hopen), if_neg (not_not.mpr hstep)]

end Sys2Proof.Machine
end

section
/-!
PROOF. What an abort sets off after it has stopped a partition's cores and SCUs (05 R142, 11 R300, 09 R253) puts nothing back to work: the
writing of status and completion records, the end of collectives, retries and lost pages fill no queue, start no core, kernel or step, and
change no partition's state. One lemma per operation, built as the operation is.
-/

namespace Sys2Proof.Machine

/-! ### The relation -/

/-- No queue of the core changed, and a halted core stays halted. -/
def CoreRests (c d : Core) : Prop :=
  (d.me.queue = c.me.queue ∧ d.ve.queue = c.ve.queue ∧ d.mv.queue = c.mv.queue ∧ d.tt.queue = c.tt.queue) ∧ (c.mode = .halted → d.mode = .halted)

/-- The partition's state stands, and neither a kernel nor a step has begun. -/
def PartRests (x y : Part) : Prop := y.st = x.st ∧ (x.kernel = none → y.kernel = none) ∧ (x.step = none → y.step = none)

/-- The table of channels keeps its form, and no SCU's queue changed. -/
def ScusRest (m k : Sp Chan) : Prop :=
  (spWf ({} : Chan) m = true → spWf ({} : Chan) k = true) ∧ ∀ c, (spGet ({} : Chan) k c).queue = (spGet ({} : Chan) m c).queue

/-- From s₀ to s nothing was put to work. -/
def Rests (s₀ s : State) : Prop :=
  ScusRest s₀.chans s.chans ∧ (∀ n, CoreRests (getCore s₀ n) (getCore s n)) ∧ ∀ p, PartRests (getPart s₀ p) (getPart s p)

/-- The same where a computation may stop at a fault. -/
def RestsRes {α : Type} (s₀ : State) (x : Res α) : Prop := Rests s₀ x.state

theorem CoreRests.refl (c : Core) : CoreRests c c := ⟨⟨rfl, rfl, rfl, rfl⟩, id⟩

theorem PartRests.refl (x : Part) : PartRests x x := ⟨rfl, id, id⟩

section
variable {s₀ s t : State} {α β : Type} {c : Prop} [Decidable c]

theorem Rests.refl (s : State) : Rests s s := ⟨⟨id, fun _ => rfl⟩, fun _ => .refl _, fun _ => .refl _⟩

theorem Rests.of_eq (h : Rests s₀ s) (hchans : t.chans = s.chans) (hcores : t.cores = s.cores) (hparts : t.parts = s.parts) : Rests s₀ t := by
  unfold Rests getCore getPart
  rw [hchans, hcores, hparts]
  exact h

/-- Flags, messages and records. -/
theorem Rests.reported (h : Rests s₀ s) (k : Reported s t) : Rests s₀ t := h.of_eq (by rw [← k]) k.cores k.parts

theorem Rests.ite (h : Rests s₀ s) (k : Rests s₀ t) : Rests s₀ (if c then s else t) := by
  split
  · exact h
  · exact k

theorem Rests.ite_fst {x y : State × α} (h : Rests s₀ x.1) (k : Rests s₀ y.1) : Rests s₀ (if c then x else y).1 := by
  split
  · exact h
  · exact k

theorem Rests.foldl {f : State → α → State} {l : List α} (hf : ∀ t x, Rests s₀ t → Rests s₀ (f t x)) (h : Rests s₀ s) : Rests s₀ (l.foldl f s) :=
  List.foldlRecOn l f h (fun t ht x _ => hf t x ht)

theorem Rests.foldl_fst {f : State × β → α → State × β} {l : List α} {a : State × β} (hf : ∀ a x, Rests s₀ a.1 → Rests s₀ (f a x).1)
    (h : Rests s₀ a.1) : Rests s₀ (l.foldl f a).1 :=
  List.foldlRecOn (motive := fun a => Rests s₀ a.1) l f h (fun a ha x _ => hf a x ha)

/-- The state that a result is matched against. -/
theorem Rests.of_fst {x y : State × α} (e : x = y) (h : Rests s₀ x.1) : Rests s₀ y.1 := e ▸ h

theorem RestsRes.of {x y : Res α} (e : x = y) (h : RestsRes s₀ x) : RestsRes s₀ y := e ▸ h

theorem RestsRes.ok {a : α} (h : Rests s₀ s) : RestsRes s₀ (.ok s a) := h

theorem RestsRes.err {code : Code} {va : Nat} (h : Rests s₀ s) : RestsRes (α := α) s₀ (.err s code va) := h

theorem andThen_rests {x : Res α} {f : State → α → Res β} (h : RestsRes s₀ x) (hf : ∀ t a, Rests s₀ t → RestsRes s₀ (f t a)) :
    RestsRes s₀ (andThen x f) := by
  cases x with
  | ok t a => exact hf t a h
  | err t code va => exact h

theorem resFold_rests {f : State → β → α → Res β} {l : List α} {b : β} (hf : ∀ t b x, Rests s₀ t → RestsRes s₀ (f t b x)) (h : Rests s₀ s) :
    RestsRes s₀ (resFold f l b s) := by
  induction l generalizing b s with
  | nil => exact h
  | cons x l ih => exact andThen_rests (hf s b x h) (fun _ _ h1 => ih h1)

end

section
variable {s₀ s : State}

/-! ### Units changed -/

theorem modChan_wf (k : Nat) (g : Chan → Chan) (h : spWf ({} : Chan) s.chans = true) : spWf ({} : Chan) (modChan k g s).chans = true :=
  spMod_wf _ _ _ _ h

/-- A change of a channel other than its SCU's queue. -/
theorem modChan_rests {k g} (hqueue : ∀ x : Chan, (g x).queue = x.queue) (h : Rests s₀ s) : Rests s₀ (modChan k g s) := by
  obtain ⟨⟨hform, hqueues⟩, hunits⟩ := h
  refine ⟨⟨fun h0 => modChan_wf k g (hform h0), fun n => Eq.trans ?_ (hqueues n)⟩, hunits⟩
  by_cases hn : n = k
  · subst hn
    exact (congrArg Chan.queue (spGet_spMod_same ..)).trans (hqueue _)
  · exact congrArg Chan.queue (spGet_spMod_other _ _ _ _ _ hn)

theorem CoreRests.trans {c d e : Core} (h : CoreRests c d) (k : CoreRests d e) : CoreRests c e := by
  obtain ⟨⟨hme, hve, hmv, htt⟩, hmode⟩ := h
  obtain ⟨⟨kme, kve, kmv, ktt⟩, kmode⟩ := k
  exact ⟨⟨kme.trans hme, kve.trans hve, kmv.trans hmv, ktt.trans htt⟩, kmode ∘ hmode⟩

theorem PartRests.trans {x y z : Part} (h : PartRests x y) (k : PartRests y z) : PartRests x z := by
  obtain ⟨hst, hkernel, hstep⟩ := h
  obtain ⟨kst, kkernel, kstep⟩ := k
  exact ⟨kst.trans hst, kkernel ∘ hkernel, kstep ∘ hstep⟩

theorem modCore_rests {n g} (hg : ∀ x, CoreRests x (g x)) (h : Rests s₀ s) : Rests s₀ (modCore n g s) := by
  obtain ⟨hscus, hcores, hparts⟩ := h
  refine ⟨hscus, fun m => (hcores m).trans ?_, hparts⟩
  by_cases hm : m = n
  · subst hm
    exact (getCore_modCore_same m g s).symm ▸ hg _
  · exact (getCore_modCore_other n m g s hm).symm ▸ .refl _

theorem modPart_rests {p g} (hg : ∀ x, PartRests x (g x)) (h : Rests s₀ s) : Rests s₀ (modPart p g s) := by
  obtain ⟨hscus, hcores, hparts⟩ := h
  refine ⟨hscus, hcores, fun k => (hparts k).trans ?_⟩
  by_cases hk : k = p
  · subst hk
    exact (getPart_modPart_same k g s).symm ▸ hg _
  · exact (getPart_modPart_other p k g s hk).symm ▸ .refl _

/-- A halt leaves the queues as they stand. -/
theorem haltCore_rests {n r} (h : Rests s₀ s) : Rests s₀ (haltCore n r s) := by
  refine .ite h ?_
  have hhalted : Rests s₀ (modCore n (fun c => { c with mode := .halted, halt := some r }) s) :=
    modCore_rests (fun _ => ⟨⟨rfl, rfl, rfl, rfl⟩, fun _ => rfl⟩) h
  unfold writeHalt
  dsimp only
  split
  · exact hhalted
  · refine modPart_rests (fun x => ⟨rfl, fun hx => ?_, id⟩) hhalted
    dsimp only
    rw [hx]
    rfl

/-! ### Stack memory (12 R327 to R332) -/

theorem pendChannel_rests {k code} (h : Rests s₀ s) : Rests s₀ (pendChannel k code s) := by
  refine .ite h (Rests.reported ?_ (tellMapout_reported ..))
  exact h

theorem noteWeightPage_rests {page} (h : Rests s₀ s) : Rests s₀ (noteWeightPage page s) := by
  unfold noteWeightPage
  split
  · exact h
  · exact .ite (modPart_rests (fun _ => ⟨rfl, id, id⟩) h) h

theorem noteWeight_rests {k off} (h : Rests s₀ s) : Rests s₀ (noteWeight k off s) := by
  unfold noteWeight
  split
  · exact h
  · exact noteWeightPage_rests h

theorem dramError_rests {code by_ action corr unc mis delta k off} (h : Rests s₀ s) :
    Rests s₀ (dramError code by_ action corr unc mis delta k off s) := by
  have h1 : Rests s₀ (recordErr (dramRec s code by_ (errClass (mem (off / 64) (getChan s k).injected) mis (getChan s k).testQ.length) action corr unc
    delta k off) s) := h.reported (recordErr_reported ..)
  unfold dramError chanErr
  extract_lets c cls c' es s2
  have h2 : Rests s₀ s2 := modChan_rests (fun _ => rfl) h1
  exact .ite h1 (.ite (pendChannel_rests h2) h2)

theorem putRaw_rests {k off data d} (h : Rests s₀ s) : Rests s₀ (putRaw k off data d s) := h

theorem setChk_rests {k off d} (h : Rests s₀ s) : Rests s₀ (setChk k off d s) := h

theorem stackWrite_rests {k off l} (h : Rests s₀ s) : Rests s₀ (stackWrite k off l s) :=
  .ite (modChan_rests (fun _ => rfl) (putRaw_rests h)) (putRaw_rests h)

theorem stackRead_rests {by_ k off} (h : Rests s₀ s) : Rests s₀ (stackRead by_ k off s).1 := by
  unfold stackRead
  dsimp only
  refine .ite_fst h ?_
  split
  · exact h
  · exact h
  · exact modChan_rests (fun _ => rfl) (dramError_rests h)
  · exact dramError_rests h
  · exact setChk_rests (noteWeight_rests (dramError_rests h))

/-! ### The shared cache (03 R70 to R73, 12 R321, R335) -/

theorem putLine_rests {L ln} (h : Rests s₀ s) : Rests s₀ (putLine L ln s) := h

theorem dropLine_rests {L} (h : Rests s₀ s) : Rests s₀ (dropLine L s) := h

theorem placeLine_rests {L ln} (h : Rests s₀ s) : Rests s₀ (placeLine L ln s) := putLine_rests (.ite h h)

theorem pendSlice_rests {n code} (h : Rests s₀ s) : Rests s₀ (pendSlice n code s) := by
  refine .ite h (Rests.reported ?_ (post_reported ..))
  exact h

theorem sliceError_rests {kind code by_ action corr unc L way byte delta} (h : Rests s₀ s) :
    Rests s₀ (sliceError kind code by_ action corr unc L way byte delta s) := by
  unfold sliceError
  extract_lets sl st inj q page s1 es cache s2
  have h1 : Rests s₀ s1 := h.reported (recordErr_reported ..)
  clear_value s1
  have h2 : Rests s₀ s2 := h1
  exact .ite h1 (.ite (pendSlice_rests h2) h2)

theorem checkTags_rests {by_ L ln} (h : Rests s₀ s) : Rests s₀ (checkTags by_ L ln s).1 :=
  .ite_fst h (.ite_fst (putLine_rests (sliceError_rests h))
    (.ite_fst (noteWeightPage_rests (putLine_rests (sliceError_rests h))) (dropLine_rests (sliceError_rests h))))

theorem recordFindings_rests {by_ L ln drop} (h : Rests s₀ s) : Rests s₀ (recordFindings by_ L ln drop s) := by
  unfold recordFindings
  refine .foldl (fun _ _ h1 => ?_) h
  split
  · exact sliceError_rests h1
  · exact .ite (sliceError_rests h1) (sliceError_rests h1)
  · exact h1

theorem checkData_rests {by_ L ln} (h : Rests s₀ s) : Rests s₀ (checkData by_ L ln s).1 := by
  unfold checkData
  extract_lets fs bad drop s1 s2
  have h1 : Rests s₀ s1 := recordFindings_rests h
  exact .ite_fst h (.ite_fst (dropLine_rests h1) (.ite (noteWeightPage_rests (putLine_rests h1)) (putLine_rests h1)))

theorem checkLine_rests {by_ L ln} (h : Rests s₀ s) : Rests s₀ (checkLine by_ L ln s).1 := by
  unfold checkLine
  split
  · next e1 => exact .of_fst e1 (checkTags_rests h)
  · next e1 => exact checkData_rests (.of_fst e1 (checkTags_rests h))

theorem writeLine_rests {L ln} (h : Rests s₀ s) : Rests s₀ (writeLine L ln s) := by
  unfold writeLine
  dsimp only
  split
  · exact h
  · exact .ite (stackWrite_rests h) (stackWrite_rests (stackRead_rests h))

theorem writeBack_rests {L ln} (h : Rests s₀ s) : Rests s₀ (writeBack L ln s) := by
  unfold writeBack
  split
  · next e1 => exact .of_fst e1 (checkLine_rests h)
  · next s1 ln1 e1 =>
    have h1 : Rests s₀ s1 := .of_fst e1 (checkLine_rests h)
    exact writeLine_rests (putLine_rests h1)

theorem evict_rests {L ln} (h : Rests s₀ s) : Rests s₀ (evict L ln s) := dropLine_rests (.ite (writeBack_rests h) h)

theorem takeWay_rests {L} (h : Rests s₀ s) : Rests s₀ (takeWay L s).1 := by
  unfold takeWay
  extract_lets sl st held off v s1
  have h1 : Rests s₀ s1 := h
  refine .ite_fst h1 ?_
  split
  · exact h1
  · exact evict_rests h1

theorem fillLine_rests {by_ L ln} (h : Rests s₀ s) : Rests s₀ (fillLine by_ L ln s).1 := by
  unfold fillLine
  dsimp only
  refine .ite_fst h ?_
  split
  · exact h
  · exact placeLine_rests (stackRead_rests h)

theorem missRead_rests {by_ L} (h : Rests s₀ s) : Rests s₀ (missRead by_ L s).1 := by
  unfold missRead
  dsimp only
  split
  · exact h
  · exact .ite_fst (stackRead_rests h) (placeLine_rests (takeWay_rests (stackRead_rests h)))

theorem lineRead_rests {by_ L} (h : Rests s₀ s) : Rests s₀ (lineRead by_ L s).1 := by
  unfold lineRead
  dsimp only
  split
  · exact missRead_rests h
  · split
    · next e1 => exact missRead_rests (.of_fst e1 (checkLine_rests h))
    · next e1 => exact fillLine_rests (.of_fst e1 (checkLine_rests h))

theorem lineWriteAlloc_rests {L off bytes} (h : Rests s₀ s) : Rests s₀ (lineWriteAlloc L off bytes s) := by
  unfold lineWriteAlloc
  split
  · exact placeLine_rests (takeWay_rests h)
  · exact placeLine_rests h

theorem lineWriteThrough_rests {L off bytes} (h : Rests s₀ s) : Rests s₀ (lineWriteThrough L off bytes s) := by
  unfold lineWriteThrough
  split
  · exact h
  · split
    · next ln _ =>
      have h1 := writeBack_rests (L := L) (ln := { mergeBytes ln off bytes with dirty := true })
        (placeLine_rests (L := L) (ln := mergeBytes ln off bytes) h)
      exact .ite h1 (dropLine_rests h1)
    · exact .ite (stackWrite_rests h) (stackWrite_rests (stackRead_rests h))

theorem lineWrite_rests {L off bytes} (h : Rests s₀ s) : Rests s₀ (lineWrite L off bytes s) :=
  .ite (lineWriteThrough_rests h) (lineWriteAlloc_rests h)

/-! ### Runs of bytes -/

theorem vaRead_rests {p va n} (h : Rests s₀ s) : RestsRes s₀ (vaRead p va n s) := by
  refine resFold_rests (fun _ _ _ h1 => ?_) h
  dsimp only
  split
  · exact .err h1
  · exact .ok (lineRead_rests h1)

theorem vaWrite_rests {p va bytes} (h : Rests s₀ s) : RestsRes s₀ (vaWrite p va bytes s) := by
  refine andThen_rests (resFold_rests (fun _ _ _ h1 => ?_) h) (fun _ _ h1 => .ok h1)
  split
  · exact .err h1
  · exact .ok (lineWrite_rests h1)

theorem atomAt_rests {dpa aop dt v c} (h : Rests s₀ s) : Rests s₀ (atomAt dpa aop dt v c s).1 :=
  .foldl_fst (fun _ _ => lineWrite_rests) (.foldl_fst (fun _ _ => lineRead_rests) h)

theorem ownWrite_rests {p va bytes} (h : Rests s₀ s) : Rests s₀ (ownWrite p va bytes s) := by
  refine .foldl_fst (fun a _ h1 => ?_) h
  dsimp only
  split
  · exact h1
  · exact lineWrite_rests h1

theorem scuWriteLine_rests {k o off mine} (h : Rests s₀ s) : Rests s₀ (scuWriteLine k o off mine s).1 :=
  .ite_fst (stackWrite_rests h) (stackWrite_rests (stackRead_rests h))

theorem scuWrite_rests {p va bytes} (h : Rests s₀ s) : Rests s₀ (scuWrite p va bytes s).1 := by
  refine List.foldlRecOn (lineSpans va bytes.length) (motive := fun t : (State × Bool) × List PB => Rests s₀ t.1.1) _ h (fun t ht sp _ => ?_)
  dsimp only
  split
  · exact ht
  · exact scuWriteLine_rests ht

theorem writeStatus_rests {e k state code tStart tEnd pauses d} (h : Rests s₀ s) : Rests s₀ (writeStatus e k state code tStart tEnd pauses d s) :=
  .ite (scuWrite_rests h) h

/-! ### Entries of the rings and the ends of requests (09 R242 to R244) -/

theorem sessPlaced_rests {e} (h : Rests s₀ s) : Rests s₀ (sessPlaced e s) := .ite h (.ite h h)

theorem placeEntry_rests {r e} (h : Rests s₀ s) : Rests s₀ (placeEntry r e s) := by
  unfold placeEntry
  extract_lets x bytes a n s1 s2 s3
  have h3 : Rests s₀ s3 := sessPlaced_rests (s := s2) h
  refine .ite (Rests.reported ?_ (msix_reported ..)) h3
  exact h3

theorem ringPost_rests {r e} (h : Rests s₀ s) : Rests s₀ (ringPost r e s) := .ite (placeEntry_rests h) (.ite h (sessPlaced_rests h))

theorem submitPost_rests {n e} (h : Rests s₀ s) : Rests s₀ (submitPost n e s) := .ite h (ringPost_rests h)

theorem postSess_rests {n e} (h : Rests s₀ s) : Rests s₀ (postSess n e s) := submitPost_rests h

theorem endWith_rests {n e} (h : Rests s₀ s) : Rests s₀ (endWith n e s) := .ite h (postSess_rests h)

theorem retryAll_rests {p code} (h : Rests s₀ s) : Rests s₀ (retryAll p code s) := .foldl (fun _ _ h1 => endWith_rests h1) h

theorem draftFails_rests {d} (h : Rests s₀ s) : Rests s₀ (draftFails d s) := by
  unfold draftFails
  split
  · exact h
  · exact .ite h h

/-! ### Sessions that lose pages (08 R210, R230) -/

theorem syncDir_rests {p n old} (h : Rests s₀ s) : Rests s₀ (syncDir p n old s) := by
  unfold syncDir
  dsimp only
  split
  · exact h
  · exact .ite h (.foldl (fun _ _ h1 => .ite h1 (ownWrite_rests h1)) (ownWrite_rests h))

theorem releasePages_rests {p pages} (h : Rests s₀ s) : Rests s₀ (releasePages p pages s) := modPart_rests (fun _ => ⟨rfl, id, id⟩) h

theorem cutPages_rests {p n i} (h : Rests s₀ s) : Rests s₀ (cutPages p n i s) := by
  unfold cutPages
  split
  · exact h
  · exact syncDir_rests (releasePages_rests h)

theorem loseFrom_rests {ev p n i} (h : Rests s₀ s) : Rests s₀ (loseFrom ev p n i s) := by
  have h1 := cutPages_rests (p := p) (n := n) (i := i / max 1 (getPart s p).params.run * max 1 (getPart s p).params.run) h
  unfold loseFrom
  dsimp only
  refine Rests.reported ?_ (post_reported ..)
  split
  · exact .ite h1 h1
  · exact .ite h1 (.ite (endWith_rests h1) h1)
  · exact endWith_rests h1
  · exact endWith_rests h1
  · exact h1

theorem loseSessionsEv_rests {ev p} (h : Rests s₀ s) : Rests s₀ (loseSessionsEv ev p s) := by
  unfold loseSessionsEv
  refine .foldl (fun _ _ h1 => .ite h1 ?_) h
  split
  · exact loseFrom_rests h1
  · exact h1

/-! ### A step that fails (09 R253) -/

theorem failStep_rests {p code} (h : Rests s₀ s) : Rests s₀ (failStep p code s) := by
  unfold failStep
  split
  · exact h
  · extract_lets ks evs pos r ev s1 s2
    have h1 : Rests s₀ s1 := .foldl (fun _ _ h => h) (modPart_rests (fun _ => ⟨rfl, id, fun _ => rfl⟩) h)
    have h2 : Rests s₀ s2 := .foldl (fun _ _ h => .ite (draftFails_rests h) (endWith_rests h)) h1
    exact loseSessionsEv_rests (.foldl (fun _ _ h => .ite (endWith_rests h) h) h2)

/-! ### Packets (11 R283, R294) -/

theorem choosePort_rests {k} (h : Rests s₀ s) : Rests s₀ (choosePort k s).1 := by
  have h1 : Rests s₀ (takeCredits k.vc (slotsOf k).length (upPorts s k.dst) s) := .foldl (fun _ _ h1 => h1) h
  unfold choosePort
  dsimp only
  refine .ite_fst h ?_
  split
  · exact h1
  · exact h1

theorem sendPacket_rests {k} (h : Rests s₀ s) : Rests s₀ (sendPacket k s) := by
  refine .ite h ?_
  unfold route
  split
  · split
    · next e1 => exact .of_fst e1 (choosePort_rests h)
    · exact h
  · exact h

/-! ### Collective requests (11 R301 to R310) -/

theorem modReq_rests {p q f} (h : Rests s₀ s) : Rests s₀ (modReq p q f s) := modPart_rests (fun _ => ⟨rfl, id, id⟩) h

theorem retireColl_rests {p r record} (h : Rests s₀ s) : Rests s₀ (retireColl p r record s) :=
  ownWrite_rests (ownWrite_rests (modPart_rests (fun _ => ⟨rfl, id, id⟩) (ownWrite_rests h)))

theorem collBytes_rests {r N} (h : Rests s₀ s) : Rests s₀ (collBytes r N s).1 := .ite_fst h (.ite_fst (.ite_fst h h) h)

theorem collFail_rests {p r code} (h : Rests s₀ s) : Rests s₀ (collFail p r code s) := by
  unfold collFail
  dsimp only
  split
  · exact retireColl_rests (collBytes_rests h)
  · exact haltCore_rests (retireColl_rests (collBytes_rests h))

theorem failGroup_rests {g code} (h : Rests s₀ s) : Rests s₀ (failGroup g code s) := by
  unfold failGroup
  split
  · exact h
  · exact .foldl (fun _ _ => collFail_rests) h

theorem readInput_rests {p va n} (h : Rests s₀ s) : Rests s₀ (readInput p va n s).1 := by
  unfold readInput
  split
  · next e1 => exact RestsRes.of e1 (vaRead_rests h)
  · next e1 => exact RestsRes.of e1 (vaRead_rests h)

theorem sendColl_rests {p q j c} (h : Rests s₀ s) : Rests s₀ (sendColl p q j c s) := by
  unfold sendColl
  split
  · exact h
  · exact .ite (collFail_rests h) (.foldl (fun _ _ => sendPacket_rests) (modReq_rests h))

theorem sendEach_rests {p q ranks c} (h : Rests s₀ s) : Rests s₀ (sendEach p q ranks c s) := .foldl (fun _ _ => sendColl_rests) h

theorem putOut_rests {p q va l} (h : Rests s₀ s) : Rests s₀ (putOut p q va l s) := by
  refine modReq_rests ?_
  unfold collWrite
  split
  · next e1 => exact RestsRes.of e1 (vaWrite_rests h)
  · next e1 => exact RestsRes.of e1 (vaWrite_rests h)

/-! #### Copies (R306) -/

theorem startCopy_rests {p q} (h : Rests s₀ s) : Rests s₀ (startCopy p q s) := by
  unfold startCopy
  split
  · exact h
  · extract_lets x N block pkt s1
    have h1 : Rests s₀ s1 := .ite h (putOut_rests h)
    clear_value s1
    split
    · exact sendEach_rests h1
    · exact .foldl (fun _ _ => sendColl_rests) h1
    · exact .ite (.foldl (fun _ _ => sendEach_rests) h1) h1
    · exact h

theorem takeData_rests {p q c} (h : Rests s₀ s) : Rests s₀ (takeData p q c s) := by
  unfold takeData
  split
  · exact h
  · extract_lets x N s1
    have h1 : Rests s₀ s1 := putOut_rests (modReq_rests h)
    exact .ite h (.ite (.ite h1 (sendColl_rests h1)) (.ite (sendEach_rests h1) h1))

/-! #### Reductions (R307, R308) -/

theorem putFinal_rests {p q c v} (h : Rests s₀ s) : Rests s₀ (putFinal p q c v s) := by
  unfold putFinal
  split
  · exact h
  · dsimp only
    split
    · exact h
    · exact putOut_rests (modReq_rests h)

theorem rootResult_rests {p q c v} (h : Rests s₀ s) : Rests s₀ (rootResult p q c v s) := by
  unfold rootResult
  split
  · exact h
  · dsimp only
    split
    · exact h
    · exact sendEach_rests (.ite (putFinal_rests h) h)

theorem passUp_rests {p q c k j a v} (h : Rests s₀ s) : Rests s₀ (passUp p q c k j a v s) := by
  induction k generalizing j a v s with
  | zero => exact rootResult_rests h
  | succ k ih =>
    unfold passUp
    split
    · exact h
    · refine .ite (sendColl_rests h) (.ite (ih (modReq_rests h)) ?_)
      split
      · exact ih (modReq_rests h)
      · exact modReq_rests h

theorem ringStep_rests {p q c acc} (h : Rests s₀ s) : Rests s₀ (ringStep p q c acc s) := by
  unfold ringStep
  split
  · exact h
  · dsimp only
    split
    · exact h
    · exact .ite (rootResult_rests h) (sendColl_rests h)

theorem startReduce_rests {p q} (h : Rests s₀ s) : Rests s₀ (startReduce p q s) := by
  unfold startReduce
  split
  · exact h
  · exact .foldl (fun _ _ h1 => .ite (.ite (ringStep_rests (modReq_rests h1)) (modReq_rests h1)) (passUp_rests h1)) h

theorem takeNode_rests {p q c} (h : Rests s₀ s) : Rests s₀ (takeNode p q c s) := by
  unfold takeNode
  split
  · exact h
  · extract_lets x N final l s1 s2
    have h1 : Rests s₀ s1 := modReq_rests h
    have h2 : Rests s₀ s2 := modReq_rests h1
    split
    · exact h
    · refine .ite h ?_
      split
      · exact h1
      · extract_lets v
        have hfinal : Rests s₀ (putFinal p q c.chunk v s2) := putFinal_rests h2
        exact .ite (.ite (sendColl_rests hfinal) hfinal) (.ite (ringStep_rests (modReq_rests h2)) (.ite (passUp_rests h2) h2))

/-! #### Remote atomics (R306, 10 R275, R276) -/

theorem performAtomic_rests {p rec bad} (h : Rests s₀ s) : Rests s₀ (performAtomic p rec bad s).1 := by
  unfold performAtomic
  dsimp only
  refine .ite_fst h ?_
  split
  · exact h
  · exact atomAt_rests h

theorem takeResult_rests {p q idx code old} (h : Rests s₀ s) : Rests s₀ (takeResult p q idx code old s) := by
  unfold takeResult
  split
  · exact h
  · exact .ite h (.ite (collFail_rests h) (.ite (modReq_rests h) (putOut_rests (modReq_rests h))))

theorem sendPoint_rests {p q i} (h : Rests s₀ s) : Rests s₀ (sendPoint p q i s) := by
  unfold sendPoint
  split
  · exact h
  · refine .ite h (.ite ?_ ?_)
    · split
      · next e1 => exact takeResult_rests (.of_fst e1 (performAtomic_rests h))
      · next e1 => exact takeResult_rests (.of_fst e1 (performAtomic_rests h))
    · split
      · exact h
      · exact .ite h (sendPacket_rests (modReq_rests h))

/-! #### A request's turn (R303, R306) -/

theorem takePacket_rests {p q rank c} (h : Rests s₀ s) : Rests s₀ (takePacket p q rank c s) := by
  unfold takePacket
  split
  · exact h
  · refine .ite (modReq_rests h) (.ite (collFail_rests h) ?_)
    split
    · exact modReq_rests h
    · exact sendPacket_rests (takeData_rests h)
    · exact sendPacket_rests (takeNode_rests h)
    · exact takeNode_rests h

theorem startColl_rests {p q} (h : Rests s₀ s) : Rests s₀ (startColl p q s) := by
  unfold startColl
  split
  · exact h
  · extract_lets x
    split
    · exact h
    · extract_lets N
      split
      next s1 _ _ e1 =>
        extract_lets s2 s3 s4
        have h2 : Rests s₀ s2 := modReq_rests (.of_fst e1 (readInput_rests h))
        have h3 : Rests s₀ s3 := sendEach_rests h2
        have h4 : Rests s₀ s4 := .ite (startReduce_rests h3) (startCopy_rests h3)
        exact .ite (.foldl (fun _ _ => sendPoint_rests) h2) (.foldl (fun _ _ => takePacket_rests) h4)

theorem breakGroup_rests {g code} (h : Rests s₀ s) : Rests s₀ (breakGroup g code s) := by
  unfold breakGroup
  split
  · exact h
  · exact .ite (.foldl (fun _ _ h1 => .ite (startColl_rests h1) h1) (failGroup_rests h)) h

theorem breakGroupsOf_rests {p} (h : Rests s₀ s) : Rests s₀ (breakGroupsOf p s) := .foldl (fun _ _ => breakGroup_rests) h

end

end Sys2Proof.Machine
end

section
/-!
PROOF. The states of a partition (09 R246, R247, 14 R377) and what an abort leaves (05 R142): the cores of the kernel stop, the commands of the
partition leave every SCU's queue, and nothing that follows puts them back to work (`Rests`).
-/

namespace Sys2Proof.Machine

/-! ### Cores that an abort stops -/

/-- The core is halted, with its queues empty. -/
def CoreStopped (c : Core) : Prop := (c.me.queue = [] ∧ c.ve.queue = [] ∧ c.mv.queue = [] ∧ c.tt.queue = []) ∧ c.mode = .halted

theorem CoreRests.stopped {c d : Core} (h : CoreRests c d) (hc : CoreStopped c) : CoreStopped d := by
  obtain ⟨⟨hme, hve, hmv, htt⟩, hmode⟩ := h
  obtain ⟨⟨cme, cve, cmv, ctt⟩, cmode⟩ := hc
  exact ⟨⟨hme.trans cme, hve.trans cve, hmv.trans cmv, htt.trans ctt⟩, hmode cmode⟩

theorem abortCore_stopped (n : Nat) (s : State) : CoreStopped (getCore (abortCore n s) n) := by
  rw [abortCore, getCore_modCore_same, getCore_writeHalt_same]
  exact ⟨⟨rfl, rfl, rfl, rfl⟩, rfl⟩

theorem getCore_abortCore_other {n m : Nat} (s : State) (h : m ≠ n) : getCore (abortCore n s) m = getCore s m :=
  (getCore_modCore_other _ _ _ _ h).trans (getCore_writeHalt_other _ s h)

theorem abortCore_chans (n : Nat) (s : State) : (abortCore n s).chans = s.chans := by
  have hwritten := congrArg State.chans (writeHalt_frame n (ctrlRec s n 0x1150) s)
  exact (modCore_chans ..).trans hwritten

/-- The cores of a list stopped one after another. -/
def abortCores (l : List Nat) (s : State) : State := l.foldl (fun t n => abortCore n t) s

theorem abortCores_stopped {n : Nat} {l : List Nat} {s : State} (h : n ∈ l ∨ CoreStopped (getCore s n)) :
    CoreStopped (getCore (abortCores l s) n) := by
  induction l generalizing s with
  | nil => exact h.resolve_left List.not_mem_nil
  | cons m l ih =>
    refine ih ?_
    by_cases hm : n = m
    · exact .inr (hm ▸ abortCore_stopped m s)
    · rw [getCore_abortCore_other s hm]
      exact h.imp_left fun hn => (List.mem_cons.mp hn).resolve_left hm

theorem abortCores_chans (l : List Nat) (s : State) : (abortCores l s).chans = s.chans :=
  List.foldlRecOn (motive := fun t => t.chans = s.chans) l _ rfl fun t ht n _ => (abortCore_chans n t).trans ht

/-! ### SCUs that an abort empties of a partition's commands (04 R113) -/

/-- No SCU holds a command of partition p; every channel stands once in the table. -/
def NoScuWork (p : Nat) (s : State) : Prop := spWf ({} : Chan) s.chans = true ∧ ∀ c, ∀ x ∈ (getChan s c).queue, x.part ≠ p

theorem NoScuWork.rests {p : Nat} {s t : State} (hs : NoScuWork p s) (h : Rests s t) : NoScuWork p t := by
  obtain ⟨hform, hnone⟩ := hs
  obtain ⟨⟨kform, kqueue⟩, -⟩ := h
  exact ⟨kform hform, fun c x hx => hnone c x ((kqueue c : (getChan t c).queue = (getChan s c).queue) ▸ hx)⟩

theorem NoScuWork.modPart {p k : Nat} {s : State} (hs : NoScuWork p s) (g : Part → Part) : NoScuWork p (modPart k g s) := hs

theorem NoScuWork.not_busy {p : Nat} {s : State} (hs : NoScuWork p s) : scuBusy s p = false := by
  obtain ⟨hform, hnone⟩ := hs
  refine List.any_eq_false.mpr fun e he => ?_
  have hqueue : (getChan s e.1).queue = e.2.queue := congrArg Chan.queue (spGet_of_mem hform he)
  simpa [← hqueue] using hnone e.1

/-- One channel's part of `abortScus`, for the commands that its queue held at time now. -/
def abortScu (p now : Nat) (t : State) (e : Nat × Chan) : State :=
  let mine := e.2.queue.filter (fun x => x.part == p)
  if mine.isEmpty then t
  else modChan e.1 (fun c => { c with queue := c.queue.filter (fun x => x.part != p), refPauses := 0 })
    (mine.foldl (fun t x => writeStatus x e.1 4 0x1310 now now 0 {} t) t)

theorem abortScus_eq (p : Nat) (s : State) : abortScus p s = s.chans.foldl (abortScu p s.ftime) s := rfl

theorem statuses_rest (k : Nat) (now : Nat) (l : List ScuEnt) (t : State) :
    Rests t (l.foldl (fun t x => writeStatus x k 4 0x1310 now now 0 {} t) t) := .foldl (fun _ _ h => writeStatus_rests h) (.refl t)

/-- The channels of l are as they were found, and no other holds a command of the partition. -/
def ScusLeft (p : Nat) (l : List (Nat × Chan)) (t : State) : Prop :=
  spWf ({} : Chan) t.chans = true ∧ (∀ e ∈ l, (getChan t e.1).queue = e.2.queue)
    ∧ ∀ c, c ∉ l.map (·.1) → ∀ x ∈ (getChan t c).queue, x.part ≠ p

theorem ScusLeft.step {p now : Nat} {e : Nat × Chan} {l : List (Nat × Chan)} {t : State} (h : ScusLeft p (e :: l) t) (he : e.1 ∉ l.map (·.1)) :
    ScusLeft p l (abortScu p now t e) := by
  obtain ⟨hform, hfound, hdone⟩ := h
  obtain ⟨hhead, hfound⟩ := List.forall_mem_cons.mp hfound
  have hother {c : Nat} (hc : c ≠ e.1) (hl : c ∉ l.map (·.1)) : ∀ x ∈ (getChan t c).queue, x.part ≠ p :=
    hdone c fun hmem => (List.mem_cons.mp hmem).elim hc hl
  unfold abortScu
  extract_lets mine
  split
  · next hmine =>
    refine ⟨hform, hfound, fun c hl => ?_⟩
    by_cases hc : c = e.1
    · rw [hc, hhead]
      intro x hx hpart
      have hmem : x ∈ mine := List.mem_filter.mpr ⟨hx, beq_iff_eq.mpr hpart⟩
      exact List.ne_nil_of_mem hmem (List.isEmpty_iff.mp hmine)
    · exact hother hc hl
  · obtain ⟨⟨kform, kqueue⟩, -⟩ := statuses_rest e.1 now mine t
    generalize mine.foldl (fun t x => writeStatus x e.1 4 0x1310 now now 0 {} t) t = t1 at kform kqueue
    refine ⟨modChan_wf _ _ (kform hform), fun e' he' => ?_, fun c hl => ?_⟩
    · rw [getChan_modChan_other _ _ _ _ fun heq => he (List.mem_map.mpr ⟨e', he', heq⟩)]
      exact (kqueue e'.1).trans (hfound e' he')
    · by_cases hc : c = e.1
      · rw [hc, getChan_modChan_same]
        exact fun x hx => by simpa using (List.mem_filter.mp hx).2
      · rw [getChan_modChan_other _ _ _ _ hc]
        exact fun x hx => hother hc hl x ((kqueue c : (getChan t1 c).queue = (getChan t c).queue) ▸ hx)

theorem ScusLeft.all {p now : Nat} {l : List (Nat × Chan)} {t : State} (h : ScusLeft p l t) (hl : (l.map (·.1)).Nodup) :
    ScusLeft p [] (l.foldl (abortScu p now) t) := by
  induction l generalizing t with
  | nil => exact h
  | cons e l ih =>
    obtain ⟨he, hl⟩ := List.nodup_cons.mp hl
    exact ih (h.step he) hl

theorem abortScus_noScuWork (p : Nat) {s : State} (hform : spWf ({} : Chan) s.chans = true) : NoScuWork p (abortScus p s) := by
  have hstart : ScusLeft p s.chans s := by
    refine ⟨hform, fun e he => congrArg Chan.queue (spGet_of_mem hform he), fun c hc => ?_⟩
    rw [getChan, spGet_of_notMem _ hc]
    exact fun x hx => absurd hx List.not_mem_nil
  obtain ⟨kform, -, knone⟩ := hstart.all (now := s.ftime) (spWf_keys_nodup hform)
  exact ⟨kform, fun c => knone c List.not_mem_nil⟩

theorem abortScus_cores (p n : Nat) (s : State) : CoreRests (getCore s n) (getCore (abortScus p s) n) := by
  refine List.foldlRecOn (motive := fun t => CoreRests (getCore s n) (getCore t n)) s.chans _ (.refl _) fun t ht e _ => ?_
  dsimp only
  split
  · exact ht
  · obtain ⟨-, kcores, -⟩ := statuses_rest e.1 s.ftime (e.2.queue.filter (fun x => x.part == p)) t
    exact ht.trans (kcores n)

/-! ### The abort (R142) -/

/-- The partition as its abort sets it first. -/
def haltedPart (x : Part) : Part := { x with st := .halted, drainCut := false }

theorem haltedPart_st (x : Part) : (haltedPart x).st = .halted := rfl

/-- The partition once its step has failed: without kernel, requests and long work. -/
def emptiedPart (x : Part) : Part := { x with kernel := none, coll := [], unmapping := false, unmapVas := [], mirroring := none }

theorem emptiedPart_fields (x : Part) : (emptiedPart x).st = x.st ∧ (emptiedPart x).kernel = none ∧ (emptiedPart x).step = x.step := ⟨rfl, rfl, rfl⟩

/-- Cores and SCUs stopped, the groups broken. -/
def abortStopped (p : Nat) (s : State) : State :=
  breakGroupsOf p (modPart p haltedPart (abortScus p (abortCores (stoppedCores s p) s)))

/-- The step failed and the kernel gone. -/
def abortEmptied (p : Nat) (code : Code) (s : State) : State := modPart p emptiedPart (failStep p code (abortStopped p s))

theorem abortWith_eq (p : Nat) (code event : Code) (s : State) :
    abortWith p code event s = endAllOps p 0x5122 (if (getPart s p).st = .halted then retryAll p code (abortEmptied p code s)
      else partEvent p event (retryAll p code (abortEmptied p code s))) := rfl

theorem endAllOps_reported (p : Nat) (code : Code) (s : State) : Reported s (endAllOps p code s) :=
  .foldl (fun t o => opDone_reported o code 0 t) _ s

theorem abortWith_rests (p : Nat) (code event : Code) (s : State) : Rests (abortEmptied p code s) (abortWith p code event s) := by
  have hretried : Rests (abortEmptied p code s) (retryAll p code (abortEmptied p code s)) := retryAll_rests (.refl _)
  rw [abortWith_eq]
  exact Rests.reported (.ite hretried (hretried.reported (partEvent_reported ..))) (endAllOps_reported ..)

theorem abortStopped_rests (p : Nat) (s : State) :
    Rests (modPart p haltedPart (abortScus p (abortCores (stoppedCores s p) s))) (abortStopped p s) := breakGroupsOf_rests (.refl _)

theorem abortEmptied_part (p : Nat) (code : Code) (s : State) :
    (getPart (abortEmptied p code s) p).st = .halted ∧ (getPart (abortEmptied p code s) p).kernel = none
      ∧ (getPart (abortEmptied p code s) p).step = none := by
  obtain ⟨-, -, hparts⟩ := abortStopped_rests p s
  obtain ⟨hstopped, -, -⟩ := hparts p
  rw [getPart_modPart_same, haltedPart_st] at hstopped
  obtain ⟨-, hst, hstep⟩ := failStep_leaves p code (abortStopped p s)
  obtain ⟨est, ekernel, estep⟩ := emptiedPart_fields (getPart (failStep p code (abortStopped p s)) p)
  rw [abortEmptied, getPart_modPart_same]
  exact ⟨est.trans (hst.trans hstopped), ekernel, estep.trans hstep⟩

theorem abortEmptied_noScuWork (p : Nat) (code : Code) {s : State} (hform : spWf ({} : Chan) s.chans = true) :
    NoScuWork p (abortEmptied p code s) := by
  have hscus : NoScuWork p (modPart p haltedPart (abortScus p (abortCores (stoppedCores s p) s))) :=
    (abortScus_noScuWork p (by rw [abortCores_chans]; exact hform)).modPart _
  exact ((hscus.rests (abortStopped_rests p s)).rests (failStep_rests (.refl _))).modPart _

theorem abortEmptied_stopped {p n : Nat} (code : Code) {s : State} {k : Kernel} (hk : (getPart s p).kernel = some k) (hn : n ∈ k.cores) :
    CoreStopped (getCore (abortEmptied p code s) n) := by
  have hstopped : CoreStopped (getCore (abortCores (stoppedCores s p) s) n) := abortCores_stopped (.inl (by rw [stoppedCores, hk]; exact hn))
  obtain ⟨-, hbroken, -⟩ := abortStopped_rests p s
  have hleft : CoreStopped (getCore (abortStopped p s) n) := by
    refine (hbroken n).stopped ?_
    rw [getCore_modPart]
    exact (abortScus_cores p n _).stopped hstopped
  obtain ⟨hcores, -, -⟩ := failStep_leaves p code (abortStopped p s)
  rw [abortEmptied, getCore_modPart, getCore, hcores]
  exact hleft

/-- What an abort leaves: the partition Halted, without kernel and step, its commands out of every SCU, and the kernel's cores stopped. -/
theorem abortPart_leaves (p : Nat) {s : State} (hform : spWf ({} : Chan) s.chans = true) :
    ((getPart (abortPart p s) p).st = .halted ∧ (getPart (abortPart p s) p).kernel = none ∧ (getPart (abortPart p s) p).step = none)
      ∧ scuBusy (abortPart p s) p = false
      ∧ ∀ n k, (getPart s p).kernel = some k → n ∈ k.cores → CoreStopped (getCore (abortPart p s) n) := by
  have hrests : Rests (abortEmptied p 0x4121 s) (abortPart p s) := abortWith_rests p 0x4121 0x1150 s
  have hscus := (abortEmptied_noScuWork p 0x4121 hform).rests hrests
  obtain ⟨-, hcores, hparts⟩ := hrests
  obtain ⟨hst, hkernel, hstep⟩ := hparts p
  obtain ⟨est, ekernel, estep⟩ := abortEmptied_part p 0x4121 s
  exact ⟨⟨hst.trans est, hkernel ekernel, hstep estep⟩, hscus.not_busy,
    fun n k hk hn => (hcores n).stopped (abortEmptied_stopped 0x4121 hk hn)⟩

/-! ### The PART commands of a partition's state (14 R377) -/

section
variable {q : Req} {s : State}

theorem partStartH_ok {i : Nat} {u : State} (hp : q.f 0 1 < 16) (hst : (getPart s (q.f 0 1)).st = .drained) (hon : s.boot.domainsOff = false)
    (hset : startable s (getPart s (q.f 0 1)) = true) (himage : chooseImage s (getPart s (q.f 0 1)) = some i)
    (hdirs : placeDirs (q.f 0 1) s = some u) :
    partStartH q s = .ok (modPart (q.f 0 1) (fun x => { x with st := .serving, imageUse := i }) u) (leBytes i 1) := by
  rw [partStartH, checked_append (partChecks_pass hp (inState_of_mem (by simp [hst]))), checked_pass hon,
    checked_pass (by rw [hset]; rfl), checked_nil, himage, hdirs]

/-- DRAIN's own checks pass for a partition that serves or is Halted. -/
theorem partDrainH_eq (hp : q.f 0 1 < 16) (hst : (getPart s (q.f 0 1)).st = .serving ∨ (getPart s (q.f 0 1)).st = .halted) (hwait : q.f 1 1 ≤ 1) :
    partDrainH q s = if (getPart s (q.f 0 1)).st = .halted then
        .op (modPart (q.f 0 1) (fun x => { x with st := .drained })
          (if q.f 1 1 == 1 then retryAll (q.f 0 1) 0x4120 (breakGroupsOf (q.f 0 1) s) else s)) (some (q.f 0 1)) []
      else .op (beginDrain (q.f 0 1) (q.f 1 1 == 1) s) (some (q.f 0 1)) [] := by
  rw [partDrainH, checked_append (partChecks_pass hp (inState_of_mem (by simpa using hst))), checked_pass (decide_eq_false (by omega)), checked_nil]

theorem drainDone_of_over {p : Nat} (h : drainOver s p = true) :
    drainDone p s = endOps p 0x020C 0 (proceedOuts p (modPart p (fun x => { x with st := .drained, drainCut := false }) s)) :=
  if_pos (by rw [h]; rfl)

theorem partResumeH_ok (hp : q.f 0 1 < 16) (hst : (getPart s (q.f 0 1)).st = .halted) (hon : s.boot.domainsOff = false) :
    partResumeH q s = .ok (modPart (q.f 0 1) (fun x => { x with st := .serving }) s) [] := by
  rw [partResumeH, checked_append (partChecks_pass hp (inState_of_mem (by simp [hst]))), checked_pass hon, checked_nil]

theorem partAbortH_ok (hp : q.f 0 1 < 16) (habsent : (getPart s (q.f 0 1)).st ≠ .absent) (hempty : (getPart s (q.f 0 1)).st ≠ .empty) :
    partAbortH q s = .ok (abortPart (q.f 0 1) s) [] := by
  have hloaded : inState (getPart s (q.f 0 1)) [.drained, .serving, .draining, .halted] = true := by
    cases hst : (getPart s (q.f 0 1)).st with
    | absent => exact absurd hst habsent
    | empty => exact absurd hst hempty
    | _ => simp [inState, hst]
  exact checked_of_pass (partChecks_pass hp hloaded)

/-- What a STATUS within its ranges asks for. -/
theorem partStatusH_eq (hp : q.f 0 1 < 16) (hst : (getPart s (q.f 0 1)).st ≠ .absent) (hwhat : q.f 1 1 ≤ 2) (hlow : 1 ≤ q.f 6 2)
    (hhigh : q.f 6 2 ≤ 63) :
    partStatusH q s = .ok s (if q.f 1 1 = 0 then partSummary s (q.f 0 1)
      else recPayload (((if q.f 1 1 = 1 then (getPart s (q.f 0 1)).haltRecs.map HaltRec.toNat
        else (getPart s (q.f 0 1)).stepRecs.map StepRec.toNat).drop (q.f 4 2)).take (q.f 6 2))) := by
  rw [partStatusH, checked_append (partChecks_existing hp hst), checked_pass (decide_eq_false (by omega)), checked_nil]

end

/-- Settles O42: each command's reply past its checks, and `abortPart_leaves`. -/
theorem partitionStates : Obligations.PartitionStates := by
  unfold Obligations.PartitionStates
  refine ⟨fun sub s q t => ?_, fun p s hform => ?_⟩
  · intro p pt ok
    refine ⟨fun hs hp hst hon hset i u himage hdirs => ?_, fun hs hp hwait hroom => ?_, fun p hp hover => ?_, fun hs hp hst hon => ?_,
      fun hs hp habsent hempty => ?_, fun hs hp hst hlow hhigh => ⟨fun hwhat => ?_, fun hwhat => ?_, fun hwhat => ?_⟩⟩
    · exact mail_of_ok hs (partStartH_ok hp hst hon hset himage hdirs)
    · refine ⟨fun hst => mail_of_op hs hroom ?_, fun hst => mail_of_op hs hroom ?_⟩
      · have hruns : (getPart t (q.f 0 1)).st ≠ .halted := fun h => PState.noConfusion (hst.symm.trans h)
        rw [partDrainH_eq hp (.inl hst) hwait, if_neg hruns]
      · rw [partDrainH_eq hp (.inr hst) hwait, if_pos hst]
    · exact (onPart_of_lt hp).trans (congrArg _ (drainDone_of_over hover))
    · exact mail_of_ok hs (partResumeH_ok hp hst hon)
    · exact mail_of_ok hs (partAbortH_ok hp habsent hempty)
    · exact mail_of_ok hs ((partStatusH_eq hp hst (by omega) hlow hhigh).trans (by rw [if_pos hwhat]))
    · exact mail_of_ok hs ((partStatusH_eq hp hst (by omega) hlow hhigh).trans (by rw [if_neg (by omega), if_pos hwhat]))
    · exact mail_of_ok hs ((partStatusH_eq hp hst (by omega) hlow hhigh).trans (by rw [if_neg (by omega), if_neg (by omega)]))
  · obtain ⟨⟨hst, hkernel, hstep⟩, hscus, hcores⟩ := abortPart_leaves p hform
    refine ⟨hst, hkernel, hstep, hscus, fun n k hk hn => ?_⟩
    obtain ⟨⟨hme, hve, hmv, htt⟩, hmode⟩ := hcores n k hk hn
    exact ⟨hme, hve, hmv, htt, hmode⟩

end Sys2Proof.Machine
end

section
/-!
PROOF. Collective requests and remote atomics (10 R276, R277, 11 R302 to R306): what becomes of a request that is read, of a packet of a member,
of a request that has all it needs, and of a point's result.
-/

namespace Sys2Proof.Machine

/-! ### Reading requests (R302, R303) -/

/-- The rows that read a partition's next request, each with its operation. -/
def collRows (p : Nat) : List (Instr × Nat) :=
  [(.allReduce p, 1), (.reduceScatter p, 2), (.allGather p, 3), (.allToAll p, 4), (.broadcast p, 5), (.barrier p, 6), (.remoteAtomic p, 7)]

/-- A request as it is read, by its number and its bits. -/
def readReq (q x now : Nat) : CollReq := { q := q, req := BitVec.ofNat 512 x, tStart := now }

/-- HEAD advances, in the control line too (R301). -/
def advanceHead (p : Nat) (s : State) : State := writeCtl p (modPart p (fun pt => { pt with collHead := (pt.collHead + 1) % 2 ^ 32 }) s)

/-- The code that refuses a request that was read: its poison, or the first check that fails (R302). -/
def refusal (p x : Nat) (poison : Bool) (t : State) : Option Code := if poison then some 0x3132 else collCheck t p x

/-- A request that was read is refused or queued. -/
def settleRead (p : Nat) (r : CollReq) (t : State) : Option Code → State
  | some code => collFail p r code t
  | none => queueColl p r t

theorem exec_collRow {p op : Nat} {i : Instr} (s : State) (hp : p < 16) (h : (i, op) ∈ collRows p) : exec i s = .next (collRow op p s) := by
  have hrow : exec i s = onPart p (.next (collRow op p s)) := by
    simp only [collRows, List.mem_cons, List.not_mem_nil, or_false, Prod.mk.injEq] at h
    rcases h with ⟨rfl, rfl⟩ | ⟨rfl, rfl⟩ | ⟨rfl, rfl⟩ | ⟨rfl, rfl⟩ | ⟨rfl, rfl⟩ | ⟨rfl, rfl⟩ | ⟨rfl, rfl⟩ <;> rfl
  exact hrow.trans (onPart_of_lt hp)

/-- A request among the 256 outstanding ones, in the row of its operation. -/
theorem collRow_of_read {p q x : Nat} {poison : Bool} {s s1 : State} (hread : nextColl p s = some (s1, q, x, poison))
    (hroom : (q + 2 ^ 32 - (getPart s p).collDone) % 2 ^ 32 < 256) :
    collRow (cOp x) p s = settleRead p (readReq q x s.ftime) (advanceHead p s1) (refusal p x poison (advanceHead p s1)) := by
  have hin : decide (256 ≤ (q + 2 ^ 32 - (getPart s p).collDone) % 2 ^ 32) = false := decide_eq_false (Nat.not_le.mpr hroom)
  simp only [collRow, hread, hin, Bool.false_eq_true, if_false, BEq.rfl, Bool.true_or, Bool.not_true]
  cases poison with
  | true => rfl
  | false =>
    simp only [refusal, advanceHead, Bool.false_eq_true, if_false]
    cases collCheck _ p x <;> rfl

section
variable {p q rank : Nat} {c : CollPkt} {r : CollReq} {g : Group} {s : State}

/-! ### Packets of a member (R277, R303) -/

section
variable {gn k : Nat}

/-- The request that a packet with number k of a group is for; remote atomics count for none. -/
def memberReq (s : State) (gn k : Nat) (g : Group) : Option CollReq :=
  (getPart s g.part).coll.find? (fun r => cGroup r.req.toNat == gn && cOp r.req.toNat != 7 && r.k == k)

/-- A packet is kept until its request has begun. -/
def keepPacket (gn k rank : Nat) (c : CollPkt) (s : State) : State := modGroup gn (fun g => { g with early := g.early ++ [(k, rank, c)] }) s

/-- The device has an identity, and the packet comes from another member of a Formed group. -/
structure FromMember (s : State) (gn rank : Nat) (g : Group) : Prop where
  group : groupOf s gn = some g
  formed : g.st = .formed
  assigned : s.fab.assigned = true
  ranked : rank < g.members.length
  other : rank ≠ g.rank

theorem FromMember.passes (h : FromMember s gn rank g) :
    (!s.fab.assigned || g.st != .formed || decide (g.members.length ≤ rank) || rank == g.rank) = false := by
  simp [h.formed, h.assigned, h.ranked, h.other]

theorem collArrival_started (h : FromMember s gn rank g) (hmine : memberReq s gn k g = some r) (hstarted : r.started = true) :
    collArrival gn k rank c s = wake g.part (takePacket g.part r.q rank c s) := by
  unfold memberReq at hmine
  simp only [collArrival, h.group, h.passes, hmine, hstarted, Bool.false_eq_true, if_false, if_true]

theorem collArrival_waiting (h : FromMember s gn rank g) (hmine : memberReq s gn k g = some r) (hstarted : r.started = false) :
    collArrival gn k rank c s = keepPacket gn k rank c s := by
  unfold memberReq at hmine
  simp only [collArrival, h.group, h.passes, hmine, hstarted, Bool.false_eq_true, if_false, keepPacket]

/-- Without a request of its number, the group's count tells a packet that is early from one that is late. -/
theorem collArrival_none (h : FromMember s gn rank g) (hmine : memberReq s gn k g = none) :
    collArrival gn k rank c s = if g.count ≤ k then keepPacket gn k rank c s else s := by
  unfold memberReq at hmine
  simp only [collArrival, h.group, h.passes, hmine, Bool.false_eq_true, if_false, keepPacket]

end

/-- An acknowledgement needs no match. -/
theorem takePacket_ack (hreq : reqGroup s p q = some (r, g)) (hkind : c.kind = .ack) :
    takePacket p q rank c s = modReq p q (fun r => { r with owed := r.owed - 1 }) s := by
  simp only [takePacket, hreq, if_pos hkind]

theorem takePacket_mismatch (hreq : reqGroup s p q = some (r, g)) (hkind : c.kind ≠ .ack) (hmatch : ¬collMatch r.req.toNat c.hdr.toNat = true) :
    takePacket p q rank c s = collFail p r 0x3133 s := by
  simp only [takePacket, hreq, if_neg hkind, hmatch, Bool.not_false, if_true]

theorem takePacket_enter (hreq : reqGroup s p q = some (r, g)) (hkind : c.kind = .enter) (hmatch : collMatch r.req.toNat c.hdr.toNat = true) :
    takePacket p q rank c s = modReq p q (fun r => { r with entered := addOnce rank r.entered }) s := by
  simp [takePacket, hreq, hkind, hmatch]

theorem takePacket_data (hreq : reqGroup s p q = some (r, g)) (hkind : c.kind = .data) (hmatch : collMatch r.req.toNat c.hdr.toNat = true) :
    takePacket p q rank c s = sendPacket (collPacket s g r rank { kind := .ack, chunk := c.chunk, off := c.off }) (takeData p q c s) := by
  simp [takePacket, hreq, hkind, hmatch]

/-- A packet of an ALL_TO_ALL's block is written at the block of its rank and handed on to no one. -/
theorem takeData_allToAll (hreq : reqGroup s p q = some (r, g)) (hop : cOp r.req.toNat = 4) (hring : r.ring = false)
    (hrank : c.first < g.members.length) (hother : c.first ≠ g.rank) (hfits : c.off + c.data.length ≤ cBlock r.req.toNat)
    (hnew : r.got.any (· == (c.first, c.off)) = false) :
    takeData p q c s = putOut p q (cDst r.req.toNat + c.first * cBlock r.req.toNat + c.off) (withLines c.data c.poison)
      (modReq p q (fun r => { r with got := r.got ++ [(c.first, c.off)], bytesGot := r.bytesGot + c.data.length }) s) := by
  have htakes : ¬(cOp r.req.toNat < 3 ∨ 5 < cOp r.req.toNat ∨ g.members.length ≤ c.first ∨ c.first = g.rank
      ∨ cBlock r.req.toNat < c.off + c.data.length ∨ r.got.any (· == (c.first, c.off)) = true
      ∨ (cOp r.req.toNat = 5 ∧ c.first ≠ cRoot r.req.toNat)) := by
    rw [hnew]
    simp only [Bool.false_eq_true, false_or]
    omega
  have hblock : dataAt r.req.toNat c.first = cDst r.req.toNat + c.first * cBlock r.req.toNat := if_pos (.inr hop)
  have hrelay : ¬(cOp r.req.toNat = 5 ∧ relayOf g.members.length c.off = g.rank) := by omega
  simp only [takeData, hreq, if_neg htakes, hring, Bool.false_eq_true, if_false, if_neg hrelay, hblock]

/-! ### Completion (R304) -/

/-- The counter of the request's logical core counts one, unless its kernel has halted or does not hold that core. -/
def countDone (p : Nat) (r : CollReq) (t : State) : State :=
  match if r.stale then none else kernelCore t p (fld r.req.toNat 55 48) with
  | none => t
  | some n => incr n (fld r.req.toNat 61 56) 1 (outsideRec t n 0xFF) t

/-- The record of a request that completes, written with the bytes that it counts. -/
def retireDone (p : Nat) (r : CollReq) (g : Group) (s : State) : State :=
  let b := collBytes r g.members.length s
  retireColl p r (collRecord r 0 s.ftime g.level b.2.1 b.2.2 r.ev r.bad) b.1

theorem collComplete_of_reqGroup (hreq : reqGroup s p q = some (r, g)) :
    collComplete p q s = if collReady r g then wake p (countDone p r (retireDone p r g s)) else s := by
  simp only [collComplete, hreq]
  cases collReady r g <;> rfl

/-! ### Results of remote atomics and NACKs (10 R276, 11 R295, R306) -/

section
variable {idx code : Nat} {old : List PB}

theorem atomicResult_of_sent {v : BitVec 64} {poison : Bool} (hreq : collReq s p q = some r) (hcode : code < 2 ^ 16)
    (hsent : r.sent.any (fun e => e.1 == idx) = true) :
    atomicResult p q idx code v poison s = wake p (sendWaiting (takeResult p q idx code (pbOf poison (leBytes v.toNat 8))
      (modReq p q (fun y => { y with bytesGot := y.bytesGot + 8 }) s))) := by
  simp only [atomicResult, hreq, if_pos hsent, Nat.mod_eq_of_lt hcode]

/-- The result of a point that has not returned yet. -/
theorem takeResult_of_awaited (hreq : collReq s p q = some r) (hop : cOp r.req.toNat = 7) (hidx : idx < cCount r.req.toNat)
    (hback : mem idx r.back = false) :
    takeResult p q idx code old s = if code ≠ 0 then collFail p r code s
      else if cDst r.req.toNat = 0 then modReq p q (fun y => { y with back := y.back ++ [idx] }) s
      else putOut p q (cDst r.req.toNat + 8 * idx) old (modReq p q (fun y => { y with back := y.back ++ [idx] }) s) := by
  have hawaited : ¬(cOp r.req.toNat ≠ 7 ∨ cCount r.req.toNat ≤ idx ∨ mem idx r.back = true) := by
    rw [hback]
    simp only [Bool.false_eq_true, or_false]
    omega
  simp only [takeResult, hreq, if_neg hawaited]

end

theorem failReq_of_collReq {code : Code} (hreq : collReq s p q = some r) : failReq p q code s = collFail p r code s := by
  simp only [failReq, hreq]

end

/-- Settles O56: what each row does with a request that was read, a packet, a request that is ready and a point's result. -/
theorem collectivesComplete : Obligations.CollectivesComplete := by
  unfold Obligations.CollectivesComplete
  refine fun p s hp => ⟨?_, ?_, ?_, ?_, fun q r hreq => ⟨fun idx code b hcode hsent => ?_, ?_, ?_⟩⟩
  · intro s1 q x poison hread hroom r t i op hi hop
    subst hop
    have hrow : exec i s = .next (settleRead p r t (refusal p x poison t)) := (exec_collRow s hp hi).trans (congrArg _ (collRow_of_read hread hroom))
    refine ⟨?_, ?_, ?_⟩
    · rintro rfl
      exact hrow
    · rintro code rfl hcheck
      exact hrow.trans (congrArg _ (congrArg (settleRead p r t) hcheck))
    · rintro rfl hcheck
      exact hrow.trans (congrArg _ (congrArg (settleRead p r t) hcheck))
  · intro gn g k rank c hgn hgroup hform hassigned hrank hother
    have hfrom : FromMember s gn rank g := ⟨hgroup, hform, hassigned, hrank, hother⟩
    refine ⟨fun r hmine hstarted => ?_, fun r hmine hstarted => ?_, fun hmine => ⟨fun hearly => ?_, fun hlate => ?_⟩⟩
    · exact (onUnit_of_lt hgn).trans (congrArg _ (collArrival_started hfrom hmine hstarted))
    · exact (onUnit_of_lt hgn).trans (congrArg _ (collArrival_waiting hfrom hmine hstarted))
    · exact (onUnit_of_lt hgn).trans (congrArg _ ((collArrival_none hfrom hmine).trans (if_pos hearly)))
    · exact (onUnit_of_lt hgn).trans (congrArg _ ((collArrival_none hfrom hmine).trans (if_neg (Nat.not_le.mpr hlate))))
  · intro q r g hreq rank c
    exact ⟨takePacket_ack hreq, takePacket_mismatch hreq, takePacket_enter hreq, takePacket_data hreq, takeData_allToAll hreq⟩
  · intro q r g hreq
    have hrow : exec (.collectiveComplete p q) s = .next (if collReady r g then wake p (countDone p r (retireDone p r g s)) else s) :=
      (onPart_of_lt hp).trans (congrArg _ (collComplete_of_reqGroup hreq))
    exact ⟨fun hready => hrow.trans (congrArg _ (if_pos hready)), fun hwaits => hrow.trans (congrArg _ (if_neg (by simp [hwaits])))⟩
  · exact (onPart_of_lt hp).trans (congrArg _ (atomicResult_of_sent hreq hcode hsent))
  · intro idx code old hop hidx hback
    rw [takeResult_of_awaited hreq hop hidx hback]
    exact ⟨fun hcode => if_pos hcode, fun hcode hdst => (if_neg (not_not.mpr hcode)).trans (if_pos hdst),
      fun hcode hdst => (if_neg (not_not.mpr hcode)).trans (if_neg hdst)⟩
  · exact (onPart_of_lt hp).trans (congrArg _ (congrArg (sendWaiting <| wake p ·) (failReq_of_collReq hreq)))

end Sys2Proof.Machine
end

section
/-!
PROOF. A remote atomic at its owner (10 R276, 11 R306), and log mirroring at the buddy and at the source (13 R346 to R348).
-/

namespace Sys2Proof.Machine

/-! ### The owner's part (10 R276, 11 R290, R306) -/

/-- The answer to a remote atomic, on VC2 in the flow of its request. -/
def sendAtomicResult (src flow tag : Nat) (code : Code) (old : List PB) (t : State) : State :=
  sendPacket { vc := 2, dst := src, src := t.fab.ident.toNat, flow := flow, what := "atomic result", args := [tag, code],
               data := padTo 8 (pbData old), poison := if pbPoison old then [0] else [] } t

/-- What the owner answers: the refusing code, or the old value with code 0. -/
def answerAtomic (src flow tag : Nat) : State × Except Code (List PB) → State
  | (t, .error code) => sendAtomicResult src flow tag code [] t
  | (t, .ok old) => sendAtomicResult src flow tag 0 old t

section
variable {p x : Nat} {bad : Bool} {s : State}

theorem performAtomic_misaligned (hunaligned : fld x 47 0 % atomBytes (fld x 54 52) ≠ 0) : performAtomic p x bad s = (s, .error 0x2112) :=
  if_pos hunaligned

theorem performAtomic_refused {code : Code} (haligned : fld x 47 0 % atomBytes (fld x 54 52) = 0)
    (hwhere : atomWhere s p (fld x 47 0) = .error code) : performAtomic p x bad s = (s, .error code) := by
  simp only [performAtomic, haligned, ne_eq, not_true_eq_false, if_false, hwhere]

theorem performAtomic_done {d : Nat} (haligned : fld x 47 0 % atomBytes (fld x 54 52) = 0) (hwhere : atomWhere s p (fld x 47 0) = .ok d) :
    let w := atomBytes (fld x 54 52)
    let a := atomAt d (fld x 51 48) (fld x 54 52) (pbOf bad (leBytes (fld x 127 64) w)) (pbOf bad (leBytes (fld x 191 128) w)) s
    performAtomic p x bad s = (a.1, .ok a.2.1) := by
  simp only [performAtomic, haligned, ne_eq, not_true_eq_false, if_false, hwhere]

theorem atomicArrival_of_unassigned {src flow tag : Nat} (hnone : s.fab.assigned = false) : atomicArrival src flow p tag x bad s = s :=
  if_pos hnone

theorem atomicArrival_of_assigned {src flow tag : Nat} (hassigned : s.fab.assigned = true) :
    atomicArrival src flow p tag x bad s = answerAtomic src flow tag (performAtomic p x bad s) := by
  simp only [atomicArrival, hassigned, Bool.true_eq_false, if_false]
  rcases performAtomic p x bad s with ⟨t, code | old⟩ <;> rfl

/-- The row of a device that has an identity, once it is known what its owner's part answers. -/
theorem exec_remoteAtomicArrival {src flow : Nat} {ask : AtomAsk} {a : State × Except Code (List PB)} (hp : p < 16)
    (hassigned : s.fab.assigned = true) (hperformed : performAtomic p ask.record.toNat ask.poison s = a) :
    exec (.remoteAtomicArrival src flow p ask) s = .next (answerAtomic src flow ask.tag a) :=
  (onPart_of_lt hp).trans (congrArg _ ((atomicArrival_of_assigned hassigned).trans (congrArg _ hperformed)))

end

/-! ### The buddy's side (13 R346, R347) -/

section
variable {src spart n frm : Nat} {model : BitVec 64} {settings : List Byte} {toks : List Nat} {g : Grant} {s : State}

/-- The copy of one session of a source partition. -/
def isCopyOf (src spart n : Nat) (c : MirCopy) : Bool := c.src == src && c.spart == spart && c.session == n

/-- The copies but that of one session. -/
def withoutCopy (src spart n : Nat) (s : State) : State :=
  { s with fab := { s.fab with copies := s.fab.copies.filter (fun c => !isCopyOf src spart n c) } }

/-- A copy more. -/
def addCopy (c : MirCopy) (s : State) : State := { s with fab := { s.fab with copies := s.fab.copies ++ [c] } }

/-- The log that is held of a session. -/
def heldLog (src spart n : Nat) (s : State) : List Nat := ((s.fab.copies.find? (isCopyOf src spart n)).map (·.log)).getD []

/-- The chunks that the copies of a source partition take. -/
def chunksTaken (src spart : Nat) (s : State) : Nat := ((copiesOf s src spart).map (fun c => copyChunks c.log)).foldl (· + ·) 0

theorem exec_mirrorEntriesArrival {closed : Bool} (hassigned : s.fab.assigned = true) :
    exec (.mirrorEntriesArrival src spart n model settings frm toks closed) s
      = .next (mirrorArrival src spart n model settings frm toks closed s) :=
  congrArg Host.Outcome.next (if_pos hassigned)

theorem mirrorArrival_closed (hgrant : grantOf s src spart = some g) :
    mirrorArrival src spart n model settings frm toks true s = withoutCopy src spart n s := by
  simp only [mirrorArrival, hgrant, if_true]
  rfl

/-- Entries that join on to the held log are kept where the grant's pages take them. -/
theorem mirrorArrival_joined (hgrant : grantOf s src spart = some g) (hjoins : frm ≤ (heldLog src spart n s).length) :
    let log := (heldLog src spart n s).take frm ++ toks
    mirrorArrival src spart n model settings frm toks false s =
      if 32 * g.pages.length < chunksTaken src spart (withoutCopy src spart n s) + copyChunks log then
        mirrorReply "mirror full" src spart n (heldLog src spart n s).length s
      else mirrorReply "mirror ack" src spart n log.length
        (addCopy { src := src, spart := spart, session := n, model := model, settings := padTo 256 settings, log := log }
          (withoutCopy src spart n s)) := by
  intro log
  simp only [mirrorArrival, hgrant, Bool.false_eq_true, if_false]
  exact if_neg (Nat.not_lt.mpr hjoins)

end

/-! ### The source's side (13 R347, R348) -/

section
variable {p n upTo : Nat} {s : State}

/-- A session of a partition that is mirrored to a buddy, which the partition has not given up waiting for. -/
structure MirrorsTo (s : State) (p n : Nat) : Prop where
  ofPart : (getSess s n).part = p
  mirrored : (getSess s n).mirror = true
  buddy : (getPart s p).buddy ≠ none
  waits : (getPart s p).syncing = true ∨ (getPart s p).unprotected = false

theorem buddyAck_of_mirrorsTo (h : MirrorsTo s p n) :
    buddyAck p n upTo s = if (getPart s p).syncing && decide ((getSess s n).log.length ≤ upTo) then
      modSess n (fun x => { x with mirLive := true }) (ackSess n upTo s) else ackSess n upTo s := by
  obtain ⟨hpart, hmirror, hbuddy, hwaits⟩ := h
  have hacks : ¬((getSess s n).part ≠ p ∨ (getSess s n).mirror = false ∨ (getPart s p).buddy.isNone = true
      ∨ ((getPart s p).unprotected = true ∧ (getPart s p).syncing = false)) := by
    rcases hwaits with hwaits | hwaits <;> simp [hpart, hmirror, hbuddy, hwaits]
  exact if_neg hacks

theorem exec_buddyAck (hp : p < 16) (hn : n < 65536) : exec (.buddyAck p n upTo) s = .next (buddyAck p n upTo s) :=
  (onPart_of_lt hp).trans (onUnit_of_lt hn)

theorem exec_mirrorAckTimeout (hp : p < 16) :
    exec (.mirrorAckTimeout p) s = .next (if (mirrored s p).any (waitsAck s) then unprotect p s else s) := onPart_of_lt hp

theorem buddySynced_of_live (hsyncing : (getPart s p).syncing = true) (hlive : ∀ n ∈ mirrored s p, (getSess s n).mirLive = true) :
    buddySynced p s = post 0x0305 5 p (modPart p (fun x => { x with syncing := false, unprotected := false }) s) :=
  if_pos (Bool.and_eq_true_iff.mpr ⟨hsyncing, List.all_eq_true.mpr hlive⟩)

end

/-- Settles O57: the owner's part of an atomic decides its answer, and each row of mirroring past its conditions. -/
theorem remoteAtomicsAndMirroring : Obligations.RemoteAtomicsAndMirroring := by
  unfold Obligations.RemoteAtomicsAndMirroring
  refine fun s => ⟨?_, ?_, fun p n upTo hp hn hpart hmirror hbuddy => ?_, fun p hp => ⟨?_, ?_, fun hsyncing hlive => ?_⟩⟩
  · intro src flow p ask hp
    refine ⟨fun hnone => ?_, fun hassigned hunaligned => ?_, fun code hassigned haligned hwhere => ?_, fun d hassigned haligned hwhere => ?_⟩
    · exact (onPart_of_lt hp).trans (congrArg _ (atomicArrival_of_unassigned hnone))
    · exact exec_remoteAtomicArrival hp hassigned (performAtomic_misaligned hunaligned)
    · exact exec_remoteAtomicArrival hp hassigned (performAtomic_refused haligned hwhere)
    · exact exec_remoteAtomicArrival hp hassigned (performAtomic_done haligned hwhere)
  · intro src spart n model settings frm toks g hassigned hgrant
    refine ⟨?_, fun hjoins hfull => ?_, fun hjoins hroom => ?_⟩
    · exact (exec_mirrorEntriesArrival hassigned).trans (congrArg _ (mirrorArrival_closed hgrant))
    · exact (exec_mirrorEntriesArrival hassigned).trans (congrArg _ ((mirrorArrival_joined hgrant hjoins).trans (if_pos hfull)))
    · exact (exec_mirrorEntriesArrival hassigned).trans
        (congrArg _ ((mirrorArrival_joined hgrant hjoins).trans (if_neg (Nat.not_lt.mpr hroom))))
  · rw [exec_buddyAck hp hn]
    refine ⟨fun hsynced hprotected => ?_, fun hsyncing hwhole => ?_, fun hsyncing hpartial => ?_⟩
    · rw [buddyAck_of_mirrorsTo ⟨hpart, hmirror, hbuddy, .inr hprotected⟩, if_neg (by simp [hsynced])]
    · rw [buddyAck_of_mirrorsTo ⟨hpart, hmirror, hbuddy, .inl hsyncing⟩, if_pos (by simp [hsyncing, hwhole])]
    · rw [buddyAck_of_mirrorsTo ⟨hpart, hmirror, hbuddy, .inl hsyncing⟩, if_neg (by simp [hpartial])]
  · exact fun hwaits => (exec_mirrorAckTimeout hp).trans (congrArg _ (if_pos (List.any_eq_true.mpr hwaits)))
  · exact fun hidle => (exec_mirrorAckTimeout hp).trans (congrArg _ (if_neg (by simpa using hidle)))
  · exact (onPart_of_lt hp).trans (congrArg _ (buddySynced_of_live hsyncing hlive))

end Sys2Proof.Machine
end

section
/-!
PROOF. Packets and their ports (11 R290 to R295): the port that a packet takes, the credit that it uses, and what becomes of a packet that no
path takes; then the watched peers.
-/

namespace Sys2Proof.Machine

/-! ### Ports read after they changed -/

@[simp] theorem getPort_modPort_same (p : Nat) (f : Port → Port) (s : State) : getPort (modPort p f s) p = f (getPort s p) :=
  spGet_spMod_same _ _ _ _

theorem getPort_modPort_other (p k : Nat) (f : Port → Port) (s : State) (h : k ≠ p) : getPort (modPort p f s) k = getPort s k :=
  spGet_spMod_other _ _ _ _ _ h

@[simp] theorem modPort_ftime (p : Nat) (f : Port → Port) (s : State) : (modPort p f s).ftime = s.ftime := rfl

@[simp] theorem modPort_fab_stratum (p : Nat) (f : Port → Port) (s : State) : (modPort p f s).fab.stratum = s.fab.stratum := rfl

/-- A Junction port that exists lets its row run. -/
theorem onPort_of_lt {p : Nat} {k : Host.Outcome State Fault Refusal} (h : p < 18) : onPort p k = k := onUnit_of_lt h

theorem upPorts_ascending (s : State) (dst : Nat) : (upPorts s dst).Pairwise (· < ·) :=
  (List.pairwise_lt_range.filter _).filter _

theorem upPorts_of_reachable {s : State} {dst : Nat} (h : reachable s dst = true) : upPorts s dst ≠ [] := by
  simp only [reachable, Bool.and_eq_true, Bool.not_eq_true', List.isEmpty_eq_false_iff] at h
  exact h.2

/-! ### The credit of a port on a channel (R283, R294) -/

/-- Changing the free credit of port p on channel vc. -/
def modCredit (p vc : Nat) (f : Nat → Nat) (s : State) : State := modPort p (fun x => { x with credit := spMod 0 x.credit vc f }) s

theorem creditOf_modCredit_same (p vc : Nat) (f : Nat → Nat) (s : State) : creditOf (modCredit p vc f s) vc p = f (creditOf s vc p) := by
  simp [creditOf, modCredit]

theorem creditOf_modCredit_other {p r : Nat} (vc : Nat) (f : Nat → Nat) (s : State) (h : r ≠ p) :
    creditOf (modCredit p vc f s) vc r = creditOf s vc r := by
  rw [creditOf, modCredit, getPort_modPort_other _ _ _ _ h, creditOf]

/-- Two states that differ at most in the free values drawn and in the credits of ports. -/
structure CreditsOnly (s t : State) : Prop where
  rest : { t with free := s.free, fab := { t.fab with ports := s.fab.ports } } = s
  port : ∀ r, { getPort t r with credit := (getPort s r).credit } = getPort s r

theorem CreditsOnly.refl (s : State) : CreditsOnly s s := ⟨rfl, fun _ => rfl⟩

theorem CreditsOnly.trans {s t u : State} (h : CreditsOnly s t) (k : CreditsOnly t u) : CreditsOnly s u := by
  refine ⟨?_, fun r => ?_⟩
  · rw [← h.rest, ← k.rest]
  · rw [← h.port r, ← k.port r]

theorem CreditsOnly.draw (s : State) : CreditsOnly s { s with free := s.free + 1 } := ⟨rfl, fun _ => rfl⟩

theorem modCredit_creditsOnly (p vc : Nat) (f : Nat → Nat) (s : State) : CreditsOnly s (modCredit p vc f s) := by
  refine ⟨rfl, fun r => ?_⟩
  by_cases h : r = p
  · rw [h, modCredit, getPort_modPort_same]
  · rw [modCredit, getPort_modPort_other _ _ _ _ h]

theorem takeCredits_cons (vc need p : Nat) (l : List Nat) (s : State) :
    takeCredits vc need (p :: l) s = takeCredits vc need l
      (modCredit p vc (fun n => n + need + (Config.freeWord s.free).toNat) { s with free := s.free + 1 }) := rfl

theorem takeCredits_creditsOnly (vc need : Nat) (l : List Nat) (s : State) : CreditsOnly s (takeCredits vc need l s) := by
  induction l generalizing s with
  | nil => exact .refl s
  | cons p l ih =>
    rw [takeCredits_cons]
    exact ((CreditsOnly.draw s).trans (modCredit_creditsOnly ..)).trans (ih _)

theorem creditOf_le_takeCredits (vc need r : Nat) (l : List Nat) (s : State) : creditOf s vc r ≤ creditOf (takeCredits vc need l s) vc r := by
  induction l generalizing s with
  | nil => exact Nat.le_refl _
  | cons p l ih =>
    rw [takeCredits_cons]
    refine Nat.le_trans ?_ (ih _)
    by_cases h : r = p
    · rw [h, creditOf_modCredit_same, Nat.add_assoc]
      exact Nat.le_add_right _ _
    · rw [creditOf_modCredit_other _ _ _ h]
      exact Nat.le_refl _

/-- Every port asked has what the packet needs. -/
theorem need_le_takeCredits {vc need r : Nat} {l : List Nat} (h : r ∈ l) (s : State) : need ≤ creditOf (takeCredits vc need l s) vc r := by
  induction l generalizing s with
  | nil => cases h
  | cons p l ih =>
    rw [takeCredits_cons]
    rcases List.mem_cons.mp h with rfl | h
    · refine Nat.le_trans ?_ (creditOf_le_takeCredits ..)
      rw [creditOf_modCredit_same]
      omega
    · exact ih h _

/-! ### The port that a packet takes (R294) -/

/-- Element o of a list holds the greatest value, and it is below every other one that does. -/
structure LowestMax (c : Nat → Nat) (l : List Nat) (o : Nat) : Prop where
  mem : o ∈ l
  most : ∀ r ∈ l, r ≠ o → c r ≤ c o ∧ (c r = c o → o < r)

/-- Going through an ascending list and moving on for a greater value alone ends there. -/
theorem foldl_lowestMax (c : Nat → Nat) {l : List Nat} {a : Nat} (hasc : (a :: l).Pairwise (· < ·)) :
    LowestMax c (a :: l) (l.foldl (fun b p => if c b < c p then p else b) a) := by
  induction l generalizing a with
  | nil => exact ⟨List.mem_cons_self, fun r hr hne => absurd (List.mem_singleton.mp hr) hne⟩
  | cons p l ih =>
    obtain ⟨hal, hpl⟩ := List.pairwise_cons.mp hasc
    have hap : a < p := hal p List.mem_cons_self
    rw [List.foldl_cons]
    split
    · next hlt =>
      obtain ⟨hmem, hmost⟩ := ih hpl
      refine ⟨List.mem_cons_of_mem _ hmem, fun r hr hne => ?_⟩
      rcases List.mem_cons.mp hr with rfl | hr
      · have hp := hmost p List.mem_cons_self
        grind
      · exact hmost r hr hne
    · next hge =>
      obtain ⟨hmem, hmost⟩ := ih (List.pairwise_cons.mpr ⟨fun r hr => hal r (List.mem_cons_of_mem _ hr), (List.pairwise_cons.mp hpl).2⟩)
      refine ⟨?_, fun r hr hne => ?_⟩
      · exact (List.cons_subset_cons a (List.subset_cons_self p l)) hmem
      · have ha := hmost a List.mem_cons_self
        grind

theorem mostCredit_lowestMax (s : State) (vc : Nat) {l : List Nat} (hl : l ≠ []) (hasc : l.Pairwise (· < ·)) :
    ∃ o, mostCredit s vc l = some o ∧ LowestMax (creditOf s vc) l o := by
  cases l with
  | nil => exact absurd rfl hl
  | cons a l => exact ⟨_, rfl, foldl_lowestMax _ hasc⟩

theorem pickAt_mem {l : List Nat} (h : Nat) (hl : l ≠ []) : ∃ p ∈ l, pickAt l h = some p := by
  match l with
  | [] => exact absurd rfl hl
  | [a] => exact ⟨a, List.mem_singleton_self a, rfl⟩
  | a :: b :: t =>
    have hlt : h % (a :: b :: t).length < (a :: b :: t).length := Nat.mod_lt _ (Nat.succ_pos _)
    exact ⟨_, List.getElem_mem hlt, List.getElem?_eq_getElem hlt⟩

/-! ### Packets by the routing table (R290, R294, R295) -/

section
variable {k : Packet} {s : State}

theorem orderedPort_of_reachable {dst : Nat} (flow : Nat) (h : reachable s dst = true) :
    ∃ p ∈ upPorts s dst, orderedPort s dst flow = some p := pickAt_mem _ (upPorts_of_reachable h)

theorem route_of_unreachable (h : reachable s k.dst = false) : route k s = none := by
  simp [route, h]

theorem route_ordered {o : Nat} (hreach : reachable s k.dst = true) (horder : inOrder k = true) (hport : orderedPort s k.dst k.flow = some o) :
    route k s = some (emit (.packet (some o) k) (sendSlots o (slotsOf k) s)) := by
  simp [route, hreach, choosePort, horder, hport]

/-- A packet without an order uses the credit that it needs of a port with the most of it. -/
theorem route_unordered (hreach : reachable s k.dst = true) (horder : inOrder k = false) :
    ∃ o, LowestMax (creditOf (takeCredits k.vc (slotsOf k).length (upPorts s k.dst) s) k.vc) (upPorts s k.dst) o
      ∧ route k s = some (emit (.packet (some o) k) (sendSlots o (slotsOf k)
          (modCredit o k.vc (· - (slotsOf k).length) (takeCredits k.vc (slotsOf k).length (upPorts s k.dst) s)))) := by
  obtain ⟨o, hmost, hmax⟩ := mostCredit_lowestMax (takeCredits k.vc (slotsOf k).length (upPorts s k.dst) s) k.vc
    (upPorts_of_reachable hreach) (upPorts_ascending s k.dst)
  refine ⟨o, hmax, ?_⟩
  simp [route, hreach, choosePort, horder, hmost, modCredit]

/-- A packet of this device for another one. -/
theorem sendPacket_of_other (hother : s.fab.assigned = true → k.dst ≠ s.fab.ident.toNat) : sendPacket k s = (route k s).getD s :=
  if_neg (by simpa using hother)

theorem slotsOf_of_headerOnly (h : k.data = []) : slotsOf k = [.head k] := by
  have hhead : { k with data := [] } = k := by rw [← h]
  rw [slotsOf, hhead, h]
  rfl

/-- A packet on VC0 without data. -/
def noticePacket (s : State) (what : String) (dst : Nat) (args : List Nat) : Packet :=
  { vc := 0, dst := dst, src := s.fab.ident.toNat, flow := labelOf what dst, what := what, args := args }

theorem sendNotice_eq (what : String) (dst : Nat) (args : List Nat) (s : State) :
    sendNotice what dst args s = sendPacket (noticePacket s what dst args) s := rfl

/-- A packet of another device, for another device. -/
theorem packetForward_of_transit {p : Nat} (hup : portUp (getPort s p) = true) (hassigned : s.fab.assigned = true)
    (hother : k.dst ≠ s.fab.ident.toNat) : packetForward p k s =
      (route k s).getD (sendPacket { vc := 2, dst := k.src, src := s.fab.ident.toNat, flow := k.flow, what := "nack", args := k.args } s) :=
  if_neg (by simp [hup, hassigned, hother])

end

/-! ### The watched peers (R291) -/

theorem peerDead_of_watched {s : State} {d : Nat} {x : Peer} (h : s.fab.peers.find? (fun x => x.ident == d && !x.dead) = some x) :
    peerDead d s = loseDevice d (deadNotices ((sharedGroups (timeTo (x.last + 6400000) s) d).flatMap (fun e => e.2.members.map (·.1))) d
      (post 0x3140 0 0 (timeTo (x.last + 6400000) s))) := by
  simp only [peerDead, h, deadNs]

/-- Settles O54: a packet takes the port that `route` finds, in order or by credit; the rows of the peers past their conditions. -/
theorem peersAndForwarding : Obligations.PeersAndForwarding := by
  unfold Obligations.PeersAndForwarding
  refine fun s => ⟨rfl, fun what d args hother => ?_, fun _ => rfl, fun d x hwatched => ?_, fun _ _ => rfl, fun _ => rfl, fun _ _ => rfl, ?_⟩
  · have hsend : sendNotice what d args s = (route (noticePacket s what d args) s).getD s := sendPacket_of_other hother
    refine ⟨fun hlost => ?_, fun hreach => ?_⟩
    · rw [hsend, route_of_unreachable (k := noticePacket s what d args) hlost, Option.getD_none]
    · obtain ⟨p, hp, hport⟩ := orderedPort_of_reachable (noticePacket s what d args).flow hreach
      refine ⟨p, hp, hport, ?_⟩
      rw [hsend, route_ordered (k := noticePacket s what d args) hreach rfl hport, slotsOf_of_headerOnly rfl, Option.getD_some]
      rfl
  · exact congrArg Host.Outcome.next (peerDead_of_watched hwatched)
  · intro p k hp hvc hup hassigned hother ups goes
    have hrow : exec (.packetForward { port := p, packet := k }) s = .next ((route k s).getD (sendPacket
        { vc := 2, dst := k.src, src := s.fab.ident.toNat, flow := k.flow, what := "nack", args := k.args } s)) :=
      (onPort_of_lt hp).trans ((onUnit_of_lt hvc).trans (congrArg _ (packetForward_of_transit hup hassigned hother)))
    refine ⟨fun hlost => ?_, fun hreach horder => ?_, fun hreach horder => ?_⟩
    · exact hrow.trans (by rw [route_of_unreachable hlost, Option.getD_none])
    · obtain ⟨o, ho, hport⟩ := orderedPort_of_reachable k.flow hreach
      exact ⟨o, ho, hport, hrow.trans (by rw [route_ordered hreach horder hport, Option.getD_some])⟩
    · obtain ⟨o, ⟨ho, hmost⟩, hroute⟩ := route_unordered hreach horder
      have honly := (takeCredits_creditsOnly k.vc (slotsOf k).length (upPorts s k.dst) s).trans
        (modCredit_creditsOnly o k.vc (· - (slotsOf k).length) _)
      have hneed := need_le_takeCredits (vc := k.vc) (need := (slotsOf k).length) ho s
      refine ⟨o, _, ho, hrow.trans (by rw [hroute, Option.getD_some]), honly.rest, honly.port, fun r hr hne => ?_⟩
      rw [creditOf_modCredit_same, creditOf_modCredit_other _ _ _ hne, Nat.sub_add_cancel hneed]
      exact hmost r hr hne

end Sys2Proof.Machine
end

section
/-!
PROOF. Junction ports (11 R284 to R289): what each row does to a port past its conditions.
-/

namespace Sys2Proof.Machine

section
variable {p : Nat} {s : State}

/-! ### Training (R286, R287, R290) -/

/-- An enabled port that is neither Up nor training looks for a signal. -/
theorem portSignalDetect_of_idle (lanes : BitVec 8) (hlive : portLive s p = true) (hup : portUp (getPort s p) = false)
    (hst : (getPort s p).st ≠ .training) : portSignalDetect p lanes s =
      let t := modPort p (fun x => { x with bufWritten := true }) s
      if 4 ≤ laneCount lanes then modPort p (fun x => { x with st := .training, good := lanes }) t
      else leaveUp p .down (modPort p (fun x => { x with good := lanes }) t) :=
  if_neg (by simp [hlive, hup, hst])

theorem trainFailed_of_training {step : Nat} (hst : (getPort s p).st = .training) (hlow : 2 ≤ step) (hhigh : step ≤ 6) :
    trainFailed p step s = jnSet p (post 0x3101 4 p (leaveUp p .down s)) := if_pos ⟨hst, hlow, hhigh⟩

theorem widthOf_eq_down_iff (good : BitVec 8) : widthOf good = .down ↔ laneCount good < 4 := by
  grind [widthOf]

theorem widthOf_of_four {good : BitVec 8} (h : 4 ≤ laneCount good) :
    widthOf good = if laneCount good = 8 then .up8 else if 6 ≤ laneCount good then .up6 else .up4 := by
  simp only [widthOf, h, if_true]

/-- The exchange of records: this device's own goes out on four lanes or more, and what was learned is noted. -/
def exchanged (p : Nat) (good : BitVec 8) (rec : BitVec 256) (s : State) : State :=
  modPort p (fun x => { x with good := good, partner := rec })
    (if laneCount good < 4 then s else sendLink p "neighbour record" (leBytes (ownRecord s p) 32) s)

/-- The highest level that both ends support (R297). -/
def sharedLevel (rec : BitVec 256) (s : State) : Nat := topLevel (ownLevels s &&& fld rec.toNat 47 32)

/-- A training that fails once the records are exchanged. -/
def arrivalFails (p : Nat) (code : Code) (st : PortState) (t : State) : State := jnSet p (post code 4 p (leaveUp p st t))

/-- The end of a training, by its checks in their order: lanes, identity, level. -/
theorem neighbourArrived_of_training (good : BitVec 8) (rec : BitVec 256) (hst : (getPort s p).st = .training) (hlive : portLive s p = true) :
    neighbourArrived p good rec s =
      if laneCount good < 4 then arrivalFails p 0x3101 .down (exchanged p good rec s)
      else if ownClaimed s rec then arrivalFails p 0x3103 .conflict (exchanged p good rec s)
      else if sharedLevel rec s = 0 then arrivalFails p 0x3102 .incompatible (exchanged p good rec s)
      else portEvent 0x0301 p rec (modPort p (fun x => { x with st := widthOf good, level := sharedLevel rec s }) (exchanged p good rec s)) := by
  refine (if_neg (by simp [hst, hlive])).trans ?_
  simp only [widthOf_eq_down_iff]
  rfl

/-! ### Lanes (R289) -/

theorem laneBad_of_good {lane : Nat} (hup : portUp (getPort s p) = true) (hgood : (getPort s p).good.getLsbD lane = true) :
    laneBad p lane s = restripe p ((getPort s p).good &&& ~~~bitOf 8 lane) s := if_pos (by simp [hup, hgood])

theorem laneRetrain_of_narrow (pass : BitVec 8) (hup : portUp (getPort s p) = true) (hst : (getPort s p).st ≠ .up8) :
    laneRetrain p pass s = if widthOf ((getPort s p).good ||| pass) = (getPort s p).st then
        modPort p (fun y => { y with good := (getPort s p).good ||| pass }) s
      else restripe p ((getPort s p).good ||| pass) s :=
  if_neg (by simp [hup, hst])

/-! ### Replays (R284) -/

/-- How often in a row the codeword of this number has been asked for. -/
def replayCount (x : Port) (seq : Nat) : Nat := if x.sameReplay ≠ 0 ∧ x.lastSeq = seq then x.sameReplay + 1 else 1

/-- What the port holds from a number on is sent again, and k replays in a row are noted. -/
def resend (p seq k : Nat) (s : State) : State :=
  (heldFrom (getPort s p) seq).foldl (fun t c => emit (.codeword p c) t)
    (modPort p (fun x => { x with replays := x.replays + (heldFrom (getPort s p) seq).length, lastSeq := seq, sameReplay := k }) s)

theorem codewordReplay_eq (seq : Nat) (bad : BitVec 8) : codewordReplay p seq bad s =
    if replayCount (getPort s p) seq = 64 then
      if (getPort s p).good &&& bad ≠ 0 then restripe p ((getPort s p).good &&& ~~~bad) (resend p seq 0 s) else resend p seq 0 s
    else resend p seq (replayCount (getPort s p) seq) s := by
  have hshape : codewordReplay p seq bad s =
      if replayCount (getPort s p) seq = 64 ∧ (getPort s p).good &&& bad ≠ 0 then
        restripe p ((getPort s p).good &&& ~~~bad)
          (resend p seq (if replayCount (getPort s p) seq = 64 then 0 else replayCount (getPort s p) seq) s)
      else resend p seq (if replayCount (getPort s p) seq = 64 then 0 else replayCount (getPort s p) seq) s := rfl
  rw [hshape]
  by_cases h : replayCount (getPort s p) seq = 64 <;> simp [h]

theorem exec_codewordReplay_partner (seq : Nat) (bad : BitVec 8) (hp : p < 18) (hup : portUp (getPort s p) = true) :
    exec (.codewordReplay p seq (.partner bad)) s = .next (codewordReplay p seq bad s) :=
  (onPort_of_lt hp).trans (congrArg Host.Outcome.next (if_neg (by simp [hup])))

theorem exec_codewordReplay_own (seq : Nat) (hp : p < 18) (hup : portUp (getPort s p) = true) :
    exec (.codewordReplay p seq .own) s = .next (sendLink p "replay request" (leBytes seq 8) s) :=
  (onPort_of_lt hp).trans (congrArg Host.Outcome.next (if_neg (by simp [hup])))

end

/-- Settles O53: each row of a port past its conditions. -/
theorem junctionPorts : Obligations.JunctionPorts := by
  unfold Obligations.JunctionPorts
  intro p s hp x
  refine ⟨?_, fun step hlow hhigh hst => ?_, ?_, fun lane hlane hup hgood => ?_, fun pass hup hst => ?_, ?_, fun hkeeps => ?_⟩
  · intro lanes hlive hup hst t
    have hrow : exec (.portSignalDetect p lanes) s = .next (portSignalDetect p lanes s) := onPort_of_lt hp
    rw [hrow, portSignalDetect_of_idle lanes hlive hup hst]
    exact ⟨fun hlanes => congrArg _ (if_pos hlanes), fun hfew => congrArg _ (if_neg (Nat.not_le.mpr hfew))⟩
  · exact (onPort_of_lt hp).trans (congrArg Host.Outcome.next (trainFailed_of_training hst hlow hhigh))
  · intro good rec hst hlive n own t lv fails
    have hrow : exec (.neighbourArrived p good rec) s = .next (neighbourArrived p good rec s) := onPort_of_lt hp
    rw [neighbourArrived_of_training good rec hst hlive] at hrow
    refine ⟨fun hfew => hrow.trans (congrArg _ (if_pos hfew)), fun hlanes hown => hrow.trans (congrArg _ ?_),
      fun hlanes hown hlevel => hrow.trans (congrArg _ ?_), fun hlanes hown hlevel => hrow.trans (congrArg _ ?_)⟩
    · exact (if_neg (Nat.not_lt.mpr hlanes)).trans (if_pos hown)
    · exact (if_neg (Nat.not_lt.mpr hlanes)).trans ((if_neg (by simp [hown])).trans (if_pos hlevel))
    · refine (if_neg (Nat.not_lt.mpr hlanes)).trans ((if_neg (by simp [hown])).trans ((if_neg hlevel).trans ?_))
      rw [widthOf_of_four hlanes]
      rfl
  · exact (onPort_of_lt hp).trans ((onUnit_of_lt hlane).trans (congrArg Host.Outcome.next (laneBad_of_good hup hgood)))
  · have hrow : exec (.laneRetrain p pass) s = .next (laneRetrain p pass s) := onPort_of_lt hp
    rw [hrow, laneRetrain_of_narrow pass hup hst]
    exact ⟨fun hwidth => congrArg _ (if_pos hwidth), fun hwidth => congrArg _ (if_neg hwidth)⟩
  · intro seq bad hup again n sent
    rw [exec_codewordReplay_partner seq bad hp hup, codewordReplay_eq]
    exact ⟨fun hn => congrArg _ (if_neg hn), fun hn hbad => congrArg _ ((if_pos hn).trans (if_pos hbad)),
      fun hn hbad => congrArg _ ((if_pos hn).trans (if_neg (not_not.mpr hbad))), exec_codewordReplay_own seq hp hup⟩
  · refine (onPort_of_lt hp).trans (congrArg Host.Outcome.next (if_pos ?_))
    rcases hkeeps with h | h
    · exact Bool.or_eq_true_iff.mpr (.inl h)
    · exact Bool.or_eq_true_iff.mpr (.inr (beq_iff_eq.mpr h))

end Sys2Proof.Machine
end

section
/-!
PROOF. The FAB commands (11 R290, R293, R299, R300, R311, 13 R346, R348, 14 R385): each handler's reply past its checks.
-/

namespace Sys2Proof.Machine

/-- A command that is refused and discards what was received for it. -/
theorem mail_of_cut {c : Cmd} {h : Req → State → Reply} {sub : Submission} {s t u : State} {q : Req} {k : Code} (hs : Served c sub s q t)
    (hr : h q t = .cut u k) : mail c h sub s = .next (respond q k [] u) := by
  rw [mail_of_served hs, hr, replied]

section
variable {q : Req} {s : State}

/-! ### Identity, routes, time, ports -/

/-- The entries that a ROUTE writes, each with its destination. -/
def routeEntries (q : Req) : List (Nat × Nat) := (List.range (q.f 4 2)).map (fun i => (q.f 0 4 + i, q.f (8 + 4 * i) 4))

/-- Past its ranges, a ROUTE is refused for an entry that R293 refuses. -/
theorem routeH_eq (hlow : 1 ≤ q.f 4 2) (hhigh : q.f 4 2 ≤ 1016) (hfits : q.f 0 4 + q.f 4 2 ≤ 65536) :
    routeH q s = checked [((routeEntries q).any (fun e => routeBad s e.1 e.2), 0x3111)] (.ok (lostPaths { s with fab := { s.fab with
      routes := (routeEntries q).foldl (fun m e => spSet 0 m e.1 (BitVec.ofNat 32 e.2)) s.fab.routes } }) []) :=
  checked_pass (decide_eq_false (by omega))

theorem routeH_ok (hlow : 1 ≤ q.f 4 2) (hhigh : q.f 4 2 ≤ 1016) (hfits : q.f 0 4 + q.f 4 2 ≤ 65536)
    (hgood : ∀ e ∈ routeEntries q, routeBad s e.1 e.2 = false) :
    routeH q s = .ok (lostPaths { s with fab := { s.fab with
      routes := (routeEntries q).foldl (fun m e => spSet 0 m e.1 (BitVec.ofNat 32 e.2)) s.fab.routes } }) [] :=
  (routeH_eq hlow hhigh hfits).trans (checked_pass (List.any_eq_false.mpr fun e he => by simp [hgood e he]))

theorem routeH_no (hlow : 1 ≤ q.f 4 2) (hhigh : q.f 4 2 ≤ 1016) (hfits : q.f 0 4 + q.f 4 2 ≤ 65536)
    (hbad : ∃ e ∈ routeEntries q, routeBad s e.1 e.2 = true) : routeH q s = .no 0x3111 :=
  (routeH_eq hlow hhigh hfits).trans (checked_fail (List.any_eq_true.mpr hbad))

theorem fabTimeH_role (hrole : q.f 0 1 ≤ 2) (hset : q.f 1 1 = 0) : fabTimeH q s = .ok (takeRole (q.f 0 1) s) [] := by
  rw [fabTimeH, checked_pass (decide_eq_false (by omega)), checked_pass (by simp [hset]), checked_nil, if_neg (by omega)]

/-- A TIME that sets the value asks for a device that is Unsynced and was never set. -/
theorem fabTimeH_set (hrole : q.f 0 1 ≤ 2) (hset : q.f 1 1 = 1) : fabTimeH q s = checked [(s.fab.timeState != 0 || s.fab.timeSet, 0x5131)]
    (.ok (takeRole (q.f 0 1) { s with ftime := q.f 8 8, fab := { s.fab with timeSet := true } }) []) := by
  rw [fabTimeH, checked_pass (decide_eq_false (by omega)), if_pos hset, hset, BEq.rfl, Bool.true_and]

/-- Past its checks, PORT enables or disables the port that it names. -/
theorem fabPortH_eq (hp : q.f 0 1 < 18) (hon : q.f 1 1 ≤ 1) (hpresent : unitPresent s.units.port (q.f 0 1) = true) :
    let set := modPort (q.f 0 1) (fun x => { x with enabled := q.f 1 1 == 1 }) s
    fabPortH q s = .ok (if q.f 1 1 = 0 then
        leaveUp (q.f 0 1) .disabled (if portUp (getPort s (q.f 0 1)) then departNotices set else set)
      else if (getPort s (q.f 0 1)).st = .disabled ∧ unitOn s s.units.port (q.f 0 1) = true then leaveUp (q.f 0 1) .down set else set) [] := by
  intro set
  rw [fabPortH, checked_pass (decide_eq_false (by omega)), checked_pass (by simp [hpresent]), checked_nil]

/-! ### Buddies and mirror regions -/

theorem buddyH_ok (hp : q.f 0 1 < 16) (hst : (getPart s (q.f 0 1)).st ≠ .absent) (hop : q.f 1 1 ≤ 1) :
    let b := if q.f 1 1 = 1 then some (q.f 2 2) else none
    (b = none ∨ (watchedSoon (modPart (q.f 0 1) (fun x => { x with buddy := b }) s)).length ≤ 4096) →
    buddyH q s = .ok (setBuddy (q.f 0 1) b s) [] := by
  intro b hroom
  have hwatch : (b.isSome && decide (4096 < (watchedSoon (modPart (q.f 0 1) (fun x => { x with buddy := b }) s)).length)) = false := by
    rcases hroom with h | h <;> simp [h]
  rw [buddyH, checked_append (partChecks_existing hp hst), checked_pass (decide_eq_false (by omega)), checked_pass hwatch, checked_nil]

/-- Free Spread pages that go to the reserve for a source partition. -/
def grantPages (src spart : Nat) (pages : List Nat) (s : State) : State :=
  let u := pages.foldl (fun u g => setOwner g .reserve u) s
  { u with mem := { u.mem with grants := u.mem.grants ++ [{ src := src, spart := spart, pages := pages }] } }

theorem grantH_take (hsp : q.f 4 1 < 16) (hop : q.f 0 1 = 0) (hlow : 1 ≤ q.f 8 4) (hhigh : q.f 8 4 ≤ 32768)
    (hnew : grantOf s (q.f 2 2) (q.f 4 1) = none) (hroom : s.mem.grants.length < 64) (hpages : q.f 8 4 ≤ (freeSpread s).length) :
    grantH q s = .ok (grantPages (q.f 2 2) (q.f 4 1) ((freeSpread s).take (q.f 8 4)) s) [] := by
  have htaken : ((freeSpread s).take (q.f 8 4)).length = q.f 8 4 := List.length_take_of_le hpages
  simp only [grantH]
  rw [if_pos hop, checked_pass (decide_eq_false (by omega)), checked_pass (by simp [hnew]), checked_pass (decide_eq_false (by omega)), checked_nil]
  rfl

/-- A region ends: its pages come back and the copies held in it are gone. -/
def ungrant (src spart : Nat) (pages : List Nat) (s : State) : State :=
  let v := returnPages pages { s with mem := { s.mem with grants := s.mem.grants.filter (fun g => !(g.src == src && g.spart == spart)) } }
  { v with fab := { v.fab with copies := v.fab.copies.filter (fun c => !(c.src == src && c.spart == spart)) } }

theorem grantH_release {g : Grant} (hsp : q.f 4 1 < 16) (hop : q.f 0 1 = 1) (hgrant : grantOf s (q.f 2 2) (q.f 4 1) = some g) :
    grantH q s = .ok (ungrant (q.f 2 2) (q.f 4 1) g.pages s) [] := by
  simp only [grantH]
  rw [if_neg (by omega), checked_pass (decide_eq_false (by omega)), checked_pass (by simp [hgrant]), checked_nil, hgrant]
  rfl

/-! ### Groups (R299, R300) -/

theorem groupFormCmd_refused (h : formRefused q s = true) : groupFormCmd q s = .cut (dropList q s) 0x3121 := if_pos h

theorem groupFormCmd_of_accepted (h : formRefused q s = false) (hst : (getPart s (q.f 2 1)).st ≠ .absent) :
    let x := listSoFar q s
    let l := x.members ++ partMembers q
    groupFormCmd q s = if l.length < x.total then .ok (putGroup (q.f 0 2) { x with members := l } s) []
      else if 4096 < (watchedSoon (putGroup (q.f 0 2) (newGroup s x l) s)).length then
        .cut (dropGroup (q.f 0 2) (tellMembers (newGroup s x l) true s)) 0x3124
      else .op (tellMembers (newGroup s x l) false (putGroup (q.f 0 2) (newGroup s x l) s)) none [] :=
  (if_neg (by simp [h])).trans (if_neg hst)

theorem newGroup_of_ownRank {x : Group} {l : List (Nat × Nat)} {r : Nat} (h : ownRank s x.part l = some r) :
    newGroup s x l = { x with
      members := l, complete := true, rank := r, level := topLevel (ownLevels s), answered := [r], dueAt := s.ftime + 1000000 * x.timeout,
      op := s.sb.opNext } := by
  rw [newGroup, h, Option.getD_some]

theorem groupReleaseH_eq {x : Group} (h : groupOf s (q.f 0 2) = some x) :
    groupReleaseH q s = checked [(x.st == .forming && x.complete, 0x5131)]
      (.ok (syncPeers (dropGroup (q.f 0 2) (breakGroup (q.f 0 2) 0x3130 s))) []) := by
  simp only [groupReleaseH, h]

/-! ### Status and events -/

theorem fabStatusH_ports (hwhat : q.f 0 1 = 0) : fabStatusH q s = .ok s ((List.range 18).flatMap (portStatus s)) := by
  simp only [fabStatusH, hwhat]

theorem fabStatusH_group {x : Group} (hwhat : q.f 0 1 = 1) (hgroup : groupOf s (q.f 2 2) = some x) :
    fabStatusH q s = .ok s (leBytes x.st.code 1 ++ leBytes x.level 1 ++ leBytes x.rank 4 ++ leBytes x.total 4) := by
  simp only [fabStatusH, hwhat, hgroup]

theorem fabStatusH_time (hwhat : q.f 0 1 = 2) :
    fabStatusH q s = .ok s (leBytes s.fab.timeState 1 ++ leBytes s.fab.stratum 1 ++ leBytes s.fab.masterId 2) := by
  simp only [fabStatusH, hwhat]

/-- The kept records of a master's queue from a number on. -/
theorem eventsH_ok (keep : EvRec → Bool) (hlow : 1 ≤ q.f 8 1) (hhigh : q.f 8 1 ≤ 63) :
    let l := (getBox s q.master).events.filter keep
    let oldest := (l.head?.map (·.evtSeq)).getD ((getBox s q.master).evtSeq + 1)
    let out := (l.filter (fun e => decide (q.f 0 8 ≤ e.evtSeq))).take (q.f 8 1)
    eventsH keep q s = .ok s (leBytes oldest 8 ++ [BitVec.ofNat 8 out.length, BitVec.ofNat 8 (b2n (decide (q.f 0 8 < oldest)))]
      ++ List.replicate 6 0 ++ out.flatMap (fun e => leBytes e.toNat 64)) :=
  checked_pass (decide_eq_false (by omega))

end

/-- Settles O49: each command's reply past its checks. -/
theorem fabricCommands : Obligations.FabricCommands := by
  unfold Obligations.FabricCommands
  intro sub s q t ok
  refine ⟨fun hs => mail_of_ok hs rfl, fun hs hlow hhigh hfits => ?_, fun hs hrole => ?_, fun hs => ?_⟩
  · exact ⟨fun hgood => mail_of_ok hs (routeH_ok hlow hhigh hfits hgood), fun hbad => mail_of_no hs (routeH_no hlow hhigh hfits hbad)⟩
  · refine ⟨fun hset => mail_of_ok hs (fabTimeH_role hrole hset), fun hset hsync hnew => mail_of_ok hs ?_, fun hset hold => mail_of_no hs ?_⟩
    · exact (fabTimeH_set hrole hset).trans (checked_pass (by simp [hsync, hnew]))
    · exact (fabTimeH_set hrole hset).trans (checked_fail (by simpa using hold))
  · intro p set hp hpresent
    refine ⟨fun hoff => ?_, fun hon hst hpower => ?_, fun hon hkeep => ?_⟩
    · refine mail_of_ok hs ((fabPortH_eq hp (by omega) hpresent).trans ?_)
      rw [if_pos hoff, hoff]
      rfl
    · refine mail_of_ok hs ((fabPortH_eq hp (by omega) hpresent).trans ?_)
      rw [if_neg (by omega), if_pos ⟨hst, hpower⟩, hon]
      rfl
    · have hstays : ¬((getPort t p).st = .disabled ∧ unitOn t t.units.port p = true) := fun ⟨hst, hpower⟩ =>
        hkeep.elim (absurd hst) fun h => Bool.noConfusion (h.symm.trans hpower)
      refine mail_of_ok hs ((fabPortH_eq hp (by omega) hpresent).trans ?_)
      rw [if_neg (by omega), if_neg hstays, hon]
      rfl

/-- Settles O50: each command's reply past its checks; a list that is whole starts its formation, or is refused for the watched set. -/
theorem buddyAndGroupCommands : Obligations.BuddyAndGroupCommands := by
  unfold Obligations.BuddyAndGroupCommands
  intro sub s q t ok
  refine ⟨?_, fun hs => ?_, fun hs => ?_, fun hs x hx => ?_, fun hs => ?_, fun hs hlow hhigh => mail_of_ok hs (eventsH_ok fabRecord hlow hhigh)⟩
  · intro hs p b hp hst hop hroom
    exact mail_of_ok hs (buddyH_ok hp hst hop hroom)
  · intro src sp n hsp
    refine ⟨?_, fun g hop hgrant => mail_of_ok hs (grantH_release hsp hop hgrant)⟩
    intro hop hlow hhigh hnew hroom hpages
    exact mail_of_ok hs (grantH_take hsp hop hlow hhigh hnew hroom hpages)
  · intro x l
    refine ⟨fun hrefused => mail_of_cut hs (groupFormCmd_refused hrefused), fun haccepted hst hpart => mail_of_ok hs ?_, ?_⟩
    · exact (groupFormCmd_of_accepted haccepted hst).trans (if_pos hpart)
    · intro r haccepted hst hwhole hrank hroom y
      have hy : newGroup t x l = y := newGroup_of_ownRank hrank
      have hform : groupFormCmd q t = if 4096 < (watchedSoon (putGroup (q.f 0 2) y t)).length then
          .cut (dropGroup (q.f 0 2) (tellMembers y true t)) 0x3124
          else .op (tellMembers y false (putGroup (q.f 0 2) y t)) none [] := by
        rw [← hy]
        exact (groupFormCmd_of_accepted haccepted hst).trans (if_neg (Nat.not_lt.mpr (Nat.le_of_eq hwhole.symm)))
      exact ⟨fun hwatched => mail_of_op hs hroom (hform.trans (if_neg (Nat.not_lt.mpr hwatched))),
        fun hwatched => mail_of_cut hs (hform.trans (if_pos hwatched))⟩
  · refine ⟨fun hidle => mail_of_ok hs ((groupReleaseH_eq hx).trans (checked_pass ?_)),
      fun hst hcomplete => mail_of_no hs ((groupReleaseH_eq hx).trans (checked_fail (by simp [hst, hcomplete])))⟩
    rcases hidle with h | h <;> simp [h]
  · exact ⟨fun hwhat => mail_of_ok hs (fabStatusH_ports hwhat), fun x hwhat hgroup => mail_of_ok hs (fabStatusH_group hwhat hgroup),
      fun hwhat => mail_of_ok hs (fabStatusH_time hwhat)⟩

end Sys2Proof.Machine
end

section
/-!
PROOF. The SESS commands (09 R233 to R236, 14 R381) and the adoption of mirrored sessions (13 R349): each handler's reply past its checks.
-/

namespace Sys2Proof.Machine

section
variable {q : Req} {s : State}

/-- The entry of a session that is opened, with the flags and the LINK of its request (R233). -/
def openedSess (q : Req) : Sess :=
  { freshSess (q.f 0 2) (q.f 2 1) (q.f 4 2) (q.f 8 4) with draft := tbit (q.f 3 1) 0, penInput := tbit (q.f 3 1) 1, link := q.f 6 2 }

theorem sessOpenH_ok (hflags : q.f 3 1 ≤ 3) (hp : q.f 2 1 < 16) (hten : q.f 4 2 < 4096) (hlow : 64 ≤ q.f 8 4) (hhigh : q.f 8 4 ≤ 1048576)
    (hfree : (getSess s (q.f 0 2)).st = .free) (hst : (getPart s (q.f 2 1)).st ≠ .absent) (hfits : reserveFits s (q.f 8 4) = true)
    (hdir : dirDue s (q.f 2 1) = false ∨ dirPlace s (q.f 2 1) ≠ none) :
    let u := modSess (q.f 0 2) (fun _ => openedSess q) s
    sessOpenH q s = .ok (if dirDue s (q.f 2 1) then placeDir (q.f 2 1) (q.f 0 2) u else u)
      (leBytes (openedSess q).logPtr 8 ++ leBytes (openedSess q).penPtr 8) := by
  have hplace : ((getPart s (q.f 2 1)).st == .absent || !reserveFits s (q.f 8 4)
      || (dirDue s (q.f 2 1) && (dirPlace s (q.f 2 1)).isNone)) = false := by
    rcases hdir with h | h <;> simp [hst, hfits, h, Option.isSome_iff_ne_none]
  rw [sessOpenH, checked_pass (decide_eq_false (by omega)), checked_pass (decide_eq_false (by omega)), checked_pass (by simp [hfree]),
    checked_pass hplace, checked_nil]
  rfl

/-- The CLOSE of a session in use is refused while a request of it is open (R235). -/
theorem sessCloseH_eq (hused : (getSess s (q.f 0 2)).st ≠ .free) :
    sessCloseH q s = checked [((getSess s (q.f 0 2)).opened, 0x4104)] (.ok (closeSess (q.f 0 2) s) []) :=
  checked_pass (by simp [hused])

/-- A session that takes new settings: Idle, or Sided without an open request (R234). -/
def AtRest (x : Sess) : Prop := x.st = .idle ∨ (x.st = .sided ∧ x.opened = false)

theorem atRest_iff (x : Sess) : (x.st == .idle || (x.st == .sided && !x.opened)) = true ↔ AtRest x := by
  simp [AtRest]

/-- Settings alone are set: they are taken from a session at rest, and refused where R234, R260 or R346 do. -/
theorem settingsH_eq (hother : otherBits (q.f 16 256) = false) : settingsH q s =
    checked [(!((getSess s (q.f 0 2)).st == .idle || ((getSess s (q.f 0 2)).st == .sided && !(getSess s (q.f 0 2)).opened))
        || settingsBad s (withSettings (q.f 16 256) (getSess s (q.f 0 2))), 0x4140)]
      (.ok (mirrorSet (q.f 0 2) (getSess s (q.f 0 2)).mirror (modSess (q.f 0 2) (withSettings (q.f 16 256)) s)) []) := by
  rw [settingsH, checked_pass hother]

theorem settingsH_ok (hother : otherBits (q.f 16 256) = false) (hrest : AtRest (getSess s (q.f 0 2)))
    (hgood : settingsBad s (withSettings (q.f 16 256) (getSess s (q.f 0 2))) = false) :
    settingsH q s = .ok (mirrorSet (q.f 0 2) (getSess s (q.f 0 2)).mirror (modSess (q.f 0 2) (withSettings (q.f 16 256)) s)) [] := by
  rw [settingsH_eq hother, checked_pass (by rw [(atRest_iff _).mpr hrest, hgood]; rfl), checked_nil]

theorem settingsH_no (hother : otherBits (q.f 16 256) = false)
    (hbad : ¬AtRest (getSess s (q.f 0 2)) ∨ settingsBad s (withSettings (q.f 16 256) (getSess s (q.f 0 2))) = true) :
    settingsH q s = .no 0x4140 := by
  refine (settingsH_eq hother).trans (checked_fail ?_)
  rcases hbad with h | h
  · rw [Bool.eq_false_iff.mpr (mt (atRest_iff _).mp h), Bool.not_false, Bool.true_or]
  · rw [h, Bool.or_true]

theorem sessLogH_ok (hlow : 1 ≤ q.f 8 2) (hhigh : q.f 8 2 ≤ 1016) :
    let l := ((getSess s (q.f 0 2)).log.drop (q.f 4 4)).take (q.f 8 2)
    sessLogH q s = .ok s (leBytes l.length 2 ++ List.replicate 14 0 ++ l.flatMap (fun e => leBytes e 4)) :=
  checked_pass (decide_eq_false (by omega))

/-- An ADOPT of pairs in range asks for a path to the buddy. -/
theorem adoptH_eq (hlow : 1 ≤ q.f 2 1) (hhigh : q.f 2 1 ≤ 64) (hpairs : ∀ a ∈ adoptPairs q.pay, a.part < 16 ∧ a.tenant < 4096) :
    adoptH q s = checked [(!canSend s (q.f 0 2), 0x3110)] (.op (sendTo 3 "adopt" (q.f 0 2) [] q.pay [] s) none q.pay) := by
  have hrange : (adoptPairs q.pay).any (fun a => decide (15 < a.part ∨ 4095 < a.tenant)) = false :=
    List.any_eq_false.mpr fun a ha => by
      have := hpairs a ha
      simpa using ⟨by omega, by omega⟩
  exact checked_pass (by rw [hrange, Bool.or_false]; exact decide_eq_false (by omega))

/-- The end of an ADOPT that is under way. -/
theorem adoptDone_of_op {op : Nat} {o : LongOp} {copies : List AdoptCopy}
    (ho : s.sb.ops.find? (fun o => o.op == op && o.opcode == 0x0506) = some o) :
    let ps := adoptPairs o.arg
    let r := ((List.range ps.length).zip ps).foldl (fun (u : State × Nat) e => match copies[e.1]? with
      | some c => if adoptOk u.1 e.2 c then (adoptOne ps e.2 c u.1, u.2 + 2 ^ e.1) else u
      | none => u) (s, 0)
    adoptDone op copies s = opDone o (if r.2 + 1 = 2 ^ ps.length then 0 else 0x4160) (BitVec.ofNat 256 r.2) r.1 := by
  simp only [adoptDone, ho] <;> rfl

end

/-- Settles O45: each command's reply past its checks, and the end of an adoption. -/
theorem sessionCommands : Obligations.SessionCommands := by
  unfold Obligations.SessionCommands
  refine ⟨fun sub s q t => ?_, fun sub s q t => ⟨fun hs hlow hhigh hpairs hroom => ?_, fun op o copies ho => ?_⟩⟩
  · intro n x p
    refine ⟨?_, fun hs hused => ?_, fun hs hother => ?_, fun hs => mail_of_ok hs rfl, fun hs hlow hhigh => mail_of_ok hs (sessLogH_ok hlow hhigh)⟩
    · intro hs hflags hp hten hlow hhigh hfree hst hfits hdir
      exact mail_of_ok hs (sessOpenH_ok hflags hp hten hlow hhigh hfree hst hfits hdir)
    · exact ⟨fun hopen => mail_of_ok hs ((sessCloseH_eq hused).trans (checked_pass hopen)),
        fun hopen => mail_of_no hs ((sessCloseH_eq hused).trans (checked_fail hopen))⟩
    · exact ⟨fun hrest hgood => mail_of_ok hs (settingsH_ok hother hrest hgood), fun hbad => mail_of_no hs (settingsH_no hother hbad)⟩
  · exact ⟨fun hpath => mail_of_op hs hroom ((adoptH_eq hlow hhigh hpairs).trans (checked_pass (by simp [hpath]))),
      fun hlost => mail_of_no hs ((adoptH_eq hlow hhigh hpairs).trans (checked_fail (by simp [hlost])))⟩
  · exact congrArg Host.Outcome.next (adoptDone_of_op ho)

end Sys2Proof.Machine
end

section
/-!
PROOF. Fabric time (11 R311, R312) and the formation of groups (11 R299, R300): what each row does past its conditions.
-/

namespace Sys2Proof.Machine

section
variable {s : State}

/-! ### Fabric time (R311, R312) -/

/-- The device's own time goes to a neighbour, whose stratum is noted. -/
def noteStratum (p stratum : Nat) (s : State) : State :=
  modPort p (fun x => { x with partner := BitVec.ofNat 256 ((getPort s p).partner.toNat
      - put (fld (getPort s p).partner.toNat 163 160) 160 + put (stratum % 16) 160) })
    (sendLink p "time" (leBytes (put s.fab.ident.toNat 68 + put s.fab.stratum 64 + s.ftime % 2 ^ 64) 16) s)

/-- What an exchange leaves before the device follows anyone: where the neighbour's stratum is lower, the 10 ms begin again. -/
def timeNoted (p stratum : Nat) (s : State) : State :=
  let noted := noteStratum p stratum s
  if stratum < s.fab.stratum then { noted with fab := { noted.fab with lastLower := s.ftime } } else noted

theorem heardLower_eq {stratum own now : Nat} {u : State} (hown : u.fab.stratum = own) (hnow : u.ftime = now) :
    heardLower stratum u = if stratum < own then { u with fab := { u.fab with lastLower := now } } else u := by
  subst hown hnow
  rfl

theorem heardLower_noteStratum (p stratum : Nat) (s : State) : heardLower stratum (noteStratum p stratum s) = timeNoted p stratum s :=
  heardLower_eq (by simp [noteStratum, sendLink, sendSlots]) (by simp [noteStratum, sendLink, sendSlots])

/-- An exchange with the neighbour that the device follows, whose time it may use. -/
abbrev Follows (p stratum : Nat) (s : State) : Prop :=
  followed (timeNoted p stratum s) = some p ∧ s.fab.role ≠ 1 ∧ stratum < 15 ∧ (s.fab.timeState ≠ 1 ∨ stratum < s.fab.stratum)

theorem timeExchange_of_up {p stratum ident : Nat} {offset : Int} (hup : portUp (getPort s p) = true) :
    timeExchange p stratum ident offset s =
      if Follows p stratum s then follow stratum ident offset (timeNoted p stratum s) else timeNoted p stratum s := by
  simp only [Follows, ← heardLower_noteStratum]
  exact if_neg (by simp [hup])

/-- A Synced device that is no master has heard from no lower stratum for 10 ms. -/
theorem holdover_of_synced (hsync : s.fab.timeState = 1) (hrole : s.fab.role ≠ 1) (hstratum : s.fab.stratum ≠ 0) :
    let t := timeTo (s.fab.lastLower + 10000000) s
    let drawn := { t with free := s.free + 1 }
    holdover s = if s.fab.role = 2 then becomeMaster t
      else if (Config.freeWord s.free).getLsbD 0 then becomeMaster drawn else setTime 2 drawn :=
  if_neg (by simp [hsync, hrole, hstratum])

/-! ### Formation (R299, R300) -/

section
variable {g rank : Nat} {x : Group} {list : List (Nat × Nat)} {ordered : Bool} {levels : BitVec 16} {kind : RecordKind}

/-- A group with its whole list, Forming or Formed, and another member's rank. -/
structure HearsMember (s : State) (g rank : Nat) (x : Group) : Prop where
  group : groupOf s g = some x
  complete : x.complete = true
  ranked : rank < x.members.length
  other : rank ≠ x.rank
  alive : x.st = .forming ∨ x.st = .formed

/-- A formation ends with a code; a group that is Formed breaks. -/
def endGroup (g : Nat) (x : Group) (code : Code) (s : State) : State := if x.st = .forming then endForm g code s else breakGroup g 0x3130 s

/-- A record that is no answer is answered. -/
def answerRecord (x : Group) (rank : Nat) (kind : RecordKind) (s : State) : State :=
  if kind = .answer then s else sendRecord x [rank] (ownLevels s) false true s

theorem HearsMember.passes (h : HearsMember s g rank x) :
    ¬(x.st = .broken ∨ x.complete = false ∨ x.key ≠ x.key ∨ x.members.length ≤ rank ∨ rank = x.rank) := by
  have hbroken : x.st ≠ .broken := by rcases h.alive with h | h <;> simp [h]
  simp [hbroken, h.complete, h.ranked, h.other]

/-- A record with the group's key, by its kind, its list and its mode. -/
theorem formationRecord_of_hears (h : HearsMember s g rank x) : formationRecord g rank x.key list ordered levels kind s =
    if kind = .refusal then endGroup g x 0x3124 s
    else if list ≠ x.members then s
    else if ordered ≠ (getPart s x.part).params.ordered then endGroup g x 0x3120 s
    else if x.st = .forming then
      tryForm g (modGroup g (fun y => { y with
        answered := addOnce rank y.answered, level := min y.level (topLevel levels.toNat) }) (answerRecord x rank kind s))
    else answerRecord x rank kind s := by
  simp only [formationRecord, h.group]
  exact if_neg h.passes

theorem groupTimeout_of_forming (hgroup : groupOf s g = some x) (hcomplete : x.complete = true) (hst : x.st = .forming) :
    groupTimeout g s = endForm g 0x3122 (timeTo x.dueAt s) := by
  simp only [groupTimeout, hgroup]
  exact if_pos ⟨hst, hcomplete⟩

/-- A group that exists lets its row run. -/
theorem onGroup_of_lt {k : Host.Outcome State Fault Refusal} (h : g < 1024) : onGroup g k = k := onUnit_of_lt h

end

end

/-- Settles O55: each row past its conditions; a record is judged by its kind, then its list, then its mode. -/
theorem fabricTimeAndFormation : Obligations.FabricTimeAndFormation := by
  unfold Obligations.FabricTimeAndFormation
  refine fun s => ⟨?_, fun hsync hrole hstratum => ?_, fun g x hg hgroup hcomplete => ⟨?_, fun hst => ?_⟩⟩
  · intro p stratum ident offset delay hp hup r own noted t follows
    have hrow : exec (.timeExchange p stratum ident offset delay) s = .next (timeExchange p stratum ident offset s) := onPort_of_lt hp
    rw [hrow, timeExchange_of_up hup]
    exact ⟨fun h => congrArg _ (if_pos h), fun h => congrArg _ (if_neg h)⟩
  · intro t master drawn
    have hrow : exec .holdover s = .next (holdover s) := rfl
    rw [hrow, holdover_of_synced hsync hrole hstratum]
    exact ⟨fun h => congrArg _ (if_pos h), fun h => congrArg _ (if_neg h)⟩
  · intro rank levels hrank hother halive record ends told
    have hhears : HearsMember s g rank x := ⟨hgroup, hcomplete, hrank, hother, halive⟩
    have hrow : ∀ list o kind, exec (.groupFormationRecord g rank x.key list o levels kind) s
        = .next (formationRecord g rank x.key list o levels kind s) := fun _ _ _ => onGroup_of_lt hg
    refine ⟨fun list o => (hrow list o .refusal).trans (congrArg _ ?_), fun kind hkind =>
      ⟨fun o ho => (hrow x.members o kind).trans (congrArg _ ?_), fun list o hlist => (hrow list o kind).trans (congrArg _ ?_),
        (hrow x.members _ kind).trans (congrArg _ ?_)⟩⟩
    · exact (formationRecord_of_hears hhears).trans (if_pos rfl)
    · rw [formationRecord_of_hears hhears, if_neg hkind, if_neg (not_not.mpr rfl), if_pos ho]
      rfl
    · rw [formationRecord_of_hears hhears, if_neg hkind, if_pos hlist]
    · rw [formationRecord_of_hears hhears, if_neg hkind, if_neg (not_not.mpr rfl), if_neg (not_not.mpr rfl)]
      rfl
  · exact (onGroup_of_lt hg).trans (congrArg Host.Outcome.next (groupTimeout_of_forming hgroup hcomplete hst))

end Sys2Proof.Machine
end

section
/-!
PROOF. 14_signal_box_mailboxes.md: the checks that come before a command's own (R363, R374, 13 R352, R358, 15 R390 to R393), what a response
leaves (R364, R365), and what the event path leaves of the Signal Box and the pins beside what `Reported` says (Laws/Events.lean).
-/

namespace Sys2Proof.Machine

/-! ### What the event path leaves -/

theorem Reported.lock {s t : State} (h : Reported s t) : t.lock = s.lock := by rw [← h]

theorem Reported.sess {s t : State} (h : Reported s t) : t.sess = s.sess := by rw [← h]

theorem Reported.rings {s t : State} (h : Reported s t) : t.rings = s.rings := by rw [← h]

/-- Two states that `Reported` joins and that agree in the Signal Box outside its mailboxes and degraded mode, in which mailboxes are Busy and
in the levels sampled at the pins. -/
structure Signalled (s t : State) : Prop where
  reported : Reported s t
  sb : { t.sb with host := s.sb.host, bmc := s.sb.bmc, fm := s.sb.fm, degraded := s.sb.degraded } = s.sb
  busy : ∀ m, (getBox t m).busy = (getBox s m).busy
  levels : t.host.levels = s.host.levels

namespace Signalled
variable {s t u : State}

theorem refl (s : State) : Signalled s s := ⟨.refl s, rfl, fun _ => rfl, rfl⟩

theorem trans (h : Signalled s t) (k : Signalled t u) : Signalled s u where
  reported := h.reported.trans k.reported
  sb := by rw [← h.sb, ← k.sb]
  busy m := (k.busy m).trans (h.busy m)
  levels := k.levels.trans h.levels

theorem ite {c : Prop} [Decidable c] (h : Signalled s t) (k : Signalled s u) : Signalled s (if c then t else u) := by
  split
  · exact h
  · exact k

theorem foldl {α : Type} {f : State → α → State} (h : ∀ s x, Signalled s (f s x)) : ∀ (l : List α) (s : State), Signalled s (l.foldl f s)
  | [], s => .refl s
  | x :: l, s => (h s x).trans (foldl h l (f s x))

/-- A change of the host interface that leaves the levels, or of what was sent. -/
theorem of_host (hrep : Reported s t) (hsb : t.sb = s.sb) (hlevels : t.host.levels = s.host.levels) : Signalled s t :=
  ⟨hrep, by rw [hsb], fun m => by rw [getBox, hsb, getBox], hlevels⟩

theorem restarting (h : Signalled s t) : t.sb.restarting = s.sb.restarting := by rw [← h.sb]

theorem wdogBroken (h : Signalled s t) : t.sb.wdogBroken = s.sb.wdogBroken := by rw [← h.sb]

theorem checkGroup (h : Signalled s t) : t.sb.checkGroup = s.sb.checkGroup := by rw [← h.sb]

end Signalled

theorem modFn_signalled (f : Nat) (g : HostFn → HostFn) (s : State) : Signalled s (modFn f g s) := .of_host rfl rfl rfl

theorem emit_signalled (o : Out) (s : State) : Signalled s (emit o s) := .of_host rfl rfl rfl

theorem msix_signalled (f v : Nat) (s : State) : Signalled s (msix f v s) := .ite (modFn_signalled ..) (emit_signalled ..)

theorem hiSet_signalled (f b : Nat) (s : State) : Signalled s (hiSet f b s) :=
  .ite ((modFn_signalled ..).trans (msix_signalled ..)) (modFn_signalled ..)

/-- A change of the host interface that leaves the levels, and perhaps a set of HI_STATUS with it. -/
theorem host_signalled {s : State} {h : HostIf} (b : Nat) (was : Bool) (hlevels : h.levels = s.host.levels) :
    Signalled s (if was = true then { s with host := h } else hiSet 0 b { s with host := h }) :=
  .ite (.of_host rfl rfl hlevels) (.trans (t := { s with host := h }) (.of_host rfl rfl hlevels) (hiSet_signalled ..))

theorem mismatchSet_signalled (k : Nat) (s : State) : Signalled s (mismatchSet k s) := host_signalled _ _ rfl

/-- After a change of one mailbox each mailbox is the changed one or as before. -/
theorem getBox_modBox_cases (m k : Nat) (g : Mailbox → Mailbox) (s : State) :
    getBox (modBox m g s) k = g (getBox s k) ∨ getBox (modBox m g s) k = getBox s k := by
  unfold getBox modBox
  split_ifs <;> simp

theorem modBox_signalled (m : Nat) {g : Mailbox → Mailbox} (hg : ∀ x, (g x).busy = x.busy) (s : State) : Signalled s (modBox m g s) where
  reported := modBox_reported ..
  sb := by unfold modBox; split_ifs <;> rfl
  busy k := by
    rcases getBox_modBox_cases m k g s with h | h <;> rw [h]
    exact hg _
  levels := by unfold modBox; split_ifs <;> rfl

theorem notify_signalled (m b : Nat) (s : State) : Signalled s (notify m b s) :=
  .ite (msix_signalled ..) (.ite (emit_signalled ..) (.ite (emit_signalled ..) (.refl s)))

theorem sbSet_signalled (m b : Nat) (s : State) : Signalled s (sbSet m b s) :=
  .ite (modBox_signalled m (fun _ => by rfl) s) ((modBox_signalled m (fun _ => by rfl) s).trans (notify_signalled ..))

theorem enqueue_signalled (m : Nat) (ev : EvRec) (s : State) : Signalled s (enqueue m ev s) := by
  unfold enqueue
  extract_lets x ev1 s1 s2 s3
  have h1 : Signalled s s1 := modBox_signalled m (fun _ => by rfl) s
  have h2 : Signalled s s2 := .ite (h1.trans (sbSet_signalled ..)) h1
  have h3 : Signalled s s3 := .ite (h2.trans (emit_signalled ..)) h2
  exact h3.trans (sbSet_signalled ..)

theorem postRec_signalled (ev : EvRec) (also : List Nat) (s : State) : Signalled s (postRec ev also s) :=
  .foldl (fun t _ => .ite (enqueue_signalled ..) (.refl t)) _ s

theorem goDegraded_signalled (s : State) : Signalled s (goDegraded s) := by
  have hmode : Signalled s { s with sb := { s.sb with degraded := true } } := ⟨rfl, rfl, fun _ => rfl, rfl⟩
  exact .ite (.refl s) ((hmode.trans (postRec_signalled ..)).trans (.foldl (fun _ _ => sbSet_signalled ..) _ _))

/-! ### What a response leaves (R364, R365) -/

theorem msix_sb (f v : Nat) (s : State) : (msix f v s).sb = s.sb := by unfold msix; split <;> rfl

theorem notify_sb (m b : Nat) (s : State) : (notify m b s).sb = s.sb := by
  unfold notify
  split_ifs
  · exact msix_sb ..
  all_goals rfl

/-- A flag that is set changes no other field of its mailbox than the flags and their counters. -/
theorem getBox_sbSet_same (m b : Nat) (s : State) : getBox (sbSet m b s) m =
    { getBox s m with flags := (getBox s m).flags ||| bitOf 8 b, cnt := bump (getBox s m).cnt b } := by
  unfold sbSet
  extract_lets was s1
  have hbox : getBox s1 m = { getBox s m with flags := (getBox s m).flags ||| bitOf 8 b, cnt := bump (getBox s m).cnt b } :=
    getBox_modBox_same ..
  split
  · exact hbox
  · rw [getBox, notify_sb, ← hbox, getBox]

/-- A mailbox after the response r of its request q. -/
def answered (q : Req) (r : Rsp) (x : Mailbox) : Mailbox := { x with busy := false, rsp := r, last := q.raw, lastRsp := r }

/-- The response goes out, to the board management controller or the fabric manager, as a message. -/
def sendRsp (q : Req) (r : Rsp) (s : State) : State :=
  match q.master, q.via with
  | 1, _ => s
  | _, some (med, eid) => emit (.mctp (.mctp med eid) ((rspBytes r).take (16 + r.payload.length))) s
  | m, none => emit (.rsp m r) s

theorem placeRsp_eq (q : Req) (r : Rsp) (s : State) : placeRsp q r s = sbSet q.master 0 (sendRsp q r (modBox q.master (answered q r) s)) := rfl

theorem sendRsp_signalled (q : Req) (r : Rsp) (s : State) : Signalled s (sendRsp q r s) := by
  unfold sendRsp
  split
  · exact .refl s
  · exact emit_signalled ..
  · exact emit_signalled ..

theorem sendRsp_sb (q : Req) (r : Rsp) (s : State) : (sendRsp q r s).sb = s.sb := by
  unfold sendRsp
  split <;> rfl

theorem placeRsp_signalled (q : Req) (r : Rsp) (s : State) : Signalled (modBox q.master (answered q r) s) (placeRsp q r s) :=
  (sendRsp_signalled ..).trans (sbSet_signalled ..)

/-- The mailbox of a request holds the response, stored for a repetition, and RSP_READY is set. -/
theorem getBox_placeRsp_same (q : Req) (r : Rsp) (s : State) : getBox (placeRsp q r s) q.master =
    { answered q r (getBox s q.master) with
      flags := (getBox s q.master).flags ||| bitOf 8 0, cnt := bump (getBox s q.master).cnt 0 } := by
  have hbox : getBox (sendRsp q r (modBox q.master (answered q r) s)) q.master = answered q r (getBox s q.master) := by
    rw [getBox, sendRsp_sb, ← getBox, getBox_modBox_same]
  rw [placeRsp_eq, getBox_sbSet_same, hbox]
  rfl

theorem placeRsp_reported (q : Req) (r : Rsp) (s : State) : Reported s (placeRsp q r s) :=
  (modBox_reported ..).trans (placeRsp_signalled ..).reported

/-- A flag just set is set. -/
theorem getLsbD_or_bitOf {b : Nat} (flags : BitVec 8) (h : b < 8) : (flags ||| bitOf 8 b).getLsbD b = true := by
  simp only [BitVec.getLsbD_or, bitOf, BitVec.getLsbD_ofNat, Nat.testBit_two_pow_self, h, decide_true, Bool.and_true, Bool.or_true]

/-! ### The checks that every command passes (log entry 52) -/

/-- The checks behind that of the start: the format, the class, degraded mode, the reserved fields, the partition's long operation, a unit
that does not answer. -/
def commonChecks (c : Cmd) (q : Req) (s : State) : List (Bool × Code) :=
  [(q.opcode != c.opcode || decide (4080 < q.len) || decide (q.len < needLen (c.named q)), 0x5100), (!holds s q c.cls, 0x5110),
   (s.sb.degraded && !c.d, 0x5202), (resvBad c q, 0x5102), ((c.part q).any (fun p => partBusy s p && c.opcode != 0x020E), 0x5121),
   ((wedgedUnit c q s).isSome, 0x5230)]

section
variable {c : Cmd} {q : Req} {s t : State} {k : Code}

theorem judge_of_startCode (h : startCode s q.opcode (c.cls == 0 && q.opcode == c.opcode) = some k) : judge c q s = some k := by
  simp [judge, h]

theorem judge_of_started (h : startCode s q.opcode (c.cls == 0 && q.opcode == c.opcode) = none) : judge c q s = firstFail (commonChecks c q s) := by
  rw [judge, h, commonChecks]
  cases c.part q <;> rfl

theorem firstFail_pass {b : Bool} {l : List (Bool × Code)} (h : b = false) : firstFail ((b, k) :: l) = firstFail l := by simp [firstFail, h]

theorem firstFail_fail {b : Bool} {l : List (Bool × Code)} (h : b = true) : firstFail ((b, k) :: l) = some k := by simp [firstFail, h]

/-- The check of the partition's long operation finds nothing when no operation of it runs or the command is ABORT. -/
theorem notBusy_of_parts (h : ∀ p, c.part q = some p → partBusy s p = false ∨ c.opcode = 0x020E) :
    (c.part q).any (fun p => partBusy s p && c.opcode != 0x020E) = false := by
  cases hpart : c.part q with
  | none => rfl
  | some p => rcases h p hpart with hfree | habort <;> simp [*]

/-! What the start refuses (15 R390, R391, R393). -/

theorem startCode_of_starting {o : Nat} {classA : Bool} (hphase : s.boot.phase = .starting) (hno : s.boot.ifewin = false ∨ classA = false) :
    startCode s o classA = some 0x5252 := by
  rcases hno with h | h <;> simp [startCode, hphase, h]

theorem startCode_of_fuseFault {o : Nat} {classA : Bool} (hphase : s.boot.phase = .fuseFault) : startCode s o classA = some 0x5251 := by
  simp [startCode, hphase]

theorem startCode_of_recovery {o : Nat} {classA : Bool} (hphase : s.boot.phase = .recovery) (hop : recoveryOp o = false) :
    startCode s o classA = some 0x5250 := by
  simp [startCode, hphase, hop]

/-! ### What a refused command answers -/

/-- A request that is no repetition and that a check of every command refuses is answered with the check's code, and the command does nothing. -/
theorem serve_of_judged {h : Req → State → Reply} (hnew : ¬Repeats q t) (hjudge : judge c q t = some k) :
    serve c h q t = respond q k (if k = 0x5230 then unitName (wedgedUnit c q t) else []) t := by
  refine (if_neg hnew).trans ?_
  rw [hjudge]

/-- Every mailbox command is the row of its entry in the tables with a handler of its own, and what `afterRow` adds. -/
theorem exec_of_mailCommands {i : Instr} {sub : Submission} (h : (i, c) ∈ mailCommands sub) :
    ∃ hd, ∀ s, exec i s = .next (afterRow i (mailRow c hd sub s)) := by
  fin_cases h <;> exact ⟨_, fun _ => rfl⟩

theorem exec_of_judged {i : Instr} {sub : Submission} (hcmd : (i, c) ∈ mailCommands sub) (htaken : TakenUp c sub s q t)
    (hjudge : judge c q t = some k) :
    exec i s = .next (afterRow i (respond q k (if k = 0x5230 then unitName (wedgedUnit c q t) else []) t)) := by
  obtain ⟨hreach, hnew⟩ := htaken
  obtain ⟨hd, hexec⟩ := exec_of_mailCommands hcmd
  rw [hexec, mailRow_eq_serve hreach, serve_of_judged hnew hjudge]

end

/-- Settles O38: the first check that finds something names the code, and a response is a change of its mailbox and a flag. -/
theorem commandChecksAndResponses : Obligations.CommandChecksAndResponses := by
  unfold Obligations.CommandChecksAndResponses
  constructor
  · intro sub s q t i c hcmd htaken no good allowed classA
    have refuses : ∀ k, judge c q t = some k → k ≠ 0x5230 → no k := fun k hjudge hk => by
      have h := exec_of_judged hcmd htaken hjudge
      rwa [if_neg hk] at h
    have notA : ¬classA → (c.cls == 0 && q.opcode == c.opcode) = false := fun h => by simpa [classA] using h
    refine ⟨fun hphase hno => refuses _ (judge_of_startCode (startCode_of_starting hphase (hno.imp_right notA))) (by decide),
      fun hphase => refuses _ (judge_of_startCode (startCode_of_fuseFault hphase)) (by decide),
      fun hphase hop => refuses _ (judge_of_startCode (startCode_of_recovery hphase hop)) (by decide), fun hstart => ?_⟩
    have format : (q.opcode != c.opcode || decide (4080 < q.len) || decide (q.len < needLen (c.named q))) = false ↔ good := by
      simp [good, and_assoc]
    have mode : (t.sb.degraded && !c.d) = false ↔ allowed := by
      simp [allowed, or_iff_not_imp_left]
    have started := judge_of_started hstart
    have formatPasses (h : good) := started.trans (firstFail_pass (format.mpr h))
    have classPasses (h : good) (hclass : holds t q c.cls = true) := (formatPasses h).trans (firstFail_pass (by rw [hclass]; rfl))
    have modePasses (h : good) (hclass) (hmode : allowed) := (classPasses h hclass).trans (firstFail_pass (mode.mpr hmode))
    have fieldsPass (h : good) (hclass) (hmode : allowed) (hresv : resvBad c q = false) := (modePasses h hclass hmode).trans (firstFail_pass hresv)
    refine ⟨fun h => refuses _ (started.trans (firstFail_fail ?_)) (by decide),
      fun h hclass => refuses _ ((formatPasses h).trans (firstFail_fail ?_)) (by decide),
      fun h hclass hmode => refuses _ ((classPasses h hclass).trans (firstFail_fail ?_)) (by decide),
      fun h hclass hmode hresv => refuses _ ((modePasses h hclass hmode).trans (firstFail_fail hresv)) (by decide),
      fun h hclass hmode hresv hop p hp hbusy => refuses _ ((fieldsPass h hclass hmode hresv).trans (firstFail_fail ?_)) (by decide),
      fun h hclass hmode hresv hpart e he => ?_⟩
    · exact Bool.eq_true_of_not_eq_false (mt format.mp h)
    · rw [hclass]
      rfl
    · exact Bool.eq_true_of_not_eq_false (mt mode.mp hmode)
    · simp [hp, hbusy, hop]
    · have partPasses := (fieldsPass h hclass hmode hresv).trans (firstFail_pass (notBusy_of_parts hpart))
      have hunit : judge c q t = some 0x5230 := partPasses.trans (firstFail_fail (by rw [he]; rfl))
      have hexec := exec_of_judged hcmd htaken hunit
      rwa [if_pos rfl, he] at hexec
  · intro q code pay s _ x
    have hbox : x = _ := getBox_placeRsp_same ..
    have hrep : Reported s (respond q code pay s) := placeRsp_reported ..
    rw [hbox]
    exact ⟨rfl, rfl, rfl, rfl, rfl, rfl, rfl, rfl, rfl, rfl, rfl, getLsbD_or_bitOf _ (by decide), hrep.lock, hrep.parts, hrep.cores, hrep.mem⟩

end Sys2Proof.Machine
end

section
/-!
PROOF. 13_failure_costs_and_in_service_change.md: the step limit and the isolation of a core (R342).
-/

namespace Sys2Proof.Machine

section
variable {s : State} {p n : Nat}

/-! ### A unit that changes its state byte -/

theorem retireCheck_cores (s : State) : (retireCheck s).cores = s.cores := by
  unfold retireCheck
  split
  · exact (post_reported ..).cores
  · rfl

theorem retireCheck_units (s : State) : (retireCheck s).units = s.units := by
  unfold retireCheck
  split
  · exact (post_reported ..).units
  · rfl

theorem rewriteReport_cores (s : State) : (rewriteReport s).cores = s.cores := by unfold rewriteReport; split <;> rfl

theorem rewriteReport_units (s : State) : (rewriteReport s).units = s.units := by unfold rewriteReport; split <;> rfl

/-- The look at the floors and the rewritten report leave every core. -/
theorem getCore_unitChanged (s : State) (m : Nat) : getCore (unitChanged s) m = getCore s m := by
  rw [getCore, unitChanged, rewriteReport_cores, retireCheck_cores, getCore]

theorem unitChanged_units (s : State) : (unitChanged s).units = s.units := (rewriteReport_units _).trans (retireCheck_units s)

theorem getCore_post (code : Code) (kind unit : Nat) (s : State) (m : Nat) : getCore (post code kind unit s) m = getCore s m := by
  rw [getCore, (post_reported ..).cores, getCore]

/-! ### The step limit and the isolation (R342) -/

theorem stepOverrun_of_running {st : Step} (hstep : (getPart s p).step = some st) (hrun : st.ended = false) :
    stepOverrun p s = abortWith p 0x4121 0x4122 (timeTo (st.tLaunch + 1000 * (getPart s p).params.stepLimit + 1) s) := by
  simp [stepOverrun, hstep, hrun]

/-- Core n switched off from the always-on domain: nothing is left in it, and its state byte says so. -/
def switchedOff (n : Nat) (s : State) : State :=
  modCore n (fun _ => darkCore) { s with units := { s.units with core := spSet 0 s.units.core n 6 } }

theorem coreIsolated_of_aborted {r : HaltRec} (hhalt : (getCore s n).halt = some r) (hcode : r.code = 0x1150)
    (hpresent : unitPresent s.units.core n = true) : coreIsolated n s = unitChanged (post 0x1160 1 n (switchedOff n s)) := by
  simp only [coreIsolated, hhalt]
  exact if_pos ⟨hcode, hpresent⟩

theorem getCore_switchedOff_same (n : Nat) (s : State) : getCore (switchedOff n s) n = darkCore := getCore_modCore_same ..

theorem getCore_switchedOff_other {m : Nat} (s : State) (h : m ≠ n) : getCore (switchedOff n s) m = getCore s m := getCore_modCore_other _ _ _ _ h

theorem stateByte_switchedOff (n : Nat) (s : State) : spGet 0 (switchedOff n s).units.core n = 6 := spGet_spSet_same 0 s.units.core n 6

/-- A core that is switched off has empty queues. -/
theorem getEng_darkCore_queue (q : Nat) : (getEng darkCore q).queue = [] := by
  unfold getEng
  split_ifs <;> rfl

end

/-- Settles O28: the overrun is the abort of its partition, and the isolation a change of one core and its state byte, which is told. -/
theorem overrunsAndIsolation : Obligations.OverrunsAndIsolation := by
  unfold Obligations.OverrunsAndIsolation
  refine ⟨fun p s st hp hstep hrun => ?_, ?_⟩
  · exact (onPart_of_lt hp).trans (congrArg _ (stepOverrun_of_running hstep hrun))
  · intro n s r hn hhalt hcode hpresent dark
    refine ⟨(onUnit_of_lt hn).trans (congrArg _ (coreIsolated_of_aborted hhalt hcode hpresent)), ?_, ?_, fun q _ => getEng_darkCore_queue q,
      fun m hm => ?_⟩
    · rw [unitChanged_units, (post_reported ..).units]
      exact stateByte_switchedOff n s
    · rw [getCore_unitChanged, getCore_post]
      exact getCore_switchedOff_same n s
    · rw [getCore_unitChanged, getCore_post]
      exact getCore_switchedOff_other s hm

end Sys2Proof.Machine
end

section
/-!
PROOF. 14_signal_box_mailboxes.md: the FW commands (R384, 13 R356, 17 R440): each handler's reply past its checks.
-/

namespace Sys2Proof.Machine

section
variable {q : Req} {s : State}

theorem stageWriteH_ok (halign : q.f 0 4 % 8 = 0) (hstart : q.f 0 4 < 0x4000000) (hend : q.f 0 4 + (q.pay.drop 8).length ≤ 0x4000000) :
    stageWriteH q s = .ok { s with fw := { s.fw with
      staged := spWrite s.fw.staged (q.f 0 4) (q.pay.drop 8), stagedLen := max s.fw.stagedLen (q.f 0 4 + (q.pay.drop 8).length),
      verified := false } } [] :=
  checked_pass (decide_eq_false (by simp only [stageEnd]; omega))

theorem stageVerifyDone_of_op {o : LongOp} (hop : s.sb.ops.find? (fun o => o.opcode == 0x0803) = some o) :
    stageVerifyDone s = opDone o (if verifies s (numAt o.arg 0 4) then 0 else 0x5212) 0
      { s with fw := { s.fw with verified := verifies s (numAt o.arg 0 4) } } := by
  simp [stageVerifyDone, hop]

/-- The staged image may be activated: it is verified, and no partition serves or drains unless FORCE drains them. -/
abbrev MayActivate (q : Req) (s : State) : Prop := s.fw.verified = true ∧ (q.force = true ∨ activeParts s = [])

/-- It has fewer contract levels than the running image, and no DOWN flag allows that. -/
abbrev LevelsLost (q : Req) (s : State) : Prop :=
  levelCount (stagedNum s 12 4) < levelCount (runningImage s).levels.toNat ∧ q.down = false

theorem mayActivate_iff (q : Req) (s : State) :
    (!s.fw.verified || (!q.force && !(activeParts s).isEmpty)) = false ↔ MayActivate q s := by
  simp [MayActivate, or_iff_not_imp_left]

theorem levelsLost_iff (q : Req) (s : State) :
    (decide (levelCount (stagedNum s 12 4) < levelCount (runningImage s).levels.toNat) && !q.down) = true ↔ LevelsLost q s := by
  simp [LevelsLost]

/-- The start into the staged image is asked for: from recovery a cold one. -/
def activation (q : Req) (s : State) : State :=
  let u := if q.force then cutAll s else s
  { u with boot := { u.boot with activating := true, resetPending := some ((if s.boot.phase = .recovery then .cold else .warm), 3) } }

theorem activateH_of_mayNot (h : ¬MayActivate q s) : activateH q s = .no 0x5210 :=
  checked_fail (Bool.eq_true_of_not_eq_false (mt (mayActivate_iff q s).mp h))

theorem activateH_of_levelsLost (h : MayActivate q s) (hlost : LevelsLost q s) : activateH q s = .no 0x5211 :=
  (checked_pass ((mayActivate_iff q s).mpr h)).trans (checked_fail ((levelsLost_iff q s).mpr hlost))

theorem activateH_ok (h : MayActivate q s) (hlevels : ¬LevelsLost q s) : activateH q s = .ok (activation q s) [] :=
  (checked_pass ((mayActivate_iff q s).mpr h)).trans (checked_pass (Bool.eq_false_of_not_eq_true (mt (levelsLost_iff q s).mp hlevels)))

end

/-- Settles O48: each command's reply past its checks, and the end of a verification. -/
theorem firmwareCommands : Obligations.FirmwareCommands := by
  unfold Obligations.FirmwareCommands
  intro sub s q t
  refine ⟨fun hs => mail_of_ok hs rfl, ?_, fun hs hroom => mail_of_op hs hroom rfl, ?_, ?_⟩
  · intro hs off data halign hstart hend
    exact mail_of_ok hs (stageWriteH_ok halign hstart hend)
  · intro o hop ok
    exact congrArg Host.Outcome.next (stageVerifyDone_of_op hop)
  · intro hs u idle fewer
    exact ⟨fun h hlevels => mail_of_ok hs (activateH_ok h hlevels), fun h => mail_of_no hs (activateH_of_mayNot h),
      fun h hlost => mail_of_no hs (activateH_of_levelsLost h hlost)⟩

end Sys2Proof.Machine
end

section
/-!
PROOF. 13_failure_costs_and_in_service_change.md and 15_cold_and_warm_start.md: the causes of a reset (R353, R387 to R389, 18 R451), the start
(15 R390), the restarts and checks of the Signal Box (R354, R358, R359), the sideband pins and the PCIe link (17 R441, R442).
-/

namespace Sys2Proof.Machine

section
variable {s : State}

/-! ### The causes of a reset -/

/-- What an asserted PERST_N leaves of the pins and of the count of failed starts. -/
def perstHeld (s : State) : State :=
  { s with host := { s.host with perstHigh := false, linkUp := false, thermDrive := false }, boot := { s.boot with failedStarts := 0 } }

theorem perstAssert_of_high (h : s.host.perstHigh = true) :
    perstAssert s = perstHeld (if s.boot.suppliesGood then afterReset .cold 1 s else s) := by
  simp [perstAssert, perstHeld, h]

/-- The device after its supplies went, with the always-on rail still there. -/
def suppliesLost (s : State) : State :=
  { afterReset .cold 0 s with
    boot := { (afterReset .cold 0 s).boot with suppliesGood := false, pcieOff := true, failedStarts := 0 },
    host := { (afterReset .cold 0 s).host with linkUp := false } }

theorem supplyLoss_alwaysOn (s : State) : supplyLoss true s =
    { suppliesLost s with host := { perstHigh := false, pwrbrkHigh := s.host.pwrbrkHigh, linkUp := false }, heat := {} } := rfl

theorem supplyLoss_others (h : s.host.perstHigh = true) : supplyLoss false s = suppliesLost s := by
  simp [supplyLoss, suppliesLost, h]

theorem deviceWatchdog_of_ready (flush : Bool) (hwdog : s.sb.wdogBroken = false) (hperst : s.host.perstHigh = true)
    (hgood : s.boot.suppliesGood = true) (hphase : s.boot.phase = .ready) :
    deviceWatchdog flush s = resetTo .warm 2 flush { s with boot := { s.boot with activating := false } } := by
  simp [deviceWatchdog, hwdog, hperst, hgood, hphase]

/-- A start that the watchdog cut short begins again, warm twice and then cold; the fourth in a row leaves recovery (log entry 107). -/
def startAgain (s : State) : State :=
  let t := afterReset (if s.boot.failedStarts + 1 < 3 then .warm else .cold) 2 (takeStaged s)
  { t with boot := { t.boot with
      phase := if 4 ≤ s.boot.failedStarts + 1 then .recovery else .starting, failedStarts := s.boot.failedStarts + 1,
      fallback := s.boot.fallback || s.boot.activating, flushLost := s.boot.flushLost } }

theorem deviceWatchdog_of_starting (flush : Bool) (hwdog : s.sb.wdogBroken = false) (hperst : s.host.perstHigh = true)
    (hgood : s.boot.suppliesGood = true) (hphase : s.boot.phase = .starting) : deviceWatchdog flush s = startAgain s := by
  simp [deviceWatchdog, startAgain, hwdog, hperst, hgood, hphase]

theorem startAgain_nextStart (s : State) : (startAgain s).boot.nextStart = if s.boot.failedStarts < 2 then .warm else .cold :=
  if_congr (by omega) rfl rfl

theorem startAgain_phase (s : State) : (startAgain s).boot.phase = if s.boot.failedStarts < 3 then .starting else .recovery := by
  by_cases h : s.boot.failedStarts < 3
  · exact (if_neg (by omega)).trans (if_pos h).symm
  · exact (if_pos (by omega)).trans (if_neg h).symm

/-! ### The start (15 R390) -/

/-- A start that nothing holds back runs. -/
theorem startRow_of_starting (f : StartFindings) (hphase : s.boot.phase = .starting) (hup : s.sb.restarting = false) :
    startRow f s = startRun f s := by
  simp [startRow, hphase, hup]

section
variable {f : StartFindings} {t : State}

theorem startRun_of_copyFault (hcool : tooHot s = false) (hfault : s.fuse.copyFault = true) :
    (startRun f s).boot.phase = .fuseFault ∧ (startRun f s).host.alertAon = true := by
  simp [startRun, hcool, hfault]

theorem startRun_of_noImage (hcool : tooHot s = false) (hfuse : s.fuse.copyFault = false) (hnone : bootImage (takeStaged s) = none) :
    (startRun f s).boot.phase = .recovery := by
  simp [startRun, hcool, hfuse, hnone]

theorem startRun_whole (hcool : tooHot s = false) (hfuse : s.fuse.copyFault = false) (himage : bootImage (takeStaged s) = some t)
    (hwhole : f.bootOnly = false) : startRun f s = startReport f t (startRestore f t) := by
  simp [startRun, hcool, hfuse, himage, hwhole]

/-- A start that has reached its step 3 and runs its image (log entry 80). -/
def imageRuns (t : State) : State :=
  { t with boot := { t.boot with ifewin := true, suppliesGood := true, pcieOff := false },
           host := { t.host with perstHigh := true, linkUp := true } }

theorem startRun_bootOnly (hcool : tooHot s = false) (hfuse : s.fuse.copyFault = false) (himage : bootImage (takeStaged s) = some t)
    (hpart : f.bootOnly = true) : startRun f s = imageRuns t := by
  simp [startRun, imageRuns, hcool, hfuse, himage, hpart]

theorem takeStaged_firmware (s : State) : ∃ fw, takeStaged s = { s with fw := fw } := by
  unfold takeStaged
  split
  · exact ⟨_, rfl⟩
  · exact ⟨s.fw, rfl⟩

theorem bootImage_fallback (h : bootImage s = some t) : ∃ b, t = { s with boot := { s.boot with fallback := b } } := by
  unfold bootImage at h
  split_ifs at h <;> exact ⟨_, (Option.some.inj h).symm⟩

/-- The choice of an image changes the firmware and which of the two images runs. -/
theorem chosenImage (h : bootImage (takeStaged s) = some t) : ∃ fw b, t = { s with fw := fw, boot := { s.boot with fallback := b } } := by
  obtain ⟨fw, hfw⟩ := takeStaged_firmware s
  obtain ⟨b, rfl⟩ := bootImage_fallback h
  exact ⟨fw, b, by rw [hfw]⟩

end

/-- START performs the reset that a command asked for, once no partition serves or drains (log entry 83). -/
theorem startRow_of_pending (f : StartFindings) {k : StartKind} {cause : Nat} (hphase : s.boot.phase ≠ .starting)
    (hpending : s.boot.resetPending = some (k, cause)) (hrest : activeParts s = []) : startRow f s = resetTo k cause true s := by
  simp [startRow, hphase, hpending, hrest]

/-! ### The Signal Box (R354, R358, R359) -/

theorem ifewinRuns_of_phase (h : s.boot.phase = .ready ∨ s.boot.phase = .stopped) : ifewinRuns s = true := by
  rcases h with h | h <;> simp [ifewinRuns, h]

/-- The Signal Box as its restart begins: it restarts, and the restarts of the last 600 s are kept with this one. -/
def restartBegun (s : State) : State :=
  { s with sb := { s.sb with
      restarting := true, restarts := s.sb.restarts.filter (fun t => decide (s.ftime < t + 600 * secNs)) ++ [s.ftime] } }

theorem sbRestart_signalled (hup : s.sb.restarting = false) (hruns : ifewinRuns s = true) : Signalled (restartBegun s) (sbRestart s) := by
  have hflags : Signalled (restartBegun s) ([1, 2, 3].foldl (fun t m => sbSet m 7 t) (restartBegun s)) :=
    .foldl (fun _ _ => sbSet_signalled ..) _ _
  rw [sbRestart, if_neg (by simp [hup, hruns])]
  exact .ite (hflags.trans (goDegraded_signalled _)) hflags

/-- The Signal Box after the next comparator group and the watchdogs were looked at. -/
def checkNoted (watchdogsOk : Bool) (s : State) : State :=
  { s with sb := { s.sb with checkGroup := (s.sb.checkGroup + 1) % 64, wdogBroken := s.sb.wdogBroken || !watchdogsOk } }

theorem sbSelfCheck_signalled (c w : Bool) (hup : s.sb.restarting = false) (hruns : ifewinRuns s = true) :
    Signalled (checkNoted w s) (sbSelfCheck c w s) := by
  rw [sbSelfCheck, if_neg (by simp [hup, hruns])]
  exact .ite (.refl _) (goDegraded_signalled _)

/-- A request that waited in a mailbox during the restart is refused. -/
def refuseWaiting (t : State) (m : Nat) : State :=
  if (getBox t m).busy then
    respond (mkReq m (getBox t m).owned (if m = 2 then t.sb.bmcEid else none) (getBox t m).req) 0x5231 [] t
  else t

theorem sbRestarted_of_restarting (h : s.sb.restarting = true) :
    sbRestarted s = [1, 2, 3].foldl refuseWaiting { s with sb := { s.sb with restarting := false } } :=
  if_neg (by simp [h])

/-- The mailbox of a request that was refused is free. -/
theorem refuseWaiting_frees (t : State) (m : Nat) : (getBox (refuseWaiting t m) m).busy = false := by
  unfold refuseWaiting
  split
  · exact congrArg Mailbox.busy (getBox_placeRsp_same (mkReq m _ _ _) _ t)
  · next h => exact Bool.eq_false_of_not_eq_true h

/-- A mailbox that is free stays so when a response is placed in any of the three. -/
theorem modBox_answered_free {k : Nat} (m : Nat) (q : Req) (r : Rsp) (h : (getBox s k).busy = false) :
    (getBox (modBox m (answered q r) s) k).busy = false := by
  rcases getBox_modBox_cases m k (answered q r) s with hbox | hbox <;> rw [hbox]
  · rfl
  · exact h

theorem refuseWaiting_keeps_free {t : State} {k : Nat} (m : Nat) (h : (getBox t k).busy = false) : (getBox (refuseWaiting t m) k).busy = false := by
  unfold refuseWaiting
  split
  · exact ((placeRsp_signalled ..).busy k).trans (modBox_answered_free _ _ _ h)
  · exact h

theorem modBox_restarting (m : Nat) (g : Mailbox → Mailbox) (s : State) : (modBox m g s).sb.restarting = s.sb.restarting := by
  unfold modBox
  split_ifs <;> rfl

theorem refuseWaiting_restarting (t : State) (m : Nat) : (refuseWaiting t m).sb.restarting = t.sb.restarting := by
  unfold refuseWaiting
  split
  · exact (placeRsp_signalled ..).restarting.trans (modBox_restarting ..)
  · rfl

/-- The end of a restart leaves the three mailboxes free. -/
theorem refuseWaiting_all (t : State) : let u := [1, 2, 3].foldl refuseWaiting t
    u.sb.restarting = t.sb.restarting ∧ u.sb.host.busy = false ∧ u.sb.bmc.busy = false ∧ u.sb.fm.busy = false := by
  refine ⟨?_, refuseWaiting_keeps_free 3 (refuseWaiting_keeps_free 2 (refuseWaiting_frees t 1)),
    refuseWaiting_keeps_free 3 (refuseWaiting_frees _ 2), refuseWaiting_frees _ 3⟩
  simp only [List.foldl_cons, List.foldl_nil, refuseWaiting_restarting]

/-! ### Pins (17 R442) -/

/-- A pin's sample is counted and perhaps told. -/
theorem samplePin_signalled (s0 : State) (high : BitVec 5) (t : State) (k : Nat) : Signalled t (samplePin s0 high t k) := by
  have hcount (runs : Sp Nat) : Signalled t { t with host := { t.host with highRuns := runs } } := .of_host rfl rfl rfl
  exact .ite (((hcount _).trans (mismatchSet_signalled ..)).trans (postRec_signalled ..)) (hcount _)

theorem pinSample_levels (high : BitVec 5) (s : State) : (pinSample high s).host.levels = high :=
  (Signalled.foldl (samplePin_signalled s high) [0, 1, 2] { s with host := { s.host with levels := high } }).levels

end

/-- Settles O60: each row past the conditions that let it occur, and what the event path leaves (`Signalled`). -/
theorem resetsStartsAndPins : Obligations.ResetsStartsAndPins := by
  unfold Obligations.ResetsStartsAndPins
  refine fun s => ⟨fun hperst => ?_, fun hperst aon => ?_, fun flush hwdog hperst hgood => ⟨fun hphase => ?_, fun hphase => ?_⟩,
    fun f hphase hup hcool => ⟨fun hfault => ?_, fun hfuse hnone => ?_, fun t hfuse himage => ⟨fun hwhole => ?_, fun hpart => ?_⟩⟩,
    fun f k cause hphase hpending hrest => congrArg Host.Outcome.next (startRow_of_pending f hphase hpending hrest),
    fun hup hphase => ⟨fun i hi => ?_, fun c w => ?_⟩, fun hdown => ?_, fun high => ⟨_, rfl, pinSample_levels high s⟩, rfl,
    fun hperst hon => ?_⟩
  · refine ⟨_, congrArg Host.Outcome.next (perstAssert_of_high hperst), rfl, rfl, ?_, fun hgood => ?_⟩
    · cases s.boot.suppliesGood <;> rfl
    · rw [hgood]
      exact ⟨rfl, rfl, rfl, rfl, rfl⟩
  · cases aon with
    | true => exact ⟨_, congrArg Host.Outcome.next (supplyLoss_alwaysOn s), rfl, rfl, rfl, rfl, rfl, rfl, rfl⟩
    | false => exact ⟨_, congrArg Host.Outcome.next (supplyLoss_others hperst), rfl, rfl, rfl, rfl, rfl, rfl, rfl⟩
  · exact congrArg Host.Outcome.next (deviceWatchdog_of_ready flush hwdog hperst hgood hphase)
  · exact ⟨_, congrArg Host.Outcome.next (deviceWatchdog_of_starting flush hwdog hperst hgood hphase), rfl, startAgain_nextStart s,
      startAgain_phase s⟩
  · exact ⟨_, congrArg Host.Outcome.next (startRow_of_starting f hphase hup), startRun_of_copyFault hcool hfault⟩
  · exact ⟨_, congrArg Host.Outcome.next (startRow_of_starting f hphase hup), startRun_of_noImage hcool hfuse hnone⟩
  · exact congrArg Host.Outcome.next ((startRow_of_starting f hphase hup).trans (startRun_whole hcool hfuse himage hwhole))
  · have hrow := (startRow_of_starting f hphase hup).trans (startRun_bootOnly hcool hfuse himage hpart)
    obtain ⟨fw, b, rfl⟩ := chosenImage himage
    exact ⟨_, congrArg Host.Outcome.next hrow, hphase, rfl, rfl, rfl⟩
  · have hexec : exec i s = .next (sbRestart s) := by fin_cases hi <;> rfl
    have htold := sbRestart_signalled hup (ifewinRuns_of_phase hphase)
    have hrep := htold.reported
    exact ⟨_, hexec, htold.restarting, hrep.cores, hrep.parts, hrep.sess, hrep.rings, hrep.mem⟩
  · have htold := sbSelfCheck_signalled c w hup (ifewinRuns_of_phase hphase)
    exact ⟨_, rfl, htold.checkGroup, by rw [htold.wdogBroken]; simp [checkNoted]⟩
  · exact ⟨_, congrArg Host.Outcome.next (sbRestarted_of_restarting hdown), refuseWaiting_all _⟩
  · exact congrArg Host.Outcome.next (if_pos (by simp [hperst, hon]))

end Sys2Proof.Machine
end

section
/-!
PROOF. What stands through every step (15 R391, 14 R372, 12 R324), and that it holds at reset: `Kept` says both of every operation.
-/

namespace Sys2Proof.Machine

/-- Settles O3: `Kept` speaks of the three fields of `Standing`, and every step keeps them. -/
theorem standingKept : Obligations.StandingKept := fun _ _ _ hstanding hstep => (step_kept hstep).standing hstanding

/-- Settles O4: the fused policy orders the three kinds, and CHK_MODE starts at 0. -/
theorem standingAtReset : Obligations.StandingAtReset := ⟨by decide, by decide, rfl⟩

end Sys2Proof.Machine
end

section
/-!
PROOF. 14_signal_box_mailboxes.md: a repeated request (R367).
-/

namespace Sys2Proof.Machine

theorem serve_of_repeats {c : Cmd} {h : Req → State → Reply} {q : Req} {t : State} (hrep : Repeats q t) :
    serve c h q t = placeRsp q (getBox t q.master).lastRsp t :=
  if_pos hrep

/-- Settles O37: the comparison with the last Ready request comes before every check and before the command itself. -/
theorem repeatedRequestGetsStoredResponse : Obligations.RepeatedRequestGetsStoredResponse := by
  unfold Obligations.RepeatedRequestGetsStoredResponse
  intro sub s q t i c hcmd hreach hrep
  obtain ⟨h, hexec⟩ := exec_of_mailCommands hcmd
  rw [hexec, mailRow_eq_serve hreach, serve_of_repeats hrep]

end Sys2Proof.Machine
end

section
/-!
PROOF. 14_signal_box_mailboxes.md: the TEL commands (R382, 16 R409, R417): each handler's reply past its checks.
-/

namespace Sys2Proof.Machine

section
variable {q : Req} {s : State}

theorem sensorsH_ok (hwhat : q.f 0 1 ≤ 4) :
    let l := ((sensorRecords s (q.f 0 1)).drop (q.f 4 4)).take (4064 / sensorSize (q.f 0 1))
    sensorsH q s = .ok s (leBytes l.length 2 ++ List.replicate 14 0 ++ l.flatten) :=
  checked_pass (decide_eq_false (by omega))

theorem powerLimitH_ok (hlow : 500 ≤ q.f 0 2) (hhigh : q.f 0 2 ≤ fusedWatts s) :
    powerLimitH q s = .ok { s with cfg := { s.cfg with powerLimit := some (q.f 0 2) } } [] :=
  checked_pass (decide_eq_false (by omega))

theorem powerLimitH_no (hout : q.f 0 2 < 500 ∨ fusedWatts s < q.f 0 2) : powerLimitH q s = .no 0x5101 :=
  checked_fail (decide_eq_true hout)

end

/-- Settles O46: each command's reply past its checks; TEL EVENTS keeps every record of its master's queue. -/
theorem telemetryCommands : Obligations.TelemetryCommands := by
  unfold Obligations.TelemetryCommands
  refine fun sub s q t => ⟨fun hs => mail_of_ok hs rfl, fun hs hwhat => mail_of_ok hs (sensorsH_ok hwhat), fun hs hlow hhigh => ?_, fun hs =>
    ⟨fun hlow hhigh => mail_of_ok hs (powerLimitH_ok hlow hhigh), fun hout => mail_of_no hs (powerLimitH_no hout)⟩⟩
  have hreply := eventsH_ok (s := t) (fun _ => true) hlow hhigh
  rw [List.filter_true] at hreply
  exact mail_of_ok hs hreply

end Sys2Proof.Machine
end

section
/-!
PROOF. 14_signal_box_mailboxes.md: the ownership of the device (R369 to R373, R376): what a change of the Interlocking leaves, each OWN
command's reply past its checks, and the Interlocking's own events.
-/

namespace Sys2Proof.Machine

section
variable {s t : State} {q : Req}

/-! ### A change of the Interlocking (R371) -/

theorem Reported.cfg (h : Reported s t) : t.cfg = s.cfg := by rw [← h]

theorem Reported.ftime (h : Reported s t) : t.ftime = s.ftime := by rw [← h]

/-- What setting a flag does to the Signal Box: the notification changes nothing of it. -/
theorem sbSet_sb (m b : Nat) (s : State) : (sbSet m b s).sb =
    (modBox m (fun x => { x with flags := x.flags ||| bitOf 8 b, cnt := bump x.cnt b }) s).sb := by
  unfold sbSet
  extract_lets was s1
  split
  · rfl
  · exact notify_sb ..

/-- A flag that is set stays set when any flag of any master is set. -/
theorem flag_sbSet_of_set {k c : Nat} (m b : Nat) (h : (getBox s k).flags.getLsbD c = true) : (getBox (sbSet m b s) k).flags.getLsbD c = true := by
  rw [getBox, sbSet_sb, ← getBox]
  rcases getBox_modBox_cases m k _ s with hbox | hbox <;> rw [hbox]
  · rw [BitVec.getLsbD_or, h, Bool.true_or]
  · exact h

theorem flag_sbSet_same {b : Nat} (m : Nat) (s : State) (h : b < 8) : (getBox (sbSet m b s) m).flags.getLsbD b = true := by
  rw [getBox_sbSet_same]
  exact getLsbD_or_bitOf _ h

theorem ownChange_reported (code : Code) (s : State) : Reported s (ownChange code s) :=
  (post_reported ..).trans (.foldl (fun _ _ => sbSet_reported ..) _ _)

/-- OWNER_CHANGED is set for all three masters. -/
theorem ownChange_flags (code : Code) (s : State) : ∀ k, k = 1 ∨ k = 2 ∨ k = 3 → (getBox (ownChange code s) k).flags.getLsbD 4 = true := by
  rintro k (rfl | rfl | rfl)
  · exact flag_sbSet_of_set 3 4 (flag_sbSet_of_set 2 4 (flag_sbSet_same 1 _ (by decide)))
  · exact flag_sbSet_of_set 3 4 (flag_sbSet_same 2 _ (by decide))
  · exact flag_sbSet_same 3 _ (by decide)

/-- The Interlocking after a claim, its lease just begun (R373). -/
def claimedBy (m : Nat) (s : State) : State := renewLease { s with lock := { st := .owned, owner := m } }

theorem takeOwner_reported (m : Nat) (s : State) : Reported (claimedBy m s) (takeOwner m s) := ownChange_reported ..

/-! ### STATUS, CLAIM and RENEW (R371 to R373, R376) -/

/-- The owner, or the owner that offers the device, is the requester. -/
abbrev Owns (q : Req) (t : State) : Prop := t.lock.st ≠ .unowned ∧ t.lock.owner = q.master

/-- The device is offered to the requester. -/
abbrev OfferedTo (q : Req) (t : State) : Prop := t.lock.st = .offered ∧ t.lock.owner ≠ q.master ∧ t.lock.offerTo = q.master

theorem claimH_of_unowned (hst : t.lock.st = .unowned) :
    claimH q t = if outranked t q.master then .no 0x5111 else okStatus q (takeOwner q.master t) := by
  simp [claimH, hst]

theorem claimH_of_owns (h : Owns q t) : claimH q t = okStatus q t := by
  obtain ⟨hst, howner⟩ := h
  cases hlock : t.lock.st with
  | unowned => exact absurd hlock hst
  | owned => simp [claimH, hlock, howner]
  | offered => simp [claimH, hlock, howner]

theorem claimH_of_offeredTo (h : OfferedTo q t) : claimH q t = okStatus q (takeOwner q.master t) := by
  obtain ⟨hst, hother, hto⟩ := h
  simp [claimH, hst, hother, hto]

theorem claimH_of_foreign (hst : t.lock.st ≠ .unowned) (howns : ¬Owns q t) (hoffer : ¬OfferedTo q t) : claimH q t = .no 0x5111 := by
  have hother : t.lock.owner ≠ q.master := fun h => howns ⟨hst, h⟩
  cases hlock : t.lock.st with
  | unowned => exact absurd hlock hst
  | owned => simp [claimH, hlock, hother]
  | offered =>
    have hto : t.lock.offerTo ≠ q.master := fun h => hoffer ⟨hlock, hother, h⟩
    simp [claimH, hlock, hother, hto]

/-! ### The other commands of OWN (R370 to R372, R376) -/

/-- The device is offered to a kind for one second. -/
def offeredTo (kind : Nat) (t : State) : State :=
  ownChange 0x0522 { t with lock := { t.lock with st := .offered, offerTo := kind, offerEnd := t.ftime + 1000000000 } }

/-- HANDOVER names no kind beyond the three and not the owner itself. -/
abbrev HandoverFaulty (q : Req) (t : State) : Prop := 3 < q.f 0 1 ∨ (q.f 0 1 ≠ 0 ∧ q.f 0 1 = t.lock.owner)

theorem handoverH_no (h : HandoverFaulty q t) : handoverH q t = .no 0x5101 := checked_fail (decide_eq_true h)

theorem handoverH_offer (h : ¬HandoverFaulty q t) (hto : q.f 0 1 ≠ 0) : handoverH q t = okStatus q (offeredTo (q.f 0 1) t) :=
  (checked_pass (decide_eq_false h)).trans (if_neg hto)

/-- HANDOVER to no kind withdraws the offer, if one stands. -/
theorem handoverH_withdraw (hto : q.f 0 1 = 0) : handoverH q t = okStatus q (if t.lock.st = .offered then offerOver t else t) :=
  (checked_pass (decide_eq_false (by omega))).trans (if_pos hto)

theorem clearH_ok (hmask : q.f 0 4 < 256) :
    let u := modBox q.master (fun x => { x with flags := x.flags &&& ~~~BitVec.ofNat 8 (q.f 0 4) }) t
    clearH q t = .ok u (leBytes (getBox u q.master).flags.toNat 4) :=
  checked_pass (decide_eq_false (by omega))

/-- The three kinds that a POLICY names, from the first to the last. -/
abbrev prioKinds (q : Req) : List Nat := [fld (q.f 0 1) 1 0, fld (q.f 0 1) 3 2, fld (q.f 0 1) 5 4]

theorem policyH_eq (hprio : q.f 0 1 < 64) (hrights : q.f 1 1 < 4) :
    let new : Policy :=
      { prio := BitVec.ofNat 6 (q.f 0 1), fabToFm := tbit (q.f 1 1) 0, fmAny := tbit (q.f 1 1) 1, fmId := BitVec.ofNat 16 (q.f 2 2) }
    policyH q t = checked [(sortNat (prioKinds q) != [1, 2, 3], 0x5101)] (.ok { t with cfg := { t.cfg with policy := new } } []) :=
  checked_pass (decide_eq_false (by omega))

theorem resetH_eq (hmode : q.f 0 1 < 2) :
    let u := if q.force then cutAll t else t
    resetH q t = checked [(!q.force && !(activeParts t).isEmpty, 0x5123)]
      (.ok { u with boot := { u.boot with resetPending := some (if q.f 0 1 = 0 then (.warm, 4) else (.cold, 5)) } } []) :=
  checked_pass (decide_eq_false (by omega))

end

/-- Settles O39: each command's reply in each state of the Interlocking; a claim is a change of the Interlocking. -/
theorem statusClaimRenew : Obligations.StatusClaimRenew := by
  unfold Obligations.StatusClaimRenew
  refine ⟨fun sub s q t => ⟨fun hs => mail_of_ok hs rfl, fun hs => mail_of_ok hs rfl, fun hs => ⟨fun hst hfirst => mail_of_ok hs ?_,
    fun hst hlater => mail_of_no hs ?_, fun howns => mail_of_ok hs (claimH_of_owns howns), fun hoffer => mail_of_ok hs (claimH_of_offeredTo hoffer),
    fun hst howns hoffer => mail_of_no hs (claimH_of_foreign hst howns hoffer)⟩⟩, fun m s _ => ?_⟩
  · exact (claimH_of_unowned hst).trans (if_neg (by simp [hfirst]))
  · exact (claimH_of_unowned hst).trans (if_pos hlater)
  · have hrep := takeOwner_reported m s
    have hlock := hrep.lock
    exact ⟨congrArg Interlock.st hlock, congrArg Interlock.owner hlock, congrArg Interlock.leaseEnd hlock, congrArg Interlock.warned hlock,
      ownChange_flags _ _, hrep.parts, hrep.cores, hrep.mem, hrep.cfg, hrep.sess⟩

/-- Settles O40: each command's reply past its checks, and the events of the Interlocking as changes of it. -/
theorem ownershipChanges : Obligations.OwnershipChanges := by
  unfold Obligations.OwnershipChanges
  refine ⟨fun sub s q t => ⟨fun hs => ⟨fun hlow hhigh hother => mail_of_ok hs (handoverH_offer (by omega) (by omega)),
      fun hto hst => mail_of_ok hs ?_, fun hto hst => mail_of_ok hs ?_, fun hbad => mail_of_no hs (handoverH_no hbad)⟩, fun hs => mail_of_ok hs rfl,
      fun hs hmask => mail_of_ok hs (clearH_ok hmask), fun hs hprio hrights => ⟨fun hperm => mail_of_ok hs ?_, fun hperm => mail_of_no hs ?_⟩,
      fun hs hmode => ⟨fun hrest => mail_of_ok hs ?_, fun hforce hactive => mail_of_no hs ?_⟩⟩,
    fun s ident => ⟨fun hst hwarned => ?_, fun hst => ?_, fun hst => ?_, fun hfrom => ?_⟩⟩
  · exact (handoverH_withdraw hto).trans (by rw [if_pos hst]; rfl)
  · exact (handoverH_withdraw hto).trans (by rw [if_neg hst]; rfl)
  · exact (policyH_eq hprio hrights).trans (checked_pass (bne_eq_false_iff_eq.mpr hperm))
  · exact (policyH_eq hprio hrights).trans (checked_fail (bne_iff_ne.mpr hperm))
  · exact (resetH_eq hmode).trans (checked_pass (by rcases hrest with h | h <;> simp [h]))
  · exact (resetH_eq hmode).trans (checked_fail (by simp [hforce, hactive]))
  · exact congrArg Host.Outcome.next (if_neg (by simp [hst, hwarned]))
  · have hrep := ownChange_reported 0x0521 { timeTo s.lock.leaseEnd s with lock := {} }
    exact ⟨_, congrArg Host.Outcome.next (if_neg hst), hrep.lock, (Nat.le_max_right ..).trans_eq hrep.ftime.symm, ownChange_flags _ _,
      hrep.parts, hrep.sess, hrep.mem⟩
  · have hlock : (offerOver (timeTo s.lock.offerEnd s)).lock = { s.lock with st := .owned, offerTo := 0 } := (ownChange_reported ..).lock
    exact ⟨_, congrArg Host.Outcome.next (if_pos hst), by rw [hlock], by rw [hlock], by rw [hlock]⟩
  · exact congrArg Host.Outcome.next (if_pos (by simpa using hfrom))

end Sys2Proof.Machine
end

section
/-!
PROOF. Folds: what the step at one element gives at the end of a fold.
-/

namespace Sys2Proof.Machine

/-- A fold reaches what the step at one of its elements gives, if every step keeps it and what it rests on. -/
theorem foldl_reaches {α β : Type} {f : β → α → β} {I Q : β → Prop} {l : List α} {a : α} {b : β}
    (hkeep : ∀ t, ∀ x ∈ l, I t → I (f t x)) (hstay : ∀ t, ∀ x ∈ l, I t → Q t → Q (f t x)) (hgive : ∀ t, I t → Q (f t a)) (ha : a ∈ l) (hb : I b) : Q (l.foldl f b) := by
  induction l generalizing b with
  | nil => exact absurd ha List.not_mem_nil
  | cons x l ih =>
    have hx := hkeep b x List.mem_cons_self hb
    have hkeep' := fun t y hy => hkeep t y (List.mem_cons_of_mem x hy)
    have hstay' := fun t y hy => hstay t y (List.mem_cons_of_mem x hy)
    rcases List.mem_cons.mp ha with rfl | ha
    · exact (List.foldlRecOn (motive := fun t => I t ∧ Q t) l f ⟨hx, hgive b hb⟩
        fun t ⟨hI, hQ⟩ y hy => ⟨hkeep' t y hy hI, hstay' t y hy hI hQ⟩).2
    · exact ih hkeep' hstay' ha hx

end Sys2Proof.Machine
end

section
/-!
PROOF. 16_power_and_heat.md: samples and the clamp (R403, R411), the thermal model and the orderly stop (R404, R413, R414), diodes (R405),
duty (R410), the brake and the trip (R412, R415).
-/

namespace Sys2Proof.Machine

/-! ### What the event path and a power-down leave of the pins -/

/-- The pins ALERT_N and THERMTRIP_N as the device drives them. -/
def drivenPins (s : State) : Bool × Bool := (s.host.alertAon, s.host.thermDrive)

section
variable {s t : State}

@[simp] theorem drivenPins_ite {c : Prop} [Decidable c] : drivenPins (if c then s else t) = if c then drivenPins s else drivenPins t :=
  apply_ite drivenPins c s t

theorem drivenPins_foldl {α : Type} {f : State → α → State} (hf : ∀ s x, drivenPins (f s x) = drivenPins s) (l : List α) (s : State) :
    drivenPins (l.foldl f s) = drivenPins s :=
  List.foldlRecOn (motive := fun t => drivenPins t = drivenPins s) l f rfl fun t ht x _ => (hf t x).trans ht

@[simp] theorem drivenPins_modFn (f : Nat) (g : HostFn → HostFn) (s : State) : drivenPins (modFn f g s) = drivenPins s := rfl

@[simp] theorem drivenPins_emit (o : Out) (s : State) : drivenPins (emit o s) = drivenPins s := rfl

@[simp] theorem drivenPins_modBox (m : Nat) (g : Mailbox → Mailbox) (s : State) : drivenPins (modBox m g s) = drivenPins s := by
  rw [drivenPins, modBox_host, ← drivenPins]

@[simp] theorem drivenPins_msix (f v : Nat) (s : State) : drivenPins (msix f v s) = drivenPins s := by simp [msix]

@[simp] theorem drivenPins_hiSet (f b : Nat) (s : State) : drivenPins (hiSet f b s) = drivenPins s := by simp [hiSet]

@[simp] theorem drivenPins_notify (m b : Nat) (s : State) : drivenPins (notify m b s) = drivenPins s := by simp [notify]

@[simp] theorem drivenPins_sbSet (m b : Nat) (s : State) : drivenPins (sbSet m b s) = drivenPins s := by simp [sbSet]

@[simp] theorem drivenPins_enqueue (m : Nat) (ev : EvRec) (s : State) : drivenPins (enqueue m ev s) = drivenPins s := by simp [enqueue]

@[simp] theorem drivenPins_postRec (ev : EvRec) (also : List Nat) (s : State) : drivenPins (postRec ev also s) = drivenPins s :=
  drivenPins_foldl (fun _ _ => by simp) _ _

/-- A change of the host interface that leaves them, and perhaps a set of HI_STATUS with it. -/
theorem drivenPins_host {h : HostIf} (b : Nat) (was : Bool) (hpins : (h.alertAon, h.thermDrive) = drivenPins s) :
    drivenPins (if was = true then { s with host := h } else hiSet 0 b { s with host := h }) = drivenPins s := by
  have hchanged : drivenPins { s with host := h } = drivenPins s := hpins
  simp [hchanged]

@[simp] theorem drivenPins_jnSet (b : Nat) (s : State) : drivenPins (jnSet b s) = drivenPins s := drivenPins_host _ _ rfl

@[simp] theorem drivenPins_rewriteReport (s : State) : drivenPins (rewriteReport s) = drivenPins s := by
  unfold rewriteReport
  split <;> rfl

theorem drivenPins_portsLost (s : State) : drivenPins (portsLost s) = drivenPins s :=
  drivenPins_foldl (fun _ _ => by simp [portEvent, postD]) _ _

/-! ### Domains off (R414 step 5, R415) -/

theorem rewriteReport_boot (s : State) : (rewriteReport s).boot = s.boot := by unfold rewriteReport; split <;> rfl

theorem domainsDown_boot (cause : Nat) (s : State) :
    (domainsDown cause s).boot = { (domainsLost s).boot with phase := .stopped, domainsOff := true, lastStop := cause } := rewriteReport_boot _

theorem domainsDown_cores (cause : Nat) (s : State) : (domainsDown cause s).cores = [] := rewriteReport_cores _

theorem domainsDown_pins (cause : Nat) (s : State) : drivenPins (domainsDown cause s) = drivenPins s :=
  (drivenPins_rewriteReport _).trans (drivenPins_portsLost s)

/-- ALERT_N is driven. -/
def alerted (s : State) : State := { s with host := { s.host with alertAon := true } }

theorem domainsDown_alerted (cause : Nat) (s : State) : let u := domainsDown cause (alerted s)
    u.boot.domainsOff = true ∧ u.boot.phase = .stopped ∧ u.boot.lastStop = cause ∧ u.host.alertAon = true ∧ u.cores = [] := by
  dsimp only
  rw [domainsDown_boot]
  exact ⟨rfl, rfl, rfl, congrArg Prod.fst (domainsDown_pins cause (alerted s)), domainsDown_cores ..⟩

/-- An orderly stop ends in the power-down, with ALERT_N driven. -/
theorem thermalStop_eq (s : State) : ∃ u, thermalStop s = domainsDown 2 (alerted u) := ⟨_, rfl⟩

theorem thermalStop_leaves (s : State) : (thermalStop s).boot.domainsOff = true ∧ (thermalStop s).boot.phase = .stopped
    ∧ (thermalStop s).boot.lastStop = 2 ∧ (thermalStop s).host.alertAon = true ∧ (thermalStop s).cores = [] := by
  obtain ⟨u, hu⟩ := thermalStop_eq s
  rw [hu]
  exact domainsDown_alerted 2 u

/-- The device once THERMTRIP_N is asserted, before the trip is told. -/
def tripped (s : State) : State := let u := allDown 3 s; { u with host := { u.host with thermDrive := true } }

theorem thermtrip_of_trips {d : Nat} {a b : Int} (hdrive : s.host.thermDrive = false) (htrips : trips s d a b = true) :
    thermtrip d a b s = post 0x6211 0 0 (tripped s) :=
  if_pos (by simp [hdrive, htrips])

theorem thermtrip_leaves (s : State) : let u := post 0x6211 0 0 (tripped s)
    u.boot = { (domainsLost s).boot with phase := .stopped, domainsOff := true, lastStop := 3, pcieOff := true } ∧ u.cores = [] ∧ u.rings = []
      ∧ u.sess = [] ∧ drivenPins u = drivenPins (tripped s) := by
  have htold := post_reported 0x6211 0 0 (tripped s)
  have hboot : (tripped s).boot = { (domainsDown 3 s).boot with pcieOff := true } := rfl
  rw [domainsDown_boot] at hboot
  exact ⟨htold.boot.trans hboot, htold.cores.trans (domainsDown_cores 3 s), htold.rings, htold.sess, drivenPins_postRec ..⟩

/-! ### Samples and the clamp (R403, R411) -/

theorem clampStep_of_over (hfree : s.heat.clamp = none) (hover : 1000 * pkgLimit s < pkgPower10 s) :
    clampStep s = { s with heat := { s.heat with
      clamp := some (max 500 (920000 * pkgLimit s / pkgPower10 s)), clampOkSince := none } } := by
  simp [clampStep, hfree, hover]

theorem clampStep_of_within (hfree : s.heat.clamp = none) (hin : pkgPower10 s ≤ 1000 * pkgLimit s) : clampStep s = s := by
  simp [clampStep, hfree, Nat.not_lt.mpr hin]

theorem clampRelease_of_kept {f since : Nat} (hclamp : s.heat.clamp = some f) (hsince : s.heat.clampOkSince = some since) :
    let t := timeTo (since + 1000000) s
    exec .clampRelease s = .next { t with heat := { t.heat with clamp := none, clampOkSince := none } } := by
  refine Eq.trans (b := execClampRelease s) rfl ?_
  simp [execClampRelease, hclamp, hsince]

/-! ### The thermal model (R404, R413) -/

/-- The device after a step of its thermal model, the refresh intervals not yet looked at. -/
def modelled (s : State) : State :=
  let w := timeTo ((s.heat.modelTick + 1) * 10000) s
  let temps := (List.range 512).map (fun n => spGet coldTemp s.heat.nodes n)
  { w with heat := { w.heat with
    nodes := (List.range 512).foldl (fun m n => spSet coldTemp m n (Config.thermalStep n temps (lastSample s))) [], modelTick := w.ftime / 10000 } }

/-- The same with the refresh interval of each stack looked at. -/
def refreshed (s : State) : State := (List.range 8).foldl (fun t k => refreshStep k t) (modelled s)

theorem spGet_foldl_spSet {α : Type} [DecidableEq α] (d : α) (v : Nat → α) {l : List Nat} {n : Nat} (m : Sp α) (hn : n ∈ l) :
    spGet d (l.foldl (fun m n => spSet d m n (v n)) m) n = v n := by
  refine foldl_reaches (I := fun _ => True) (Q := fun m => spGet d m n = v n) (fun _ _ _ _ => trivial) (fun m k _ _ h => ?_)
    (fun m _ => spGet_spSet_same ..) hn trivial
  by_cases hk : n = k
  · rw [← hk, spGet_spSet_same]
  · rwa [spGet_spSet_other _ _ _ _ _ hk]

/-- Every node takes the value of the model's step. -/
theorem modelled_node {n : Nat} (s : State) (hn : n < 512) : spGet coldTemp (modelled s).heat.nodes n =
    Config.thermalStep n ((List.range 512).map (fun n => spGet coldTemp s.heat.nodes n)) (lastSample s) := by
  simp only [modelled]
  exact spGet_foldl_spSet _ (fun n => Config.thermalStep n _ (lastSample s)) [] (List.mem_range.mpr hn)

theorem thermalModelUpdate_eq (s : State) : thermalModelUpdate s =
    let t := if (modelled s).boot.domainsOff then modelled s else refreshed s
    if t.boot.domainsOff || t.heat.stopping || !mustStop t then t else thermalStop t := rfl

/-- A look at a stack's refresh interval changes nothing that decides about a stop but the stack's own mark. -/
theorem refreshStep_keeps (k : Nat) (s : State) : (refreshStep k s).boot = s.boot ∧ (refreshStep k s).heat.stopping = s.heat.stopping := by
  unfold refreshStep
  extract_lets hot
  split_ifs
  · exact ⟨rfl, rfl⟩
  · exact ⟨(post_reported ..).boot, by rw [(post_reported ..).heat]⟩
  · exact ⟨(post_reported ..).boot, by rw [(post_reported ..).heat]⟩

theorem refreshSteps_keep (l : List Nat) (s : State) : let t := l.foldl (fun t k => refreshStep k t) s
    t.boot = s.boot ∧ t.heat.stopping = s.heat.stopping := by
  induction l generalizing s with
  | nil => exact ⟨rfl, rfl⟩
  | cons k l ih =>
    obtain ⟨hboot, hstop⟩ := ih (refreshStep k s)
    obtain ⟨hboot', hstop'⟩ := refreshStep_keeps k s
    exact ⟨hboot.trans hboot', hstop.trans hstop'⟩

theorem modelled_keeps (s : State) : (modelled s).boot = s.boot ∧ (modelled s).heat.stopping = s.heat.stopping := by
  simp only [modelled, timeTo, and_self]

theorem refreshed_keeps (s : State) : (refreshed s).boot = s.boot ∧ (refreshed s).heat.stopping = s.heat.stopping := by
  obtain ⟨hboot, hstop⟩ := refreshSteps_keep (List.range 8) (modelled s)
  obtain ⟨hboot', hstop'⟩ := modelled_keeps s
  rw [refreshed, hboot, hstop]
  exact ⟨hboot', hstop'⟩

theorem thermalModelUpdate_of_off (hoff : s.boot.domainsOff = true) : thermalModelUpdate s = modelled s := by
  have hm : (modelled s).boot.domainsOff = true := by rw [(modelled_keeps s).1, hoff]
  simp [thermalModelUpdate_eq, hm]

theorem thermalModelUpdate_of_on (hon : s.boot.domainsOff = false) : thermalModelUpdate s =
    if s.heat.stopping = false ∧ mustStop (refreshed s) = true then thermalStop (refreshed s) else refreshed s := by
  have hm : (modelled s).boot.domainsOff = false := by rw [(modelled_keeps s).1, hon]
  obtain ⟨hboot, hstop⟩ := refreshed_keeps s
  rw [thermalModelUpdate_eq]
  cases hs : s.heat.stopping <;> cases hmust : mustStop (refreshed s) <;> simp [hm, hboot, hon, hstop, hs, hmust]

/-! ### Diodes (R405) -/

/-- From s to t every diode's reading is as it was. -/
def SameReadings (s t : State) : Prop := ∀ d, (diode t d).reading = (diode s d).reading

theorem SameReadings.refl (s : State) : SameReadings s s := fun _ => rfl

theorem SameReadings.trans {u : State} (h : SameReadings s t) (k : SameReadings t u) : SameReadings s u := fun d => (k d).trans (h d)

theorem SameReadings.of_diodes (h : t.heat.diodes = s.heat.diodes) : SameReadings s t := fun d => by rw [diode, h, ← diode]

/-- Findings about diodes or regions noted, and told by an event and a flag of TH_STATUS. -/
theorem SameReadings.told (h : SameReadings s t) (b : Nat) (code : Code) : SameReadings s (thSet b (post code 0 0 t)) :=
  h.trans (.of_diodes (congrArg Heat.diodes ((post_reported ..).trans (thSet_reported ..)).heat))

theorem SameReadings.foldl {α : Type} {f : State → α → State} (hf : ∀ s x, SameReadings s (f s x)) (l : List α) (s : State) :
    SameReadings s (l.foldl f s) :=
  List.foldlRecOn l f (.refl s) fun t h x _ => h.trans (hf t x)

/-- A change of one diode that leaves its reading. -/
theorem setDiode_readings {d : Nat} {y : Diode} (hy : y.reading = (diode s d).reading) :
    SameReadings s { s with heat := { s.heat with diodes := spSet {} s.heat.diodes d y } } := by
  intro k
  by_cases hk : k = d
  · rw [hk, ← hy]
    exact congrArg Diode.reading (spGet_spSet_same ..)
  · exact congrArg Diode.reading (spGet_spSet_other _ _ _ _ _ hk)

theorem checkDiode_readings (s₀ s : State) (d : Nat) : SameReadings s (checkDiode s₀ s d) := by
  unfold checkDiode
  extract_lets x others miss y _ s1
  have h1 : SameReadings s s1 := setDiode_readings rfl
  split_ifs
  · exact .refl s
  · exact h1
  · exact h1.told 2 0x6201

theorem checkRegion_readings (s : State) (r : Nat) : SameReadings s (checkRegion s r) := by
  unfold checkRegion
  extract_lets hs was far now
  split_ifs
  · exact .refl s
  · exact .told (.of_diodes (by dsimp only)) 2 0x6202
  · exact .of_diodes (by dsimp only)

theorem moveOffset_readings (s : State) (r : Nat) : SameReadings s (moveOffset s r) := by
  unfold moveOffset
  extract_lets hs k
  split_ifs
  · exact .refl s
  · exact .of_diodes (by dsimp only)

/-- The 96 readings of a check put in place. -/
def putReadings (readings : List Int) (m : Sp Diode) : Sp Diode :=
  (List.range 96).foldl (fun m d => match readings[d]? with
    | some v => spMod {} m d (fun x => { x with reading := v })
    | none => m) m

theorem putReadings_reading {readings : List Int} {d : Nat} {v : Int} (m : Sp Diode) (hd : d < 96) (hv : readings[d]? = some v) :
    (spGet {} (putReadings readings m) d).reading = v := by
  refine foldl_reaches (I := fun _ => True) (Q := fun m => (spGet ({} : Diode) m d).reading = v) (fun _ _ _ _ => trivial) (fun m k _ _ h => ?_)
    (fun m _ => ?_) (List.mem_range.mpr hd) trivial
  · split
    · next w hw =>
      by_cases hk : d = k
      · subst hk
        rw [spGet_spMod_same]
        exact Option.some.inj (hw.symm.trans hv)
      · rwa [spGet_spMod_other _ _ _ _ _ hk]
    · exact h
  · simp only [hv]
    rw [spGet_spMod_same]

/-- The device with its 96 readings in place, before they are judged. -/
def readingsPut (readings : List Int) (s : State) : State :=
  let s1 := tickTo 1000000 s.heat.diodeTick s
  { s1 with heat := { s1.heat with diodes := putReadings readings s1.heat.diodes, diodeTick := s1.ftime / 1000000 } }

/-- The device after each reading was judged, then each region, then the regions' offsets moved. -/
theorem diodeCheck_eq (readings : List Int) (s : State) : diodeCheck readings s = (List.range 12).foldl moveOffset
    ((List.range 12).foldl checkRegion ((List.range 96).foldl (checkDiode (readingsPut readings s)) (readingsPut readings s))) := rfl

theorem diodeCheck_readings (readings : List Int) (s : State) : SameReadings (readingsPut readings s) (diodeCheck readings s) := by
  rw [diodeCheck_eq]
  exact (SameReadings.foldl (checkDiode_readings _) _ _).trans ((SameReadings.foldl checkRegion_readings _ _).trans (.foldl moveOffset_readings _ _))

theorem diode_readingsPut (readings : List Int) (s : State) (d : Nat) :
    diode (readingsPut readings s) d = spGet {} (putReadings readings s.heat.diodes) d := by
  simp only [diode, readingsPut, tickTo, timeTo]

theorem diodeCheck_reads {readings : List Int} {d : Nat} (hlen : readings.length = 96) (hd : d < 96) (s : State) :
    some (diode (diodeCheck readings s) d).reading = readings[d]? := by
  have hv : readings[d]? = some readings[d] := List.getElem?_eq_getElem (hlen ▸ hd)
  rw [diodeCheck_readings readings s d, diode_readingsPut, putReadings_reading _ hd hv, hv]

/-! ### Duty (R410) -/

/-- A change of one duty group. -/
theorem dutyOf_modDuty_same (g : Nat) (f : DutyGroup → DutyGroup) (s : State) : dutyOf (modDuty g f s) g = f (dutyOf s g) := spGet_spMod_same ..

theorem dutyOf_modDuty_other {g k : Nat} (f : DutyGroup → DutyGroup) (s : State) (h : k ≠ g) : dutyOf (modDuty g f s) k = dutyOf s k :=
  spGet_spMod_other _ _ _ _ _ h

/-- From s to t group g takes the duty d, and no other duty changes, nor the limit or the brake. -/
structure DutySet (g d : Nat) (s t : State) : Prop where
  limit : t.heat.limit = s.heat.limit
  brake : t.heat.brake = s.heat.brake
  same : (dutyOf t g).duty = d
  others : ∀ k, k ≠ g → (dutyOf t k).duty = (dutyOf s k).duty

theorem DutySet.reported {g d : Nat} {u : State} (h : DutySet g d s t) (k : Reported t u) : DutySet g d s u := by
  have hduty : ∀ k, dutyOf u k = dutyOf t k := fun j => by rw [dutyOf, k.heat, ← dutyOf]
  exact ⟨by rw [k.heat, h.limit], by rw [k.heat, h.brake], by rw [hduty, h.same], fun j hj => by rw [hduty, h.others j hj]⟩

theorem DutySet.ite {g d : Nat} {u : State} {c : Prop} [Decidable c] (h : DutySet g d s t) (k : DutySet g d s u) :
    DutySet g d s (if c then t else u) := by
  split
  · exact h
  · exact k

theorem modDuty_dutySet {g d : Nat} {f : DutyGroup → DutyGroup} (hf : (f (dutyOf s g)).duty = d) : DutySet g d s (modDuty g f s) :=
  ⟨rfl, rfl, by rw [dutyOf_modDuty_same, hf], fun k hk => by rw [dutyOf_modDuty_other f s hk]⟩

theorem lowerDuty_dutySet (heat : Bool) (g : Nat) (s : State) : DutySet g ((dutyOf s g).duty - 1) s (lowerDuty heat g s) := by
  unfold lowerDuty
  extract_lets x was s1 s2
  have h1 : DutySet g (x.duty - 1) s s1 := modDuty_dutySet rfl
  have h2 : DutySet g (x.duty - 1) s s2 := .ite h1 (h1.reported (post_reported ..))
  exact .ite h2 (h2.reported (thSet_reported ..))

theorem raiseDuty_dutySet (g : Nat) (s : State) : DutySet g (min ((dutyOf s g).duty + 1) 50) s (raiseDuty g s) := by
  unfold raiseDuty
  extract_lets x
  split
  · next hbelow =>
    rw [min_eq_left hbelow.le]
    exact modDuty_dutySet rfl
  · next habove =>
    rw [min_eq_right (Nat.not_lt.mp habove)]
    exact (modDuty_dutySet (d := 50) rfl).reported ((post_reported ..).trans (thSet_reported ..))

/-- From s to t the limit and the brake stand, no duty falls from its floor, and none rises under the brake or beyond 1.00. -/
structure DutyKept (s t : State) : Prop where
  limit : t.heat.limit = s.heat.limit
  brake : t.heat.brake = s.heat.brake
  floor : ∀ g, 10 ≤ (dutyOf s g).duty → 10 ≤ (dutyOf t g).duty
  ceiling : ∀ g, (dutyOf t g).duty ≤ (dutyOf s g).duty ∨ (s.heat.brake = false ∧ (dutyOf t g).duty ≤ 50)

theorem DutyKept.refl (s : State) : DutyKept s s := ⟨rfl, rfl, fun _ h => h, fun _ => .inl le_rfl⟩

theorem DutyKept.trans {u : State} (h : DutyKept s t) (k : DutyKept t u) : DutyKept s u where
  limit := k.limit.trans h.limit
  brake := k.brake.trans h.brake
  floor g hg := k.floor g (h.floor g hg)
  ceiling g := by
    rcases k.ceiling g with hle | ⟨hbrake, h50⟩
    · rcases h.ceiling g with hle' | ⟨hbrake, h50⟩
      · exact .inl (hle.trans hle')
      · exact .inr ⟨hbrake, hle.trans h50⟩
    · exact .inr ⟨h.brake ▸ hbrake, h50⟩

theorem DutySet.kept {g d : Nat} (h : DutySet g d s t) (hfloor : 10 ≤ (dutyOf s g).duty → 10 ≤ d)
    (hceiling : d ≤ (dutyOf s g).duty ∨ (s.heat.brake = false ∧ d ≤ 50)) : DutyKept s t := by
  refine ⟨h.limit, h.brake, fun k => ?_, fun k => ?_⟩
  · by_cases hk : k = g
    · rw [hk, h.same]
      exact hfloor
    · rw [h.others k hk]
      exact id
  · by_cases hk : k = g
    · rw [hk, h.same]
      exact hceiling
    · exact .inl (h.others k hk).le

/-- A group above its floor goes one step down. -/
theorem lowerDuty_dutyKept {heat : Bool} {g : Nat} (habove : 10 < (dutyOf s g).duty) : DutyKept s (lowerDuty heat g s) :=
  (lowerDuty_dutySet heat g s).kept (fun _ => by omega) (.inl (Nat.sub_le ..))

/-- A group goes one step up while the brake does not hold. -/
theorem raiseDuty_dutyKept {g : Nat} (hbrake : s.heat.brake = false) : DutyKept s (raiseDuty g s) :=
  (raiseDuty_dutySet g s).kept (fun _ => by omega) (.inr ⟨hbrake, min_le_right ..⟩)

theorem floorWatch_dutyKept (g : Nat) (s : State) : DutyKept s (floorWatch g s) :=
  (modDuty_dutySet rfl).kept id (.inl le_rfl)

/-- Groups above their floors go one step down each. -/
theorem lowerDuties_dutyKept {heat : Bool} {l : List Nat} (hdistinct : l.Nodup) (habove : ∀ g ∈ l, 10 < (dutyOf s g).duty) :
    DutyKept s (l.foldl (fun t g => lowerDuty heat g t) s) := by
  induction l generalizing s with
  | nil => exact .refl s
  | cons g l ih =>
    obtain ⟨hnew, hrest⟩ := List.nodup_cons.mp hdistinct
    refine (lowerDuty_dutyKept (habove g List.mem_cons_self)).trans (ih hrest fun k hk => ?_)
    rw [(lowerDuty_dutySet heat g s).others k (fun heq => hnew (heq ▸ hk))]
    exact habove k (List.mem_cons_of_mem g hk)

theorem leastBy_mem {f : Nat → Int} {l : List Nat} {g : Nat} (h : leastBy f l = some g) : g ∈ l := by
  induction l generalizing g with
  | nil => exact absurd h (by simp [leastBy])
  | cons k l ih =>
    unfold leastBy at h
    split at h
    · exact List.mem_cons.mpr (.inl (Option.some.inj h).symm)
    · next j hj =>
      split at h
      · exact List.mem_cons.mpr (.inl (Option.some.inj h).symm)
      · exact List.mem_cons_of_mem k (ih (hj.trans h))

/-- A duty tick's time, with the limit that governs from it on (R409). -/
def tickBegun (s : State) : State :=
  let s0 := timeTo ((s.heat.dutyTick + 1) * 1000000) s
  { s0 with heat := { s0.heat with dutyTick := s0.ftime / 1000000, limit := some (limitSet s0) } }

theorem dutyTickRow_dutyKept (s : State) : DutyKept (tickBegun s) (dutyTickRow s) := by
  unfold dutyTickRow
  extract_lets s0 _ s1 P L gs hot low s2 s3
  have h2 : DutyKept s1 s2 := lowerDuties_dutyKept ((List.nodup_range.filter _).filter _) fun g hg => by simpa using (List.mem_filter.mp hg).2
  have h3 : DutyKept s1 s3 := by
    refine h2.trans ?_
    unfold s3
    split_ifs with hover hunder
    · split
      · next g hg =>
        have hchosen := (List.mem_filter.mp (leastBy_mem hg)).2
        simp only [Bool.and_eq_true, decide_eq_true_eq] at hchosen
        obtain ⟨habove, -⟩ := hchosen
        exact lowerDuty_dutyKept habove
      · exact .refl s2
    · obtain ⟨-, -, hfree⟩ := hunder
      split
      · exact raiseDuty_dutyKept hfree
      · exact .refl s2
    · exact .refl s2
  exact h3.trans (List.foldlRecOn _ _ (.refl s3) fun t h g _ => h.trans (floorWatch_dutyKept g t))

/-- The limit that the tick set, and what became of each duty. -/
theorem dutyTick_leaves (s : State) : let u := dutyTickRow s
    u.heat.limit = some (limitSet (timeTo ((s.heat.dutyTick + 1) * 1000000) s))
    ∧ (∀ g, 10 ≤ (dutyOf s g).duty → 10 ≤ (dutyOf u g).duty)
    ∧ ∀ g, (dutyOf u g).duty ≤ (dutyOf s g).duty ∨ (s.heat.brake = false ∧ (dutyOf u g).duty ≤ 50) := by
  have h := dutyTickRow_dutyKept s
  exact ⟨h.limit, h.floor, h.ceiling⟩

theorem groupAtFloor_of_untold {g since : Nat} (hsince : (dutyOf s g).floorSince = some since) (hnew : (dutyOf s g).floorTold = false) :
    groupAtFloor g s = groupPost 0x6220 g (modDuty g (fun x => { x with floorTold := true }) (timeTo (since + 100000000) s)) := by
  simp [groupAtFloor, hsince, hnew]

/-! ### The brake (R412) -/

theorem floorAll_duty {g : Nat} (s : State) (hg : g < 12) : (dutyOf (floorAll s) g).duty = 10 := by
  refine foldl_reaches (I := fun _ => True) (Q := fun t => (dutyOf t g).duty = 10) (fun _ _ _ _ => trivial) (fun t k _ _ h => ?_) (fun t _ => ?_)
    (List.mem_range.mpr hg) trivial
  · by_cases hk : g = k
    · subst hk
      exact congrArg DutyGroup.duty (dutyOf_modDuty_same g _ t)
    · exact (congrArg DutyGroup.duty (dutyOf_modDuty_other _ t hk)).trans h
  · exact congrArg DutyGroup.duty (dutyOf_modDuty_same g _ t)

theorem floorAll_brake (s : State) : (floorAll s).heat.brake = s.heat.brake :=
  List.foldlRecOn (motive := fun t : State => t.heat.brake = s.heat.brake) (List.range 12) _ rfl fun _ h _ _ => h

/-- The device with its brake asserted, no duty changed yet. -/
def braked (s : State) : State := { s with heat := { s.heat with brake := true }, host := { s.host with pwrbrkHigh := false } }

theorem powerBrake_of_released (h : s.heat.brake = false) : powerBrake s = thSet 3 (post 0x0606 0 0 (floorAll (braked s))) :=
  if_neg (by simp [h])

theorem powerBrake_leaves (h : s.heat.brake = false) :
    (powerBrake s).heat.brake = true ∧ ∀ g, g < 12 → (dutyOf (powerBrake s) g).duty = 10 := by
  have hheat : (powerBrake s).heat = (floorAll (braked s)).heat := by
    rw [powerBrake_of_released h, ((post_reported ..).trans (thSet_reported ..)).heat]
  refine ⟨?_, fun g hg => ?_⟩
  · rw [hheat, floorAll_brake]
    rfl
  · rw [dutyOf, hheat, ← dutyOf, floorAll_duty _ hg]

end

/-- Settles O59: each row past its conditions; a thermal stop and a trip end in the power-down, whose state `domainsDown` gives. -/
theorem powerAndHeat : Obligations.PowerAndHeat := by
  unfold Obligations.PowerAndHeat
  refine fun s => ⟨fun mw => rfl, fun t hfree => ⟨clampStep_of_over hfree, clampStep_of_within hfree⟩, fun f since hclamp hsince => ?_, ?_,
    fun readings hlen => ⟨_, rfl, fun d hd => diodeCheck_reads hlen hd s⟩, ?_, fun g since hg hsince hnew => ?_,
    fun hfree => ⟨_, rfl, powerBrake_leaves hfree⟩, rfl, fun d a b hd hdrive htrips => ?_⟩
  · exact clampRelease_of_kept hclamp hsince
  · refine ⟨fun n hn => modelled_node s hn, fun hoff => congrArg Host.Outcome.next (thermalModelUpdate_of_off hoff),
      fun hon hfree hmust => ?_, fun hon hrest => ?_⟩
    · have hstop : thermalModelUpdate s = thermalStop (refreshed s) := (thermalModelUpdate_of_on hon).trans (if_pos ⟨hfree, hmust⟩)
      exact ⟨congrArg Host.Outcome.next hstop, thermalStop_leaves _⟩
    · refine congrArg Host.Outcome.next ((thermalModelUpdate_of_on hon).trans (if_neg fun ⟨hfree, hmust⟩ => ?_))
      rcases hrest with hstopping | hcool
      · exact Bool.noConfusion (hfree.symm.trans hstopping)
      · exact Bool.noConfusion (hmust.symm.trans hcool)
  · obtain ⟨hlimit, hfloor, hceiling⟩ := dutyTick_leaves s
    refine ⟨_, rfl, hlimit, fun hmax g hg => ?_, fun hmin g hg => hfloor g (hmin g hg), fun hbrake g hg => ?_⟩
    · rcases hceiling g with hle | ⟨-, h50⟩
      · exact hle.trans (hmax g hg)
      · exact h50
    · rcases hceiling g with hle | ⟨hfree, -⟩
      · exact hle
      · exact Bool.noConfusion (hfree.symm.trans hbrake)
  · exact (onUnit_of_lt hg).trans (congrArg _ (groupAtFloor_of_untold hsince hnew))
  · have hrow : exec (.thermtrip d a b) s = .next (post 0x6211 0 0 (tripped s)) :=
      (onUnit_of_lt hd).trans (congrArg _ (thermtrip_of_trips hdrive htrips))
    obtain ⟨hboot, hcores, hrings, hsess, hpins⟩ := thermtrip_leaves s
    refine ⟨_, hrow, congrArg Prod.snd hpins, ?_, ?_, ?_, hcores, hrings, hsess⟩
    all_goals rw [hboot]

end Sys2Proof.Machine
end

section
/-!
PROOF. 17_host_and_sideband_interfaces.md: accesses of the host's window BAR4 (R423, R425), by what R423's table says of their pages.
-/

namespace Sys2Proof.Machine

section
variable {fn off len page p : Nat} {data : List Byte} {ep write : Bool} {code : Code} {s : State}

/-! ### Writes and reads -/

theorem exec_bar4Write (hfn : fn < 64) : exec (.bar4Write fn off data ep) s = .next (bar4Write fn off data ep s) := onFn_of_lt hfn

theorem exec_bar4Read (hfn : fn < 64) : exec (.bar4Read fn off len) s = .next (bar4Read fn off len s) := onFn_of_lt hfn

theorem bar4Write_of_refused (hup : hostUp s = true) (hspan : barSpan s fn off data.length = true)
    (hcode : rangeCode s fn true (windowDpa s fn off) data.length = some code) : bar4Write fn off data ep s = hostErr fn true 2 code off s := by
  simp [bar4Write, hup, hspan, hcode]

theorem bar4Write_of_reachable (hup : hostUp s = true) (hspan : barSpan s fn off data.length = true)
    (hcode : rangeCode s fn true (windowDpa s fn off) data.length = none) :
    let merged := dpaHostWrite (windowDpa s fn off) (pbOf ep data) s
    bar4Write fn off data ep s =
      if ep then hostErr fn true 2 0x2162 off (poisonLines (windowDpa s fn off) data.length merged) else merged := by
  simp [bar4Write, hup, hspan, hcode]

theorem bar4Read_of_refused (hup : hostUp s = true) (hspan : barSpan s fn off len = true)
    (hcode : rangeCode s fn false (windowDpa s fn off) len = some code) :
    bar4Read fn off len s = emit (.readData fn (List.replicate len 0xFF) false) (hostErr fn false 2 code off s) := by
  simp [bar4Read, hup, hspan, hcode]

theorem bar4Read_of_reachable (hup : hostUp s = true) (hspan : barSpan s fn off len = true)
    (hcode : rangeCode s fn false (windowDpa s fn off) len = none) :
    let r := hostRead (windowDpa s fn off) len s
    bar4Read fn off len s =
      if r.2.2 then emit (.readData fn (List.replicate len 0xFF) true) (hostErr fn false 2 0x2211 off r.1)
      else emit (.readData fn r.2.1 false) r.1 := by
  simp [bar4Read, hup, hspan, hcode]

/-! ### Which pages a function reaches (R423's table, in its order) -/

theorem pageCode_of_beyond (h : 196608 ≤ page) : pageCode s fn write page = some 0x2101 := if_pos h

theorem pageCode_of_absent (h : page < 196608) (habsent : unitPresent s.units.chan (homeOf page) = false) :
    pageCode s fn write page = some 0x2102 :=
  (if_neg (Nat.not_le.mpr h)).trans (if_pos (by rw [habsent]; rfl))

/-- A page that its channel holds while the stacks are powered. -/
def PageThere (s : State) (page : Nat) : Prop :=
  page < 196608 ∧ unitPresent s.units.chan (homeOf page) = true ∧ s.boot.domainsOff = false

theorem pageCode_of_there (h : PageThere s page) : pageCode s fn write page = match pageOwner s page with
    | .part p => if fn ≠ 0 ∧ fnHasRing s fn p = false then some 0x2160 else if write && pairedPage s page then some 0x2232 else none
    | _ => some 0x2160 := by
  obtain ⟨hlt, hpresent, hpowered⟩ := h
  refine (if_neg (Nat.not_le.mpr hlt)).trans ((if_neg ?_).trans (if_neg ?_))
  · simp [hpresent]
  · simp [hpowered]

theorem pageCode_of_unowned (h : PageThere s page) (hno : ∀ q, pageOwner s page ≠ .part q) : pageCode s fn write page = some 0x2160 := by
  rw [pageCode_of_there h]
  split
  · next hp => exact absurd hp (hno _)
  · rfl

theorem pageCode_of_noRing (h : PageThere s page) (howner : pageOwner s page = .part p) (hfn : fn ≠ 0) (hring : fnHasRing s fn p = false) :
    pageCode s fn write page = some 0x2160 := by
  rw [pageCode_of_there h, howner]
  exact if_pos ⟨hfn, hring⟩

theorem pageCode_of_reachable (h : PageThere s page) (howner : pageOwner s page = .part p) (hreach : fn = 0 ∨ fnHasRing s fn p = true) :
    pageCode s fn write page = if write = true ∧ pairedPage s page = true then some 0x2232 else none := by
  rw [pageCode_of_there h, howner]
  refine (if_neg ?_).trans (if_congr Bool.and_eq_true_iff rfl rfl)
  rintro ⟨hfn, hring⟩
  exact hreach.elim hfn fun hhas => Bool.noConfusion (hring.symm.trans hhas)

end

/-- Settles O34: the code that the pages of an access meet decides it, and a page's code is the first of R423's table that holds. -/
theorem windowAccesses : Obligations.WindowAccesses := by
  unfold Obligations.WindowAccesses
  refine ⟨fun fn off len data s hfn hup => ⟨fun hspan => ⟨fun hnone => ⟨?_, ?_⟩, fun code ep hcode => ?_⟩,
      fun hspan => ⟨fun hnone => ⟨fun hclean => ?_, fun hpoison => ?_⟩, fun code hcode => ?_⟩⟩,
    fun fn page p write s hpowered => ⟨pageCode_of_beyond, pageCode_of_absent, fun ⟨hlt, hpresent⟩ hno => ?_,
      fun ⟨hlt, hpresent⟩ howner => ?_⟩⟩
  · exact (exec_bar4Write hfn).trans (congrArg _ (bar4Write_of_reachable hup hspan hnone))
  · exact (exec_bar4Write hfn).trans (congrArg _ (bar4Write_of_reachable hup hspan hnone))
  · exact (exec_bar4Write hfn).trans (congrArg _ (bar4Write_of_refused hup hspan hcode))
  · exact (exec_bar4Read hfn).trans (congrArg _ ((bar4Read_of_reachable hup hspan hnone).trans (if_neg (Bool.eq_false_iff.mp hclean))))
  · exact (exec_bar4Read hfn).trans (congrArg _ ((bar4Read_of_reachable hup hspan hnone).trans (if_pos hpoison)))
  · exact (exec_bar4Read hfn).trans (congrArg _ (bar4Read_of_refused hup hspan hcode))
  · exact pageCode_of_unowned ⟨hlt, hpresent, hpowered⟩ hno
  · exact ⟨pageCode_of_noRing ⟨hlt, hpresent, hpowered⟩ howner, pageCode_of_reachable ⟨hlt, hpresent, hpowered⟩ howner⟩

end Sys2Proof.Machine
end

section
/-!
PROOF. 17_host_and_sideband_interfaces.md: the reset of a function and the end of VF Enable (R422): what becomes of the function's rings and
of the requests that complete on them, and that nothing goes out.
-/

namespace Sys2Proof.Machine

/-! ### Sessions whose requests end -/

/-- From x to y a session stays where it is; unless it is mirrored, an open request was open before and is not nearer its end. -/
structure SessKept (x y : Sess) : Prop where
  part : y.part = x.part
  compRing : y.compRing = x.compRing
  mirror : y.mirror = x.mirror
  request : x.mirror = false → y.opened = true → x.opened = true ∧ y.work.ending = x.work.ending

theorem SessKept.refl (x : Sess) : SessKept x x := ⟨rfl, rfl, rfl, fun _ h => ⟨h, rfl⟩⟩

theorem SessKept.trans {x y z : Sess} (h : SessKept x y) (k : SessKept y z) : SessKept x z where
  part := k.part.trans h.part
  compRing := k.compRing.trans h.compRing
  mirror := k.mirror.trans h.mirror
  request hm ho := by
    obtain ⟨hopen, hending⟩ := k.request (h.mirror.trans hm) ho
    obtain ⟨hopen', hending'⟩ := h.request hm hopen
    exact ⟨hopen', hending.trans hending'⟩

theorem placedSess_kept (p : Post) (now : Nat) (x : Sess) : SessKept x (placedSess p now x) := by
  unfold placedSess
  extract_lets x1
  have h1 : SessKept x x1 := ⟨rfl, rfl, rfl, fun _ h => ⟨h, rfl⟩⟩
  split
  · exact ⟨rfl, rfl, rfl, fun _ h => Bool.noConfusion h⟩
  · exact h1

theorem placedSess_closes {p : Post} (hfinal : p.final = true) (now : Nat) (x : Sess) : (placedSess p now x).opened = false := by
  simp [placedSess, idleSess, hfinal]

/-- A session whose request is over. -/
theorem SessKept.of_closed {x y : Sess} (hpart : y.part = x.part) (hring : y.compRing = x.compRing) (hmirror : y.mirror = x.mirror)
    (hclosed : y.opened = false) : SessKept x y :=
  ⟨hpart, hring, hmirror, fun _ ho => absurd ho (by rw [hclosed]; decide)⟩

/-- Nothing more is said of the request of a mirrored session. -/
theorem SessKept.of_mirrored {x y : Sess} (hpart : y.part = x.part) (hring : y.compRing = x.compRing) (hmirror : y.mirror = x.mirror)
    (hx : x.mirror = true) : SessKept x y :=
  ⟨hpart, hring, hmirror, fun hm => absurd hm (by rw [hx]; decide)⟩

/-- From s to t the sessions alone have changed, and as `SessKept` says. -/
structure SessOnly (s t : State) : Prop where
  frame : { t with sess := s.sess } = s
  sess : ∀ n, SessKept (getSess s n) (getSess t n)

section
variable {s t u : State} {n r v : Nat} {p : Post}

theorem SessOnly.refl (s : State) : SessOnly s s := ⟨rfl, fun _ => .refl _⟩

theorem SessOnly.trans (h : SessOnly s t) (k : SessOnly t u) : SessOnly s u :=
  ⟨by rw [← h.frame, ← k.frame], fun n => (h.sess n).trans (k.sess n)⟩

theorem SessOnly.foldl {α : Type} {f : State → α → State} (hf : ∀ s x, SessOnly s (f s x)) (l : List α) (s : State) :
    SessOnly s (l.foldl f s) :=
  List.foldlRecOn l f (.refl s) fun t h x _ => h.trans (hf t x)

theorem SessOnly.getRing (h : SessOnly s t) (r : Nat) : getRing t r = getRing s r := by
  rw [Machine.getRing, Machine.getRing, ← h.frame]

/-- From s to t session n alone has changed. -/
structure OneSess (n : Nat) (s t : State) : Prop where
  frame : { t with sess := s.sess } = s
  others : ∀ m, m ≠ n → getSess t m = getSess s m

theorem OneSess.refl (n : Nat) (s : State) : OneSess n s s := ⟨rfl, fun _ _ => rfl⟩

theorem OneSess.trans (h : OneSess n s t) (k : OneSess n t u) : OneSess n s u :=
  ⟨by rw [← h.frame, ← k.frame], fun m hm => (k.others m hm).trans (h.others m hm)⟩

theorem OneSess.getRing (h : OneSess n s t) (r : Nat) : getRing t r = getRing s r := by
  rw [Machine.getRing, Machine.getRing, ← h.frame]

theorem OneSess.sessOnly (h : OneSess n s t) (hn : SessKept (getSess s n) (getSess t n)) : SessOnly s t := by
  refine ⟨h.frame, fun m => ?_⟩
  by_cases hm : m = n
  · exact hm ▸ hn
  · rw [h.others m hm]
    exact .refl _

theorem modSess_oneSess (n : Nat) (g : Sess → Sess) (s : State) : OneSess n s (modSess n g s) :=
  ⟨rfl, fun _ hm => getSess_modSess_other _ _ _ _ hm⟩

theorem modSess_sessOnly {g : Sess → Sess} (hg : SessKept (getSess s n) (g (getSess s n))) : SessOnly s (modSess n g s) :=
  (modSess_oneSess n g s).sessOnly (by rwa [getSess_modSess_same])

theorem sessPlaced_sessOnly (p : Post) (s : State) : SessOnly s (sessPlaced p s) := by
  unfold sessPlaced
  split_ifs
  · exact modSess_sessOnly (placedSess_kept ..)
  · exact modSess_sessOnly ⟨rfl, rfl, rfl, fun _ h => ⟨h, rfl⟩⟩
  · exact .refl s

/-! ### A request that ends on a lost ring (09 R235, R243) -/

/-- A ring that the reset of its function has put in Error: it keeps no entry. -/
def LostRing (x : Ring) : Prop := x.st = .error ∧ x.code = 0x4171 ∧ x.backlog = []

theorem ringPost_of_lost (h : LostRing (getRing s r)) : ringPost r p s = sessPlaced p s := by
  obtain ⟨hst, hcode, _⟩ := h
  simp [ringPost, Ring.takes, Ring.keeps, hst, hcode]

/-- Session n with its entry held until the buddy has acknowledged its log. -/
def holdPost (p : Post) (x : Sess) : Sess := { x with held := x.held ++ [{ p with need := x.log.length }] }

theorem submitPost_of_lost (h : LostRing (getRing s (getSess s n).compRing)) (p : Post) :
    submitPost n p s = sessPlaced p s ∨ ((getSess s n).mirror = true ∧ submitPost n p s = modSess n (holdPost p) s) := by
  unfold submitPost
  extract_lets x
  split
  · next hheld =>
    simp only [Bool.and_eq_true, and_assoc] at hheld
    obtain ⟨hmirror, -⟩ := hheld
    exact .inr ⟨hmirror, rfl⟩
  · exact .inl (ringPost_of_lost h)

theorem endWith_of_over (h : ((getSess s n).opened = false ∨ (getSess s n).work.ending = true)) : endWith n p s = s :=
  if_pos (by rcases h with h | h <;> simp [h])

/-- What the end of a request that is open leaves of its session before the final entry goes out. -/
def markedEnding (x : Sess) : Sess := { x with work := { rebuilt := 0, ending := true } }

theorem holdPost_kept (p : Post) {x : Sess} (hx : x.mirror = true) : SessKept x (holdPost p (markedEnding x)) := .of_mirrored rfl rfl rfl hx

theorem endWith_of_open (hopen : (getSess s n).opened = true) (hgoing : (getSess s n).work.ending = false) :
    ∃ e t, e.sess = n ∧ e.own = p.own ∧ e.final = true ∧ OneSess n s t ∧ getSess t n = markedEnding (getSess s n)
      ∧ endWith n p s = submitPost n e t := by
  refine ⟨_, _, ?_, ?_, ?_, (modSess_oneSess n _ s).trans (modSess_oneSess n _ _), ?_, if_neg (by simp [hopen, hgoing])⟩
  · rfl
  · rfl
  · rfl
  · rw [getSess_modSess_same, getSess_modSess_same]
    rfl

/-- The request of a session whose ring is lost ends at once, unless a mirrored session holds its entry; nothing is posted. -/
theorem endWith_of_lost (hlost : LostRing (getRing s (getSess s n).compRing)) (hown : p.own = true) :
    OneSess n s (endWith n p s) ∧ SessKept (getSess s n) (getSess (endWith n p s) n)
      ∧ ((getSess s n).mirror = false → ((getSess s n).opened = true → (getSess s n).work.ending = false) →
          (getSess (endWith n p s) n).opened = false) := by
  by_cases hover : (getSess s n).opened = false ∨ (getSess s n).work.ending = true
  · rw [endWith_of_over hover]
    refine ⟨.refl n s, .refl _, fun _ hgoing => Bool.eq_false_of_not_eq_true fun hopen => ?_⟩
    simp [hopen, hgoing hopen] at hover
  · obtain ⟨hopen, hgoing⟩ := not_or.mp hover
    obtain ⟨e, t, hsess, hkind, hfinal, hone, hmarked, hend⟩ :=
      endWith_of_open (p := p) (Bool.eq_true_of_not_eq_false hopen) (Bool.eq_false_of_not_eq_true hgoing)
    have hlost' : LostRing (getRing t (getSess t n).compRing) := by
      rw [hmarked, hone.getRing]
      exact hlost
    rw [hend]
    rcases submitPost_of_lost hlost' e with hpost | ⟨hmirror, hpost⟩
    · have hplaced : submitPost n e t = modSess n (placedSess e t.ftime) t := by
        rw [hpost, sessPlaced, if_pos (hkind.trans hown), hsess]
      have hkept := placedSess_kept e t.ftime (markedEnding (getSess s n))
      have hclosed := placedSess_closes hfinal t.ftime (markedEnding (getSess s n))
      rw [hplaced, getSess_modSess_same, hmarked]
      exact ⟨hone.trans (modSess_oneSess ..), .of_closed hkept.part hkept.compRing hkept.mirror hclosed, fun _ _ => hclosed⟩
    · have hmirror : (getSess s n).mirror = true := by rwa [hmarked] at hmirror
      rw [hpost, getSess_modSess_same, hmarked]
      exact ⟨hone.trans (modSess_oneSess ..), holdPost_kept e hmirror, fun hm => absurd hm (by rw [hmirror]; decide)⟩

theorem endReq_of_lost (hlost : LostRing (getRing s (getSess s n).compRing)) (code : Code) (reason : Nat) (retry : Bool) :
    let u := endReq n code reason retry s
    OneSess n s u ∧ SessKept (getSess s n) (getSess u n)
      ∧ ((getSess s n).mirror = false → ((getSess s n).opened = true → (getSess s n).work.ending = false) → (getSess u n).opened = false) :=
  endWith_of_lost hlost rfl

/-- A request ends with the step in progress. -/
theorem cancelAtStepEnd_of_step (hstep : (getPart s (getSess s n).part).step ≠ none) :
    cancelAtStepEnd n s = modSess n (fun x => { x with work := { x.work with cancel := true } }) s :=
  if_pos (Option.isSome_iff_ne_none.mpr hstep)

/-- A request ends at once where no step is in progress. -/
theorem cancelAtStepEnd_of_noStep (hstep : (getPart s (getSess s n).part).step = none) : cancelAtStepEnd n s = endReq n 0x0420 4 false s :=
  if_neg (by simp [hstep])

theorem cancelAtStepEnd_oneSess (hlost : LostRing (getRing s (getSess s n).compRing)) :
    OneSess n s (cancelAtStepEnd n s) ∧ SessKept (getSess s n) (getSess (cancelAtStepEnd n s) n) := by
  by_cases hstep : (getPart s (getSess s n).part).step = none
  · obtain ⟨hone, hkept, -⟩ := endReq_of_lost hlost 0x0420 4 false
    rw [cancelAtStepEnd_of_noStep hstep]
    exact ⟨hone, hkept⟩
  · rw [cancelAtStepEnd_of_step hstep]
    refine ⟨modSess_oneSess .., ?_⟩
    rw [getSess_modSess_same]
    exact ⟨rfl, rfl, rfl, fun _ ho => ⟨ho, rfl⟩⟩

/-! ### The rings of the function (R422) -/

/-- The ring is one of function v. -/
def RingOf (v : Nat) (x : Ring) : Prop := x.fn = v ∧ x.st ≠ .absent

/-- A ring goes to Error with 0x4171 and loses the entries that wait. -/
def loseRing (r : Nat) (s : State) : State := dropBacklog r (modRing r (fun x => { x with st := .error, code := 0x4171 }) s)

/-- The rings of function v. -/
def ringsOf (v : Nat) (s : State) : List Nat := (s.rings.map (·.1)).filter (fun r => (getRing s r).st != .absent && (getRing s r).fn == v)

theorem mem_ringsOf (h : RingOf v (getRing s r)) : r ∈ ringsOf v s := by
  obtain ⟨hfn, hst⟩ := h
  have hkey : r ∈ s.rings.map (·.1) := by
    refine Decidable.byContradiction fun hno => hst ?_
    rw [getRing, spGet_of_notMem _ hno]
  exact List.mem_filter.mpr ⟨hkey, by simp [hfn, hst]⟩

theorem ringOf_of_mem (h : r ∈ ringsOf v s) : RingOf v (getRing s r) := by
  simpa [RingOf, and_comm] using (List.mem_filter.mp h).2

theorem loseRing_sessOnly (r : Nat) (s : State) :
    SessOnly (modRing r (fun x => { x with backlog := [] }) (modRing r (fun x => { x with st := .error, code := 0x4171 }) s)) (loseRing r s) :=
  .foldl (fun t p => sessPlaced_sessOnly p t) _ _

theorem getRing_loseRing_same (r : Nat) (s : State) :
    getRing (loseRing r s) r = { getRing s r with st := .error, code := 0x4171, backlog := [] } := by
  rw [(loseRing_sessOnly r s).getRing, getRing_modRing_same, getRing_modRing_same]

theorem getRing_loseRing_other {k : Nat} (s : State) (h : k ≠ r) : getRing (loseRing r s) k = getRing s k := by
  rw [(loseRing_sessOnly r s).getRing, getRing_modRing_other _ _ _ _ h, getRing_modRing_other _ _ _ _ h]

theorem loseRing_lost (r : Nat) (s : State) : LostRing (getRing (loseRing r s) r) := by
  rw [getRing_loseRing_same]
  exact ⟨rfl, rfl, rfl⟩

theorem loseRing_keeps_lost {k : Nat} (r : Nat) (h : LostRing (getRing s k)) : LostRing (getRing (loseRing r s) k) := by
  by_cases hk : k = r
  · exact hk ▸ loseRing_lost r s
  · rwa [getRing_loseRing_other s hk]

/-- From s to t the rings of function v and the sessions alone have changed, the sessions as `SessKept` says. -/
structure FnReset (v : Nat) (s t : State) : Prop where
  frame : { t with rings := s.rings, sess := s.sess } = s
  others : ∀ r, ¬RingOf v (getRing s r) → getRing t r = getRing s r
  sess : ∀ n, SessKept (getSess s n) (getSess t n)

theorem FnReset.refl (v : Nat) (s : State) : FnReset v s s := ⟨rfl, fun _ _ => rfl, fun _ => .refl _⟩

theorem FnReset.getPart (h : FnReset v s t) (p : Nat) : getPart t p = getPart s p := by
  rw [Machine.getPart, Machine.getPart, ← h.frame]

theorem FnReset.getFn (h : FnReset v s t) (f : Nat) : getFn t f = getFn s f := by
  rw [Machine.getFn, Machine.getFn, ← h.frame]

theorem FnReset.sessOnly (h : FnReset v s t) (k : SessOnly t u) : FnReset v s u where
  frame := by rw [← h.frame, ← k.frame]
  others r hr := (k.getRing r).trans (h.others r hr)
  sess n := (h.sess n).trans (k.sess n)

theorem FnReset.loseRing (h : FnReset v s t) (hr : RingOf v (getRing s r)) : FnReset v s (loseRing r t) := by
  refine .sessOnly (t := modRing r _ (modRing r _ t)) ⟨h.frame, fun k hk => ?_, h.sess⟩ (loseRing_sessOnly r t)
  · have hne : k ≠ r := fun heq => hk (heq ▸ hr)
    rw [getRing_modRing_other _ _ _ _ hne, getRing_modRing_other _ _ _ _ hne, h.others k hk]

/-- The same with every ring of the function lost. -/
structure FnLost (v : Nat) (s t : State) : Prop extends FnReset v s t where
  lost : ∀ r, RingOf v (getRing s r) → LostRing (getRing t r)

theorem loseRings_fnLost (v : Nat) (s : State) : FnLost v s ((ringsOf v s).foldl (fun t r => loseRing r t) s) := by
  have hstep : ∀ t, ∀ r ∈ ringsOf v s, FnReset v s t → FnReset v s (loseRing r t) := fun t r hr h => h.loseRing (ringOf_of_mem hr)
  refine ⟨List.foldlRecOn _ _ (.refl v s) fun t h r hr => hstep t r hr h, fun r hr => ?_⟩
  exact foldl_reaches (Q := fun t => LostRing (getRing t r)) hstep (fun t x _ _ h => loseRing_keeps_lost x h) (fun t _ => loseRing_lost r t)
    (mem_ringsOf hr) (.refl v s)

/-! ### The requests that complete on them -/

/-- Session n has an open request that completes on a ring of function v. -/
def OpenOn (v n : Nat) (s : State) : Prop := (getSess s n).opened = true ∧ RingOf v (getRing s (getSess s n).compRing)

theorem mem_openOnFn_iff : n ∈ openOnFn s v ↔ OpenOn v n s := by
  constructor
  · intro h
    simpa [OpenOn, RingOf, and_assoc] using (List.mem_filter.mp h).2
  · rintro ⟨hopen, hring⟩
    have hkey : n ∈ s.sess.map (·.1) := by
      refine Decidable.byContradiction fun hno => ?_
      have hdefault : getSess s n = {} := spGet_of_notMem _ hno
      exact Bool.noConfusion (hdefault ▸ hopen : ({} : Sess).opened = true)
    exact List.mem_filter.mpr ⟨hkey, by simpa [RingOf, and_assoc] using ⟨hopen, hring⟩⟩

theorem FnLost.lostFor (h : FnLost v s t) (hn : OpenOn v n s) : LostRing (getRing t (getSess t n).compRing) := by
  obtain ⟨-, hring⟩ := hn
  rw [(h.sess n).compRing]
  exact h.lost _ hring

theorem FnLost.stepOf (h : FnLost v s t) (n : Nat) : (getPart t (getSess t n).part).step = (getPart s (getSess s n).part).step := by
  rw [h.getPart, (h.sess n).part]

theorem FnLost.cancel (h : FnLost v s t) (hn : OpenOn v n s) : FnLost v s (cancelAtStepEnd n t) := by
  obtain ⟨hone, hkept⟩ := cancelAtStepEnd_oneSess (h.lostFor hn)
  refine ⟨h.toFnReset.sessOnly (hone.sessOnly hkept), fun r hr => ?_⟩
  rw [hone.getRing]
  exact h.lost r hr

/-- The state before the function's own fields are reset. -/
def requestsOver (v : Nat) (s : State) : State :=
  (openOnFn s v).foldl (fun t n => cancelAtStepEnd n t) ((ringsOf v s).foldl (fun t r => loseRing r t) s)

theorem flrVf_eq (v : Nat) (s : State) : flrVf v s = modFn v flrFn (requestsOver v s) := rfl

theorem requestsOver_fnLost (v : Nat) (s : State) : FnLost v s (requestsOver v s) :=
  List.foldlRecOn _ _ (loseRings_fnLost v s) fun _ h _ hn => h.cancel (mem_openOnFn_iff.mp hn)

/-- What cancelling session n gives it holds at the end, if cancelling it again keeps giving it. -/
theorem requestsOver_gives {Q : Sess → Prop} (hn : OpenOn v n s) (hgive : ∀ t, FnLost v s t → Q (getSess (cancelAtStepEnd n t) n)) :
    Q (getSess (requestsOver v s) n) := by
  refine foldl_reaches (I := FnLost v s) (Q := fun t => Q (getSess t n)) (fun t m hm h => h.cancel (mem_openOnFn_iff.mp hm))
    (fun t m hm h hQ => ?_) hgive (mem_openOnFn_iff.mpr hn) (loseRings_fnLost v s)
  by_cases hmn : n = m
  · exact hmn ▸ hgive t h
  · rwa [(cancelAtStepEnd_oneSess (h.lostFor (mem_openOnFn_iff.mp hm))).1.others n hmn]

theorem requestsOver_cancel (hn : OpenOn v n s) (hstep : (getPart s (getSess s n).part).step ≠ none) :
    (getSess (requestsOver v s) n).work.cancel = true := by
  refine requestsOver_gives (Q := fun x => x.work.cancel = true) hn fun t h => ?_
  rw [cancelAtStepEnd_of_step (by rwa [h.stepOf]), getSess_modSess_same]

theorem requestsOver_closed (hn : OpenOn v n s) (hstep : (getPart s (getSess s n).part).step = none) (hm : (getSess s n).mirror = false)
    (hgoing : (getSess s n).work.ending = false) : (getSess (requestsOver v s) n).opened = false := by
  refine requestsOver_gives (Q := fun x => x.opened = false) hn fun t h => ?_
  obtain ⟨-, -, hclosed⟩ := endReq_of_lost (h.lostFor hn) 0x0420 4 false
  rw [cancelAtStepEnd_of_noStep (by rwa [h.stepOf])]
  exact hclosed ((h.sess n).mirror.trans hm) fun hopen => ((h.sess n).request hm hopen).2.trans hgoing

theorem exec_flr {fn : Nat} (hfn : fn < 64) : exec (.flr fn) s = .next (if fn = 0 ∨ hostUp s = false then s else flrVf fn s) := onFn_of_lt hfn

end

/-- Settles O36: the rings are lost, then the requests on them end, then the function's own fields are reset. -/
theorem functionLevelReset : Obligations.FunctionLevelReset := by
  unfold Obligations.FunctionLevelReset
  intro fn s hup
  refine ⟨fun hvf hfn => ?_, ?_, congrArg Host.Outcome.next (if_pos hup)⟩
  · have hlost := requestsOver_fnLost fn s
    have hown : getFn (flrVf fn s) fn = flrFn (getFn s fn) := by rw [flrVf_eq, getFn_modFn_same, hlost.getFn]
    refine ⟨?_, fun r hr hst => hlost.lost r ⟨hr, hst⟩, fun r hr => hlost.others r ?_,
      fun n hopen hr hst => ⟨fun hstep => ?_, fun hstep hm hgoing => ?_⟩, ?_⟩
    · exact (exec_flr hfn).trans (congrArg _ (if_neg (by simp [hup]; omega)))
    · exact fun h => hr.elim (absurd h.1) h.2
    · exact requestsOver_cancel ⟨hopen, hr, hst⟩ hstep
    · exact requestsOver_closed ⟨hopen, hr, hst⟩ hstep hm hgoing
    · rw [hown]
      refine ⟨?_, rfl, rfl, rfl, rfl, rfl, rfl, rfl, rfl, rfl, rfl, rfl, fun f hf => ?_, ?_⟩
      · exact (by decide : ∀ b : BitVec 8, (b &&& 0xF8).toNat % 8 = 0) _
      · exact (getFn_modFn_other _ _ _ _ hf).trans (hlost.getFn f)
      · exact congrArg (fun t : State => { t with host := s.host }) hlost.frame
  · exact (exec_flr (by decide)).trans (congrArg _ (if_pos (.inl rfl)))

end Sys2Proof.Machine
end

section
/-!
PROOF. 17_host_and_sideband_interfaces.md: the MCTP control commands and the sideband bus (R437, R438), and the SPDM responder (R439).
-/

namespace Sys2Proof.Machine

section
variable {via : Via} {s : State}

/-! ### MCTP control (R437) -/

/-- A transport that carries control requests carries their answers. -/
theorem control_of_heard (pay : List Byte) (hheard : heard s via = true) : control via pay s = emit (.mctp via pay) s := by
  cases via with
  | doe => exact absurd hheard Bool.false_ne_true
  | mctp med e =>
    cases med with
    | pcie => exact if_pos hheard
    | _ => rfl

theorem setEndpointId_of_valid {op eid : Nat} (hheard : heard s via = true) (hvalid : op ≤ 1 ∧ 0 < eid ∧ eid < 255) :
    setEndpointId via op eid s = emit (.mctp via [0, 0, BitVec.ofNat 8 eid, 0]) { s with side := { s.side with eid := eid } } := by
  rw [setEndpointId, if_neg (by simp [hheard]), if_pos hvalid]
  exact control_of_heard _ hheard

theorem setEndpointId_of_invalid {op eid : Nat} (hheard : heard s via = true) (hbad : ¬(op ≤ 1 ∧ 0 < eid ∧ eid < 255)) :
    setEndpointId via op eid s = emit (.mctp via [2]) s := by
  rw [setEndpointId, if_neg (by simp [hheard]), if_neg hbad]
  exact control_of_heard _ hheard

theorem versionSupport_of_control {t : Nat} (hheard : heard s via = true) (ht : t = 0xFF ∨ t = 0) :
    versionSupport via t s = emit (.mctp via [0, 1, 0xF1, 0xF3, 0xFF, 0]) s :=
  (if_pos ht).trans (control_of_heard _ hheard)

/-- The version of SPDM messages, four bytes that the spec leaves open (log entry 105). -/
def freeVersion (s : State) : List Byte := (List.range 4).map (fun i => Config.freeByte (s.free + i))

theorem freeVersion_length (s : State) : (freeVersion s).length = 4 := by simp [freeVersion]

theorem versionSupport_of_spdm {t : Nat} (hheard : heard s via = true) (ht : t = 5 ∨ t = 0x7E) :
    versionSupport via t s = emit (.mctp via (0 :: 1 :: freeVersion s)) { s with free := s.free + 4 } :=
  ((if_neg (by omega)).trans (if_pos ht)).trans (control_of_heard _ hheard)

/-! ### SPDM (R439) -/

theorem spdmRow_of_up {k : State → State} (hup : s.sb.restarting = false) : spdmRow via k s = .next (k s) :=
  congrArg Host.Outcome.next (if_neg (by simp [hup]))

theorem spdmReady_of_algs {k : State → State} (hup : s.sb.restarting = false) (halgs : s.side.spdmAlgs = true) :
    spdmReady via k s = .next (k s) := by
  rw [spdmReady, spdmRow_of_up hup, if_pos halgs]

theorem getVersion_answers (hup : s.sb.restarting = false) : ∃ req rsp, execGetVersion via s = .next (spdmAnswer via req rsp
    { s with side := { s.side with spdmVersion := 0, spdmCaps := false, spdmAlgs := false, transcript := [] } }) := by
  rw [execGetVersion, spdmRow_of_up hup]
  exact ⟨_, _, rfl⟩

theorem getCapabilities_answers {v : Nat} (hup : s.sb.restarting = false) (hasked : s.side.transcript ≠ []) (hv : v = 0x12 ∨ v = 0x13) :
    ∃ req rsp, execGetCapabilities via v s
      = .next (spdmAnswer via req rsp { s with side := { s.side with spdmVersion := v, spdmCaps := true } }) := by
  have hnot : ¬s.side.transcript.isEmpty = true := by simp [hasked]
  have hversion : ¬(v ≠ 0x12 ∧ v ≠ 0x13) := by omega
  rw [execGetCapabilities, spdmRow_of_up hup, if_neg hnot, if_neg hversion]
  exact ⟨_, _, rfl⟩

theorem negotiateAlgorithms_answers {a h : BitVec 32} (hup : s.sb.restarting = false) (hcaps : s.side.spdmCaps = true) :
    ∃ req rsp, execNegotiateAlgorithms via a h s = .next (spdmAnswer via req rsp
      { s with side := { s.side with spdmAlgs := decide (a &&& 0x80 ≠ 0) && decide (h &&& 2 ≠ 0) } }) := by
  have hasked : ¬(!s.side.spdmCaps) = true := by simp [hcaps]
  have hboth : (a &&& 0x80 != 0 && h &&& 2 != 0) = (decide (a &&& 0x80 ≠ 0) && decide (h &&& 2 ≠ 0)) := by simp [bne, beq_eq_decide]
  rw [execNegotiateAlgorithms, spdmRow_of_up hup, if_neg hasked, ← hboth]
  exact ⟨_, _, rfl⟩

theorem getDigests_answers (hup : s.sb.restarting = false) (halgs : s.side.spdmAlgs = true) :
    ∃ req rsp, execGetDigests via s = .next (spdmAnswer via req rsp s) := by
  rw [execGetDigests, spdmReady_of_algs hup halgs]
  exact ⟨_, _, rfl⟩

theorem getCertificate_answers {off len : Nat} (hup : s.sb.restarting = false) (halgs : s.side.spdmAlgs = true)
    (hoff : off < s.fuse.certChain.length) : ∃ req rsp, execGetCertificate via 0 off len s = .next (spdmAnswer via req rsp s) := by
  have hpiece : ¬((0 : Nat) ≠ 0 ∨ s.fuse.certChain.length ≤ off) := by omega
  rw [execGetCertificate, spdmReady_of_algs hup halgs, if_neg hpiece]
  exact ⟨_, _, rfl⟩

theorem challenge_signs {nonce : List Byte} (hup : s.sb.restarting = false) (halgs : s.side.spdmAlgs = true) :
    ∃ body, execChallenge via 0 nonce s = .next (spdmSigned via ([spdmVer s, 0x83, 0, 0] ++ padTo 32 nonce) body s) := by
  have hslot : ¬(0 : Nat) ≠ 0 := by decide
  rw [execChallenge, spdmReady_of_algs hup halgs, if_neg hslot]
  exact ⟨_, rfl⟩

theorem getMeasurements_signs {i : Nat} {nonce : List Byte} (hup : s.sb.restarting = false) (halgs : s.side.spdmAlgs = true)
    (hi : i ≤ 6 ∨ i = 0xFF) : ∃ body, execGetMeasurements via i nonce s
      = .next (spdmSigned via ([spdmVer s, 0xE0, 1, BitVec.ofNat 8 i] ++ padTo 32 nonce) body s) := by
  have hindex : ¬(6 < i ∧ i ≠ 0xFF) := by omega
  rw [execGetMeasurements, spdmReady_of_algs hup halgs, if_neg hindex]
  exact ⟨_, rfl⟩

end

/-- Settles O52: each request past the checks that come before its answer; every answer of SPDM joins the transcript. -/
theorem managementTransports : Obligations.ManagementTransports := by
  unfold Obligations.ManagementTransports
  refine ⟨fun via s hheard => ⟨fun op eid hop hlow hhigh => ?_, fun op eid hbad => ?_, ?_, ?_, fun t ht => ?_, fun t ht => ?_, ?_, ?_⟩,
    fun s b st a hgiven => congrArg Host.Outcome.next (if_pos (by simpa using hgiven)), fun s => rfl,
    fun via s n v a h l hdown i hi => ?_,
    fun via s hup => ⟨?_, fun v hasked hv => ?_, fun a h hcaps => ?_, fun halgs => ⟨?_, fun off len hoff => ?_, fun nonce => ?_,
      fun i nonce hi => ?_⟩⟩⟩
  · exact congrArg Host.Outcome.next (setEndpointId_of_valid hheard ⟨hop, hlow, hhigh⟩)
  · exact congrArg Host.Outcome.next (setEndpointId_of_invalid hheard (by omega))
  · exact congrArg Host.Outcome.next (control_of_heard _ hheard)
  · exact congrArg Host.Outcome.next (control_of_heard _ hheard)
  · exact congrArg Host.Outcome.next (versionSupport_of_control hheard ht)
  · exact ⟨freeVersion s, _, congrArg Host.Outcome.next (versionSupport_of_spdm hheard ht), freeVersion_length s, rfl⟩
  · exact congrArg Host.Outcome.next (control_of_heard _ hheard)
  · exact congrArg Host.Outcome.next (control_of_heard _ hheard)
  · fin_cases hi <;> exact congrArg Host.Outcome.next (if_pos hdown)
  · obtain ⟨req, rsp, hexec⟩ := getVersion_answers (via := via) hup
    exact ⟨_, rsp, hexec⟩
  · obtain ⟨req, rsp, hexec⟩ := getCapabilities_answers (via := via) hup hasked hv
    exact ⟨_, rsp, hexec⟩
  · obtain ⟨req, rsp, hexec⟩ := negotiateAlgorithms_answers (via := via) (a := a) (h := h) hup hcaps
    exact ⟨_, rsp, hexec⟩
  · obtain ⟨req, rsp, hexec⟩ := getDigests_answers (via := via) hup halgs
    exact ⟨_, rsp, hexec⟩
  · obtain ⟨req, rsp, hexec⟩ := getCertificate_answers (via := via) (len := len) hup halgs hoff
    exact ⟨_, rsp, hexec⟩
  · obtain ⟨body, hexec⟩ := challenge_signs (via := via) (nonce := nonce) hup halgs
    exact ⟨_, _, rfl, hexec⟩
  · obtain ⟨body, hexec⟩ := getMeasurements_signs (via := via) (nonce := nonce) hup halgs hi
    exact ⟨_, _, rfl, hexec⟩

end Sys2Proof.Machine
end
